-- ==== Sys2Proof/Word.lean ====
section
/-!
DEFINITION. The byte.
-/

namespace Sys2Proof

/-- One byte of a frame, of the profile image or of the profile memory. -/
abbrev Byte := BitVec 8

end Sys2Proof
end

