-- ==== Sys2Proof/Syntax.lean ====
section
/-!
DEFINITION. The commands of the SC-412: one constructor for each row of spec/opcode_table.json.

The table gives its rows no bits. A command is one indivisible step of the part (95_what_each_step_holds.md).
An operand stands for what the step reads from outside the part: bytes on RXD, a strap, a converter's code,
the answer of the profile memory. A request has no operand of its own: its fields are the payload of the frame
that the request handler takes from the front of the receive buffer (R171; log entry 1).
-/

namespace Sys2Proof

/-- The two ramps, coded 0 and 1 (00_scope.md, Numbering). -/
inductive Ramp where
  | a
  | b
deriving DecidableEq, Repr

/-- The steps of the part, in the order of spec/opcode_table.json but for the field link's, which stand together. -/
inductive Instr where
  /-- Power-on or RESET_N (R161). The straps as they stand when reset ends (R169); the parts of a write in flight
  that were done, and which bits of the page in progress are new (R186). -/
  | hardwareReset (baud1 baud0 : Bool) (partsDone : Nat) (mix : List Byte)
  /-- A profile load ends (R182); the first sample's three readings (R142), used when it ends in NO_VESSEL. -/
  | loadEnd (gradA gradB : BitVec 8) (incl : BitVec 10)
  /-- Bytes arrive on RXD, the last of them a frame's last CRC byte (R170). -/
  | frameComplete (bytes : List Byte)
  /-- Bytes arrive on RXD, and then a character with its stop bit low (R169). -/
  | framingError (bytes : List Byte)
  /-- The handler takes a frame whose KIND names no request kind (R171). -/
  | badKindRequest
  | vesselOpen
  | vesselSecure
  | vesselReopen
  | vesselRelease
  | book
  | amend
  | cancel
  | checkIn
  | present
  | holdUnit
  | releaseHold
  | place
  | discharge
  | rampOpen
  | rampClose
  | setRamp
  | skip
  | laneClose
  | laneOpen
  | obstructionAdd
  | obstructionClear
  | setBallast
  | clearFlags
  /-- The PROT strap as it stands when the request is examined (R184). -/
  | profileWrite (prot : Bool)
  /-- The memory write has done every part and is read back (R185); what the memory holds at the chunk's
  addresses, byte by byte (a byte not given is the byte carried). -/
  | profileWriteEnd (stored : List Byte)
  /-- The write-in-progress indicator is still set after 50 ms (R185); the parts done, and which bits of the page
  in progress are new. -/
  | writeTimeout (partsDone : Nat) (mix : List Byte)
  | profileReload
  | queryUnit
  | queryLane
  | queryQueue
  | queryStatus
  | placementServed
  | retryWalk
  | walkVisit
  | redirectSearch
  | ageingExpiry
  | call (r : Ramp)
  | intervalTimerExpiry (r : Ramp)
  | callTimerExpiry (r : Ramp)
  | axleEdge (r : Ramp)
  /-- The plate's converter delivers its code (R129). -/
  | conversionComplete (r : Ramp) (code : BitVec 10)
  | gapTimerExpiry (r : Ramp)
  /-- The three readings of a sample (R142). -/
  | sampleTimerExpiry (gradA gradB : BitVec 8) (incl : BitVec 10)
  | frameSent
  /-- Bytes arrive on RXD, and the frame they end is discarded for its LEN or its CRC (R170). -/
  | frameDiscarded (bytes : List Byte)
deriving DecidableEq, Repr

end Sys2Proof
end

