-- ==== Sys2Proof/Decode.lean ====
section
/-!
DEFINITION. The command that a word of spec/opcode_table.json spells.
The table gives no row any bits ("fields" is empty in each of its 50 rows), so no word spells a command. What the
stations send is decoded in Machine/Operands.lean (a request's payload) and Machine/Link.lean (a frame).
-/

namespace Sys2Proof

/-- The command that the table's bits spell: none, for no row of the table has bits. -/
def decodeTableWord (_nbits _w : Nat) : Option Instr := none

end Sys2Proof
end

