-- ==== Sys2Proof/Config.lean ====
section
/-!
DEFINITION. The part's fixed sizes, each with the rule that gives it, and the one value the spec leaves open.
-/

namespace Sys2Proof.Config

/-- Record slots of the Unit Table (R4). -/
def maxUnits : Nat := 512
/-- Frames the receive buffer holds (R170). -/
def rxFrames : Nat := 4
/-- Slots of the response queue (R171). -/
def responseSlots : Nat := 8
/-- Slots of the event notice queue (R176). -/
def noticeSlots : Nat := 16
/-- Free notice slots that a call needs (R110). -/
def callNoticeSlots : Nat := 4
/-- Obstruction records a lane holds (R32). -/
def maxObstructions : Nat := 2
/-- Entries in a run of QUERY_LANE or QUERY_QUEUE (R44, R122). -/
def runEntries : Nat := 12
/-- Codes in the heel history (R147). -/
def heelHistory : Nat := 4
/-- Saturation of the axle sum (R59). -/
def axleSumMax : Nat := 600
/-- Largest axle count held (R128). -/
def axleCountMax : Nat := 15
/-- Axles converted in one crossing (R128). -/
def axlesConverted : Nat := 12
/-- Clamp of the ballast offsets (R50). -/
def ballastMax : Int := 50000000
/-- Bytes of the profile header (R189). -/
def headerBytes : Nat := 54
/-- Bytes of a memory page (12_profile_memory_and_start_up.md). -/
def pageBytes : Nat := 64
/-- The most parts a chunk is split into: 1..128 bytes over 64-byte pages (R185). -/
def maxParts : Nat := 3
/-- Addresses of the profile memory: a command carries three address bytes (R182). -/
def memSize : Nat := 16777216
/-- What an address of the profile memory reads as when nothing was written there (log entry 7, DESIGN CHOICE). -/
def blankByte : Byte := 0xFF

/-- FREE VALUE (log entry 8): the byte the memory returns for an address past its last one, on the reading the
counter numbers. It has no known value: nothing can be proved of it. -/
opaque pastTop : Nat → Nat → Byte

end Sys2Proof.Config
end

