-- ==== Sys2Proof/Machine/State.lean ====
section
/-!
DEFINITION. Everything the SC-412 holds, block by block, as plain data, and its value after hardware reset.
Quantities are plain numbers in the units of 00_scope.md; bit vectors stand only where the spec has bits (bytes of a
frame, the sticky flag byte, deck sets).
-/

namespace Sys2Proof.Machine

open Sys2Proof

/-! ## Names shared by the blocks -/

/-- A unit reference, 1..4294967294 (R1). -/
abbrev Ref := Nat
/-- A lane number 0..95 (00_scope.md, Numbering). -/
abbrev Lane := Fin 96
/-- A deck number 0..3. -/
abbrev Deck := Fin 4
/-- A set of decks: bit d stands for deck d (R188). -/
abbrev DeckSet := BitVec 4
/-- A timer: stopped, or running, with the period in milliseconds it was last started with (log entry 3). -/
abbrev Timer := Option Nat

/-- One value for each ramp. -/
structure PerRamp (α : Type) where
  a : α
  b : α
deriving DecidableEq, Repr

/-- The value of ramp `r`. -/
def PerRamp.get {α : Type} (p : PerRamp α) : Ramp → α
  | .a => p.a
  | .b => p.b

/-- Replaces the value of ramp `r`. -/
def PerRamp.set {α : Type} (p : PerRamp α) (r : Ramp) (v : α) : PerRamp α :=
  match r with
  | .a => { p with a := v }
  | .b => { p with b := v }

/-! ## Enumerations (13.3) -/

inductive Session where
  | loading | noProfile | noVessel | alongside | secured
deriving DecidableEq, Repr

inductive UnitKind where
  | car | van | truck | trailer | lowbed | coach
deriving DecidableEq, Repr

inductive Status where
  | booked | waiting | unplaced | lapsed | called | crossing | aboard | held | shutOut
deriving DecidableEq, Repr

inductive LaneState where
  | opened | closing | closed | withdrawn
deriving DecidableEq, Repr

inductive RampState where
  | closed | opened | closing
deriving DecidableEq, Repr

inductive PlateState where
  | disarmed | idle | weighing
deriving DecidableEq, Repr

inductive ComparatorState where
  | unsampled | clear | restricted
deriving DecidableEq, Repr

/-- FORE (+1) and AFT (-1). -/
inductive Direction where
  | fore | aft
deriving DecidableEq, Repr

inductive Role where
  | none | planning | gate | marshal
deriving DecidableEq, Repr

inductive SectionId where
  | header | vessel | decks | lanes | ramps | stations | hazards
deriving DecidableEq, Repr

inductive StartUp where
  | loaded | noMemory | badSignature | badHeader | badSection
deriving DecidableEq, Repr

/-- The lists QUERY_QUEUE names (R122). -/
inductive ListName where
  | priority | ordinary | called
deriving DecidableEq, Repr

/-- Result codes, in code order (13.2). -/
inductive Result where
  | ok | badKind | badField | notPermitted | wrongSession | noProfile | unknownUnit | duplicate | tableFull
  | wrongUnitState | inFlight | blocked | heelHold | limit | overlaps | laneState | writeProtected | busy | writeFail
deriving DecidableEq, Repr

/-- Request kinds, in code order (13.2). -/
inductive RequestKind where
  | vesselOpen | vesselSecure | vesselReopen | vesselRelease
  | book | amend | cancel | checkIn | present | holdUnit | releaseHold | place | discharge
  | rampOpen | rampClose | setRamp | skip
  | laneClose | laneOpen | obstructionAdd | obstructionClear | setBallast
  | clearFlags | profileWrite | profileReload
  | queryUnit | queryLane | queryQueue | queryStatus
deriving DecidableEq, Repr

/-- Why a CALLED unit left the called list (R120). -/
inductive UncallReason where
  | noShow | noShowHeld | skipped | follower | held | rampClosed | released
deriving DecidableEq, Repr

/-- What became of an attributed crossing (R139). -/
inductive CrossingOutcome where
  | committed | redirected | held
deriving DecidableEq, Repr

/-! ## Unit records (chapter 1) -/

/-- The declared part (R1). -/
structure Declared where
  ref         : Ref
  kind        : UnitKind
  length      : Nat
  widthClass  : Nat
  heightClass : Nat
  weight      : Nat
  axles       : Option Nat
  maxAxle     : Option Nat
  hazard      : Option Nat
  service     : Option Nat
  group       : Nat
deriving DecidableEq, Repr

/-- The classification part (R2). -/
structure Classification where
  priority : Bool
  seg      : Nat
  decks    : DeckSet
  axleEst  : Nat
deriving DecidableEq, Repr

/-- The measured weight and max axle, present and absent together (R3). -/
structure Measured where
  weight  : Nat
  maxAxle : Nat
deriving DecidableEq, Repr

/-- A unit record: the three parts of R1 to R3 and the allocating mark of R6. -/
structure UnitRecord where
  decl       : Declared
  cls        : Classification
  status     : Status
  lane       : Option Lane
  offset     : Option Nat
  measured   : Option Measured
  axleCount  : Option Nat
  mismatch   : Bool
  weighFault : Bool
  redirected : Bool
  noShow     : Nat
  age        : Nat
  gate       : Option Nat
  mark       : Bool
deriving DecidableEq, Repr

/-! ## The profile shadow (chapters 2, 3, 5, 6, 8, 12) -/

/-- VESSEL section (12.1). -/
structure Vessel where
  gap            : Nat
  listLimit      : Nat
  trimLo         : Int
  trimHi         : Int
  heavyThreshold : Nat
  heelOn         : Nat
  heelOff        : Nat
  heelSpan       : Nat
  samplePeriod   : Nat
  agePeriod      : Nat
  ageLimit       : Nat
  baseLevel      : Nat
deriving DecidableEq, Repr

/-- A DECKS record (R40). -/
structure DeckFixed where
  cap     : Nat
  reserve : Nat
  warnOn  : Nat
  warnOff : Nat
deriving DecidableEq, Repr

/-- A lane's fixed part (R23). -/
structure LaneFixed where
  deck        : Deck
  ramp        : Ramp
  length      : Nat
  dir         : Direction
  xInner      : Int
  y           : Int
  widthClass  : Nat
  heightClass : Nat
  axleLimit   : Nat
deriving DecidableEq, Repr

/-- A RAMPS record (12.1). -/
structure RampFixed where
  budget         : Nat
  intervalPeriod : Nat
  ratio          : Nat
  depth          : Nat
  callTimeout    : Nat
  crossingGap    : Nat
  plateZero      : Nat
  plateScale     : Nat
  tolerance      : Nat
  gradLimit      : Nat
  gradRise       : Nat
  gradFall       : Nat
  gateOn         : Nat
  gateOff        : Nat
deriving DecidableEq, Repr

/-- A STATIONS entry (R92, R173). -/
structure Station where
  role    : Role
  level   : Nat
  ceiling : Nat
  mask    : DeckSet
deriving DecidableEq, Repr

/-- A hazard table entry (R88). -/
structure HazardEntry where
  priority : Bool
  seg      : Nat
  decks    : DeckSet
deriving DecidableEq, Repr

/-- The five mandatory sections (12.1). -/
structure Profile where
  vessel   : Vessel
  decks    : List DeckFixed
  lanes    : List LaneFixed
  ramps    : PerRamp RampFixed
  stations : List Station
deriving DecidableEq, Repr

/-! ## Lane Map and Stability Unit (chapters 2 and 3) -/

/-- An obstruction record (R32); it covers [start, start + extent). -/
structure Obstruction where
  start  : Nat
  extent : Nat
deriving DecidableEq, Repr

/-- An entry of an occupant list (R25). -/
structure Occupant where
  ref    : Ref
  offset : Nat
deriving DecidableEq, Repr

/-- A lane's runtime part (R24). -/
structure LaneRun where
  state        : LaneState
  obstructions : List Obstruction
  occupants    : List Occupant
  reservations : List Ref
deriving DecidableEq, Repr

/-- A deck's fill and warning state, and its DECKWARN line (R40, R43); the deck's load is the Stability Unit's. -/
structure DeckRun where
  fill    : Nat
  warning : Bool
  lineLow : Bool
deriving DecidableEq, Repr

/-- The accumulators, ballast offsets and deck loads (R41, R47, R48, R50). -/
structure Stability where
  mlC  : Int
  mtC  : Int
  mlP  : Int
  mtP  : Int
  bl   : Int
  bt   : Int
  load : Vector Int 4
deriving DecidableEq, Repr

/-! ## Link Port (chapter 11) -/

/-- A complete request frame (R170). -/
structure Frame where
  stn     : Byte
  kind    : Byte
  tag     : Byte
  payload : List Byte
deriving DecidableEq, Repr

/-- The receiver (R170): hunting, or assembling, with LEN awaited or taken. `got` holds the bytes after LEN,
in the order of arrival. -/
inductive Receiver where
  | hunting
  | awaitLen
  | body (len : Byte) (got : List Byte)
deriving DecidableEq, Repr

/-- What a response must name: the station, the request's kind and its tag (R175). It stands for the slot that is
reserved from the taking of the frame (R171). -/
structure Ticket where
  stn  : Byte
  kind : Byte
  tag  : Byte
deriving DecidableEq, Repr

/-- Where a placed unit stands: lane, deck, ramp (R12). -/
structure Site where
  lane : Lane
  deck : Deck
  ramp : Ramp
deriving DecidableEq, Repr

/-- An entry of QUERY_LANE's run (R44). -/
structure LaneEntry where
  ref    : Ref
  status : Status
  offset : Nat
deriving DecidableEq, Repr

/-- What QUERY_LANE reports (R44). -/
structure LaneReport where
  fixed        : LaneFixed
  state        : LaneState
  physicalEnd  : Nat
  projectedEnd : Nat
  free         : Nat
  occupants    : Nat
  reservations : Nat
  obstructions : List Obstruction
  more         : Bool
  run          : List LaneEntry
deriving DecidableEq, Repr

/-- An entry of QUERY_QUEUE's run (R122). -/
structure QueueEntry where
  ref      : Ref
  lane     : Option Lane
  weight   : Nat
  status   : Status
  eligible : Bool
  head     : Bool
deriving DecidableEq, Repr

/-- What QUERY_QUEUE reports (R122). -/
structure QueueReport where
  state     : RampState
  ratio     : Nat
  depth     : Nat
  budget    : Nat
  credit    : Nat
  remaining : Nat
  gateHold  : Bool
  waiting   : Nat
  length    : Nat
  more      : Bool
  run       : List QueueEntry
deriving DecidableEq, Repr

/-- A ramp's share of QUERY_STATUS (R180). -/
structure RampReport where
  state      : RampState
  plate      : PlateState
  remaining  : Nat
  called     : Nat
  waiting    : Nat
  gateHold   : Bool
  gradient   : Nat
  comparator : ComparatorState
deriving DecidableEq, Repr

/-- What QUERY_STATUS reports (R180). -/
structure StatusReport where
  session        : Session
  startUp        : StartUp
  failSection    : SectionId
  hazardDefaults : Bool
  ml             : Int
  mt             : Int
  bl             : Int
  bt             : Int
  load           : Vector Int 4
  warnings       : Vector Bool 4
  ramps          : PerRamp RampReport
  heel           : Int
  heelHold       : Bool
  units          : Nat
  freeNotices    : Nat
  sticky         : Byte
deriving DecidableEq, Repr

/-- What a response says after its result code (13.4). `refused` is a refusal without an added item. -/
inductive Reply where
  | refused (r : Result)
  | secureInFlight (units : Nat)
  | writeFailed (bytes : Nat)
  | done
  | vesselOpened (booked : Nat)
  | vesselSecured (shutOut : Nat)
  | vesselReopened (returned : Nat)
  | vesselReleased (retired kept : Nat)
  | allocation (status : Status) (priority : Bool) (site : Option Site)
  | placed (ref : Ref) (lane : Lane) (deck : Deck) (offset : Nat) (ml mt : Int)
  | discharged (ref : Ref) (lane : Lane) (deck : Deck) (physicalEnd : Nat) (ml mt : Int)
  | rampClosed (state : RampState) (released : Nat)
  | rampSet (ratio depth budget : Nat) (clampedRatio clampedDepth clampedBudget : Bool)
  | skipped (followers : Nat)
  | laneClosed (state : LaneState) (released : Nat)
  | obstructionAdded (withdrawn : Bool) (released : Nat)
  | obstructionCleared (left : Nat)
  | ballastSet (clampedList clampedTrim : Bool) (bl bt ml mt : Int)
  | flagsCleared (before : Byte)
  | profileWritten (address count : Nat)
  | profileReloaded (session : Session) (startUp : StartUp) (failSection : SectionId) (hazardDefaults : Bool)
  | unitReport (u : UnitRecord)
  | laneReport (l : LaneReport)
  | queueReport (q : QueueReport)
  | statusReport (s : StatusReport)
deriving DecidableEq, Repr

/-- A filled slot of the response queue (R171). -/
structure Response where
  ticket : Ticket
  reply  : Reply
deriving DecidableEq, Repr

/-- A crossing's result: what is written to the record at the event that settles its outcome (R130, R140), with
the indicator of R134. `measured` is absent for a faulted crossing. -/
structure CrossingResult where
  measured    : Option Measured
  axleCount   : Nat
  mismatch    : Bool
  weighFault  : Bool
  axlesDiffer : Bool
deriving DecidableEq, Repr

/-- The event notices (R176) and what each carries. -/
inductive Notice where
  /-- R112 -/
  | call (ramp : Ramp) (ref : Ref) (lane : Lane) (deck : Deck)
  /-- R120 -/
  | uncall (ramp : Ramp) (ref : Ref) (reason : UncallReason) (lane : Option Lane)
  /-- R82 -/
  | relocated (ref : Ref) (former : Lane) (status : Status) (site : Option Site)
  /-- R139; `stands` is where the unit now stands, with the commit offset. -/
  | crossingResult (ramp : Ramp) (ref : Ref) (outcome : CrossingOutcome) (redirected : Bool) (reserved : Option Lane)
      (stands : Option (Lane × Deck × Nat)) (result : CrossingResult)
  /-- R133 -/
  | unexpectedCrossing (ramp : Ramp) (axleCount : Nat) (faulted : Bool)
  /-- R35 -/
  | laneWithdrawn (lane : Lane) (deck : Deck)
deriving DecidableEq, Repr

/-- The nine state subjects (R177). -/
inductive Subject where
  | deck (d : Deck)
  | heel
  | rampState (r : Ramp)
  | gateHold (r : Ramp)
deriving DecidableEq, Repr

/-- The transmitter (R178): idle, or sending a frame of one of the three kinds, with its bytes. -/
inductive Transmitter where
  | idle
  | response (bytes : List Byte)
  | notice (bytes : List Byte)
  | state (subject : Subject) (bytes : List Byte)
deriving DecidableEq, Repr

/-- The Link Port. `reserved` and `filled` are the response queue's slots in use, the filled ones in the order of
their filling; `flags` holds the pending flags in the order of R178. -/
structure Link where
  rate     : Nat
  rx       : Receiver
  rxBuffer : List Frame
  reserved : List Ticket
  filled   : List Response
  notices  : List Notice
  flags    : Vector Bool 9
  sticky   : Byte
  tx       : Transmitter
deriving DecidableEq, Repr

/-! ## Allocator (chapter 4) -/

/-- Why a record was handed to the Allocator (R61). The three requests wait for their response. -/
inductive Cause where
  | checkIn (t : Ticket)
  | present (t : Ticket)
  | releaseHold (t : Ticket)
  | reallocation (former : Lane)
deriving DecidableEq, Repr

/-- A redirect search's item (R83, R137); `reserved` is the lane the unit held at completion (R139). -/
structure Redirect where
  ref        : Ref
  ramp       : Ramp
  weightUsed : Nat
  axleFigure : Nat
  reserved   : Option Lane
  result     : CrossingResult
deriving DecidableEq, Repr

/-- An item of the service input (R61). -/
inductive Item where
  | placement (ref : Ref) (cause : Cause)
  | redirect (x : Redirect)
  | walk
deriving DecidableEq, Repr

/-- The Allocator. `walk` holds the entries of the extent of the walk in progress that are still to be visited;
it is empty when no walk is in progress (R78; log entry 15). -/
structure Allocator where
  service  : List Item
  unplaced : List Ref
  walk     : List Ref
deriving DecidableEq, Repr

/-! ## Call Scheduler, Ramp Weighing Monitor, Heel Monitor (chapters 6 to 8) -/

/-- A ramp's items in the Call Scheduler (R102 to R104), with its GATEHOLD line (R121). -/
structure RampRun where
  state         : RampState
  ratio         : Nat
  depth         : Nat
  budget        : Nat
  credit        : Nat
  remaining     : Nat
  intervalTimer : Timer
  callTimer     : Timer
  gateHold      : Bool
  lineHigh      : Bool
  prio          : List Ref
  ord           : List Ref
  called        : List Ref
deriving DecidableEq, Repr

/-- A plate record (R124). -/
structure Plate where
  state     : PlateState
  unit      : Option Ref
  axleCount : Nat
  busy      : Bool
  axleSum   : Nat
  axleMax   : Nat
  fault     : Bool
  gapTimer  : Timer
deriving DecidableEq, Repr

/-- A gradient comparator (R143). -/
structure Comparator where
  state    : ComparatorState
  gradient : Nat
deriving DecidableEq, Repr

/-- The Heel Monitor (R142, R147, R148), with the HEELHOLD line. -/
structure HeelMonitor where
  history     : List Int
  heel        : Int
  hold        : Bool
  lineHigh    : Bool
  sampleTimer : Timer
deriving DecidableEq, Repr

/-! ## Profile Store (chapter 12) -/

/-- An entry of the header's section table (R189). -/
structure SectionEntry where
  id     : SectionId
  start  : Nat
  length : Nat
  crc    : BitVec 16
deriving DecidableEq, Repr

/-- A memory write in flight (R185); its response slot is reserved under `ticket`. -/
structure MemWrite where
  ticket  : Ticket
  target  : SectionId
  offset  : Nat
  address : Nat
  bytes   : List Byte
deriving DecidableEq, Repr

/-- One transfer on the memory link: the bytes PST sends while PM_CS_N is low, and how many the memory then returns
(R182, R185). -/
structure Transfer where
  sent     : List Byte
  returned : Nat
deriving DecidableEq, Repr

/-- The Profile Store, and the memory behind it. `hazards` holds the entries for codes 1 to 63 (R88). -/
structure ProfileStore where
  shadow         : Option Profile
  hazards        : List HazardEntry
  hazardDefaults : Bool
  startUp        : StartUp
  failSection    : SectionId
  sigPassed      : Bool
  writeTable     : Option (List SectionEntry)
  write          : Option MemWrite
  loadTicket     : Option Ticket
  mem            : List Host.Cell
  bus            : List Transfer
deriving DecidableEq, Repr

/-! ## The state, and what can stop a step -/

/-- The whole part, and the queue of commands that wait for it. -/
structure State where
  /-- The MODEL's own: the commands waiting, the next one first. -/
  pending   : List Instr
  session   : Session
  link      : Link
  units     : List UnitRecord
  checkIn   : List Ref
  ageing    : Timer
  lanes     : Vector LaneRun 96
  decks     : Vector DeckRun 4
  stb       : Stability
  alc       : Allocator
  csc       : PerRamp RampRun
  plates    : PerRamp Plate
  comps     : PerRamp Comparator
  hlm       : HeelMonitor
  pst       : ProfileStore
  /-- The MODEL's own: how many readings of the memory there have been; free bytes are read with it (log entry 8). -/
  freeCount : Nat
deriving DecidableEq, Repr

/-- Why the machine stops: never. The spec names no condition that stops the part (INVENTORY.md, Faults), so the type
has no constructor, and no meaning can end in a fault. -/
inductive Fault where
deriving DecidableEq, Repr

/-- Why a command has no meaning. -/
inductive Refusal where
  /-- Raised by exec's arm of a command that has no meaning yet; none is left. Safe: the machine stops. -/
  | notModelled (mnemonic : String)
deriving DecidableEq, Repr

/-! ## Reset -/

/-- A lane after reset and after VESSEL_OPEN (R24, R163). -/
def LaneRun.reset : LaneRun := { state := .opened, obstructions := [], occupants := [], reservations := [] }

/-- A deck after reset (R40). -/
def DeckRun.reset : DeckRun := { fill := 0, warning := false, lineLow := false }

/-- The Stability Unit after reset (R52). -/
def Stability.reset : Stability :=
  { mlC := 0, mtC := 0, mlP := 0, mtP := 0, bl := 0, bt := 0, load := Vector.replicate 4 0 }

/-- The Link Port after reset (R169, R170, R171, R176 to R179), at the rate the straps gave. -/
def Link.reset (rate : Nat) : Link :=
  { rate := rate, rx := .hunting, rxBuffer := [], reserved := [], filled := [], notices := [],
    flags := Vector.replicate 9 false, sticky := 0, tx := .idle }

/-- The Allocator after reset (R87). -/
def Allocator.reset : Allocator := { service := [], unplaced := [], walk := [] }

/-- A ramp after reset (R123: "Until the start-up load ends ... N is 0, D is 1, B is 50, the remaining budget is 50
and the credit 0"). -/
def RampRun.reset : RampRun :=
  { state := .closed, ratio := 0, depth := 1, budget := 50, credit := 0, remaining := 50, intervalTimer := none,
    callTimer := none, gateHold := false, lineHigh := false, prio := [], ord := [], called := [] }

/-- A plate record's starting values (R124). -/
def Plate.reset : Plate :=
  { state := .disarmed, unit := none, axleCount := 0, busy := false, axleSum := 0, axleMax := 0, fault := false,
    gapTimer := none }

/-- A comparator after reset (R150). -/
def Comparator.reset : Comparator := { state := .unsampled, gradient := 0 }

/-- The Heel Monitor after reset (R150). -/
def HeelMonitor.reset : HeelMonitor :=
  { history := [], heel := 0, hold := false, lineHigh := false, sampleTimer := none }

/-- The default of a hazard table entry (R89). -/
def HazardEntry.default : HazardEntry := { priority := false, seg := 0, decks := 0 }

/-- The Profile Store after reset, over a memory's contents (R89, R182, R185). The start-up state, the failing
section and the signature mark are DESIGN CHOICES (log entry 12). -/
def ProfileStore.reset (mem : List Host.Cell) : ProfileStore :=
  { shadow := none, hazards := List.replicate 63 HazardEntry.default, hazardDefaults := true, startUp := .noMemory,
    failSection := .header, sigPassed := false, writeTable := none, write := none, loadTicket := none, mem := mem,
    bus := [] }

/-- The part right after hardware reset, with given strap rate, memory contents and waiting commands (R161). -/
def State.resetWith (rate : Nat) (mem : List Host.Cell) (pending : List Instr) (freeCount : Nat) : State :=
  { pending := pending, session := .loading, link := Link.reset rate, units := [], checkIn := [], ageing := none,
    lanes := Vector.replicate 96 LaneRun.reset, decks := Vector.replicate 4 DeckRun.reset, stb := Stability.reset,
    alc := Allocator.reset, csc := ⟨RampRun.reset, RampRun.reset⟩, plates := ⟨Plate.reset, Plate.reset⟩,
    comps := ⟨Comparator.reset, Comparator.reset⟩, hlm := HeelMonitor.reset, pst := ProfileStore.reset mem,
    freeCount := freeCount }

/-- The machine right after reset: both straps low (DESIGN CHOICE, log entry 12), a memory in which nothing is
written (DESIGN CHOICE, log entry 7), no command waiting. -/
def State.reset : State := State.resetWith 115200 [] [] 0

end Sys2Proof.Machine
end

