-- ==== Sys2Proof/Machine/Bytes.lean ====
section
/-!
DEFINITION. Byte order, sign, the 16-bit check, and the codes of 13.2 and 13.3.
-/

namespace Sys2Proof.Machine

open Sys2Proof

/-! ## Byte order and sign (R188: most significant byte first, two's complement) -/

/-- The number that bytes spell, most significant first. -/
def beNat (bs : List Byte) : Nat := bs.foldl (fun n b => n * 256 + b.toNat) 0

/-- The `n` bytes of a number, most significant first; what does not fit is cut off above. -/
def beBytes : Nat → Nat → List Byte
  | 0, _ => []
  | n + 1, v => BitVec.ofNat 8 (v / 256 ^ n) :: beBytes n v

/-- The value of an `n`-byte field read as two's complement. -/
def signedOf (n v : Nat) : Int := if v < 2 ^ (8 * n - 1) then (v : Int) else (v : Int) - 2 ^ (8 * n)

/-- The `n` bytes of a signed number. -/
def beInt (n : Nat) (v : Int) : List Byte := beBytes n (v % 256 ^ n).toNat

/-- Takes an `n`-byte number off the front of a payload. -/
def getN (n : Nat) (bs : List Byte) : Option (Nat × List Byte) :=
  if bs.length < n then none else some (beNat (bs.take n), bs.drop n)

/-- Takes a signed `n`-byte number off the front of a payload. -/
def getInt (n : Nat) (bs : List Byte) : Option (Int × List Byte) :=
  (getN n bs).map fun p => (signedOf n p.1, p.2)

/-- Takes an optional `n`-byte number, announced by a presence bit (R188). -/
def getOpt (there : Bool) (n : Nat) (bs : List Byte) : Option (Option Nat × List Byte) :=
  if there then (getN n bs).map fun p => (some p.1, p.2) else some (none, bs)

/-- The byte of a number. -/
def byte (n : Nat) : Byte := BitVec.ofNat 8 n

/-- 1 for a set indicator, 0 for a clear one (13.3). -/
def ind (b : Bool) : Byte := if b then 1 else 0

/-- A byte from its low bits, bit 0 first. -/
def packBits (bits : List Bool) : Byte := byte (bits.foldr (fun b n => 2 * n + b.toNat) 0)

/-! ## The cyclic redundancy check (R170) -/

/-- One bit of the check: generator x^16 + x^12 + x^5 + 1. -/
def crcBit (c : BitVec 16) : BitVec 16 := if c.msb then (c <<< 1) ^^^ 0x1021#16 else c <<< 1

/-- One byte, entered most significant bit first. -/
def crcByte (c : BitVec 16) (b : Byte) : BitVec 16 :=
  let c := c ^^^ ((b.setWidth 16) <<< 8)
  crcBit (crcBit (crcBit (crcBit (crcBit (crcBit (crcBit (crcBit c)))))))

/-- The check of a run of bytes, from 0xFFFF, with no reflection and no final inversion. -/
def crc16 (bs : List Byte) : BitVec 16 := bs.foldl crcByte 0xFFFF#16

/-! ## Codes (13.2, 13.3) -/

/-- The item numbered `n` of a list of names in code order. -/
def ofCode {α : Type} (names : List α) (n : Nat) : Option α := names[n]?

def UnitKind.names : List UnitKind := [.car, .van, .truck, .trailer, .lowbed, .coach]

def UnitKind.code : UnitKind → Nat
  | .car => 0 | .van => 1 | .truck => 2 | .trailer => 3 | .lowbed => 4 | .coach => 5

def Status.code : Status → Nat
  | .booked => 0 | .waiting => 1 | .unplaced => 2 | .lapsed => 3 | .called => 4 | .crossing => 5 | .aboard => 6
  | .held => 7 | .shutOut => 8

def Session.code : Session → Nat
  | .loading => 0 | .noProfile => 1 | .noVessel => 2 | .alongside => 3 | .secured => 4

def rampNames : List Ramp := [.a, .b]

def rampCode : Ramp → Nat
  | .a => 0 | .b => 1

def Direction.names : List Direction := [.fore, .aft]

def Direction.code : Direction → Nat
  | .fore => 0 | .aft => 1

def ListName.names : List ListName := [.priority, .ordinary, .called]

def CrossingOutcome.code : CrossingOutcome → Nat
  | .committed => 0 | .redirected => 1 | .held => 2

def UncallReason.code : UncallReason → Nat
  | .noShow => 0 | .noShowHeld => 1 | .skipped => 2 | .follower => 3 | .held => 4 | .rampClosed => 5 | .released => 6

def Role.names : List Role := [.none, .planning, .gate, .marshal]

def SectionId.names : List SectionId := [.header, .vessel, .decks, .lanes, .ramps, .stations, .hazards]

def SectionId.code : SectionId → Nat
  | .header => 0 | .vessel => 1 | .decks => 2 | .lanes => 3 | .ramps => 4 | .stations => 5 | .hazards => 6

def StartUp.code : StartUp → Nat
  | .loaded => 0 | .noMemory => 1 | .badSignature => 2 | .badHeader => 3 | .badSection => 4

def LaneState.code : LaneState → Nat
  | .opened => 0 | .closing => 1 | .closed => 2 | .withdrawn => 3

def RampState.code : RampState → Nat
  | .closed => 0 | .opened => 1 | .closing => 2

def PlateState.code : PlateState → Nat
  | .disarmed => 0 | .idle => 1 | .weighing => 2

def ComparatorState.code : ComparatorState → Nat
  | .unsampled => 0 | .clear => 1 | .restricted => 2

def Result.code : Result → Nat
  | .ok => 0x00 | .badKind => 0x01 | .badField => 0x02 | .notPermitted => 0x03 | .wrongSession => 0x04
  | .noProfile => 0x05 | .unknownUnit => 0x06 | .duplicate => 0x07 | .tableFull => 0x08 | .wrongUnitState => 0x09
  | .inFlight => 0x0A | .blocked => 0x0B | .heelHold => 0x0C | .limit => 0x0D | .overlaps => 0x0E
  | .laneState => 0x0F | .writeProtected => 0x10 | .busy => 0x11 | .writeFail => 0x12

def RequestKind.code : RequestKind → Nat
  | .vesselOpen => 0x01 | .vesselSecure => 0x02 | .vesselReopen => 0x03 | .vesselRelease => 0x04
  | .book => 0x08 | .amend => 0x09 | .cancel => 0x0A | .checkIn => 0x0B | .present => 0x0C | .holdUnit => 0x0D
  | .releaseHold => 0x0E | .place => 0x0F | .discharge => 0x10
  | .rampOpen => 0x14 | .rampClose => 0x15 | .setRamp => 0x16 | .skip => 0x17
  | .laneClose => 0x18 | .laneOpen => 0x19 | .obstructionAdd => 0x1A | .obstructionClear => 0x1B
  | .setBallast => 0x1C
  | .clearFlags => 0x20 | .profileWrite => 0x21 | .profileReload => 0x22
  | .queryUnit => 0x28 | .queryLane => 0x29 | .queryQueue => 0x2A | .queryStatus => 0x2B

/-- Every request kind. -/
def RequestKind.names : List RequestKind :=
  [.vesselOpen, .vesselSecure, .vesselReopen, .vesselRelease, .book, .amend, .cancel, .checkIn, .present, .holdUnit,
   .releaseHold, .place, .discharge, .rampOpen, .rampClose, .setRamp, .skip, .laneClose, .laneOpen, .obstructionAdd,
   .obstructionClear, .setBallast, .clearFlags, .profileWrite, .profileReload, .queryUnit, .queryLane, .queryQueue,
   .queryStatus]

/-- The request kind that a KIND byte names, if it names one. -/
def RequestKind.ofCode (b : Byte) : Option RequestKind := RequestKind.names.find? fun k => k.code == b.toNat

end Sys2Proof.Machine
end

