-- ==== Sys2Proof/Machine/Ops.lean ====
section
/-!
DEFINITION. The named operations every meaning is written with: one update per field of State, the profile memory,
the Unit Table, and the readings of the profile shadow.
-/

namespace Sys2Proof.Machine

open Sys2Proof

/-! ## One update per field of State -/

def State.setPending (q : List Instr) (s : State) : State := { s with pending := q }
def State.setSession (x : Session) (s : State) : State := { s with session := x }
def State.modLink (f : Link → Link) (s : State) : State := { s with link := f s.link }
def State.setUnits (us : List UnitRecord) (s : State) : State := { s with units := us }
def State.setCheckIn (rs : List Ref) (s : State) : State := { s with checkIn := rs }
def State.setAgeing (t : Timer) (s : State) : State := { s with ageing := t }
def State.setLane (l : Lane) (v : LaneRun) (s : State) : State := { s with lanes := s.lanes.set l v }
def State.setLanes (v : Vector LaneRun 96) (s : State) : State := { s with lanes := v }
def State.setDeck (d : Deck) (v : DeckRun) (s : State) : State := { s with decks := s.decks.set d v }
def State.setDecks (v : Vector DeckRun 4) (s : State) : State := { s with decks := v }
def State.setStb (x : Stability) (s : State) : State := { s with stb := x }
def State.setAlc (x : Allocator) (s : State) : State := { s with alc := x }
def State.setRamp (r : Ramp) (x : RampRun) (s : State) : State := { s with csc := s.csc.set r x }
def State.setPlate (r : Ramp) (x : Plate) (s : State) : State := { s with plates := s.plates.set r x }
def State.setComp (r : Ramp) (x : Comparator) (s : State) : State := { s with comps := s.comps.set r x }
def State.setHlm (x : HeelMonitor) (s : State) : State := { s with hlm := x }
def State.setPst (x : ProfileStore) (s : State) : State := { s with pst := x }
def State.setFreeCount (n : Nat) (s : State) : State := { s with freeCount := n }

/-- The runtime part of lane `l`. -/
def State.lane (s : State) (l : Lane) : LaneRun := s.lanes[l]
/-- The runtime part of deck `d`. -/
def State.deck (s : State) (d : Deck) : DeckRun := s.decks[d]
/-- Ramp `r` as the Call Scheduler holds it. -/
def State.ramp (s : State) (r : Ramp) : RampRun := s.csc.get r
/-- The plate of ramp `r`. -/
def State.plate (s : State) (r : Ramp) : Plate := s.plates.get r
/-- The comparator of ramp `r`. -/
def State.comp (s : State) (r : Ramp) : Comparator := s.comps.get r

/-! ## The profile memory (chapter 12; log entries 7, 8, 9) -/

/-- What is stored at an address: the listed byte, or what an unlisted address reads as. -/
def memGet : List Host.Cell → Nat → Byte
  | [], _ => Config.blankByte
  | (a, b) :: rest, addr => if a = addr then b else memGet rest addr

/-- Stores a byte and keeps the canonical form: addresses rise, and no entry equals what an unlisted address reads
as. -/
def memPut (addr : Nat) (v : Byte) : List Host.Cell → List Host.Cell
  | [] => if v = Config.blankByte then [] else [(addr, v)]
  | (a, b) :: rest =>
    if addr < a then (if v = Config.blankByte then (a, b) :: rest else (addr, v) :: (a, b) :: rest)
    else if addr = a then (if v = Config.blankByte then rest else (a, v) :: rest)
    else (a, b) :: memPut addr v rest

/-- The canonical form of a memory: addresses strictly rising and below 2^24, no entry equal to the byte an unlisted
address reads as. -/
def memWfFrom : Nat → List Host.Cell → Bool
  | _, [] => true
  | lo, (a, b) :: rest => decide (lo ≤ a) && decide (a < Config.memSize) && decide (b ≠ Config.blankByte) &&
      memWfFrom (a + 1) rest

/-- The canonical form, from address 0. -/
def Memory.wf (m : List Host.Cell) : Bool := memWfFrom 0 m

/-- The byte the memory returns for an address of a read: past the last address it is a free value (log entry 8). -/
def memRead (m : List Host.Cell) (count addr : Nat) : Byte :=
  if addr < Config.memSize then memGet m addr else Config.pastTop count addr

/-- The bytes one read command returns, from its address onward (R182). -/
def memReads (m : List Host.Cell) (count : Nat) : Nat → Nat → List Byte
  | _, 0 => []
  | addr, n + 1 => memRead m count addr :: memReads m count (addr + 1) n

/-- Stores bytes at rising addresses. -/
def memPuts : Nat → List Byte → List Host.Cell → List Host.Cell
  | _, [], m => m
  | addr, b :: bs, m => memPuts (addr + 1) bs (memPut addr b m)

/-! ## The Unit Table (R4, R7, R20) -/

/-- The lookup from reference to record (R4, R7). -/
def State.unit? (s : State) (ref : Ref) : Option UnitRecord := s.units.find? fun u => u.decl.ref == ref

/-- Whether the table has a free slot (R4). -/
def State.tableFull (s : State) : Bool := decide (Config.maxUnits ≤ s.units.length)

/-- Enters a record; the list is kept in rising order of reference, which is invisible outside (R4). -/
def insertUnit (u : UnitRecord) : List UnitRecord → List UnitRecord
  | [] => [u]
  | v :: rest => if u.decl.ref < v.decl.ref then u :: v :: rest else v :: insertUnit u rest

/-- Takes a free slot for a record (R4). -/
def State.addUnit (u : UnitRecord) (s : State) : State := s.setUnits (insertUnit u s.units)

/-- Changes the record that holds a reference. -/
def State.modUnit (ref : Ref) (f : UnitRecord → UnitRecord) (s : State) : State :=
  s.setUnits (s.units.map fun u => if u.decl.ref == ref then f u else u)

/-- Retirement: the reference leaves the lookup and the check-in order list, and the slot is freed (R20). -/
def State.retire (ref : Ref) (s : State) : State :=
  (s.setUnits (s.units.filter fun u => u.decl.ref != ref)).setCheckIn (s.checkIn.filter fun r => r != ref)

/-- The weight STB uses for a committed unit: measured when the record holds one, declared otherwise (R46). -/
def UnitRecord.weightUsed (u : UnitRecord) : Nat :=
  match u.measured with
  | some m => m.weight
  | none => u.decl.weight

/-- The length of the unit a list entry names (0 where no record holds the reference, which no run reaches;
log entry 19). -/
def State.lengthOf (s : State) (ref : Ref) : Nat :=
  match s.unit? ref with
  | some u => u.decl.length
  | none => 0

/-- The status of the unit a list entry names. -/
def State.statusOf (s : State) (ref : Ref) : Option Status := (s.unit? ref).map (·.status)

/-! ## The profile shadow -/

/-- Stands for a VESSEL section where the shadow is empty (log entry 19). -/
def Vessel.blank : Vessel :=
  { gap := 0, listLimit := 0, trimLo := 0, trimHi := 0, heavyThreshold := 50, heelOn := 1, heelOff := 0,
    heelSpan := 1, samplePeriod := 100, agePeriod := 10, ageLimit := 1, baseLevel := 0 }

/-- Stands for a DECKS record where the shadow is empty (log entry 19). -/
def DeckFixed.blank : DeckFixed := { cap := 100, reserve := 0, warnOn := 100, warnOff := 100 }

/-- Stands for a LANES record where the shadow names no such lane (log entry 19). -/
def LaneFixed.blank : LaneFixed :=
  { deck := 0, ramp := .a, length := 100, dir := .fore, xInner := 0, y := 0, widthClass := 0, heightClass := 0,
    axleLimit := 1 }

/-- Stands for a RAMPS record where the shadow is empty (log entry 19). -/
def RampFixed.blank : RampFixed :=
  { budget := 50, intervalPeriod := 10, ratio := 0, depth := 1, callTimeout := 30, crossingGap := 10, plateZero := 0,
    plateScale := 1, tolerance := 0, gradLimit := 0, gradRise := 0, gradFall := 0, gateOn := 1, gateOff := 0 }

/-- Stands for a STATIONS entry where the shadow is empty. -/
def Station.blank : Station := { role := .none, level := 0, ceiling := 0, mask := 0 }

/-- Stands for the shadow while it is empty (log entry 19). -/
def Profile.blank : Profile :=
  { vessel := Vessel.blank, decks := [], lanes := [], ramps := ⟨RampFixed.blank, RampFixed.blank⟩, stations := [] }

/-- The profile every block reads: the shadow. -/
def State.profile (s : State) : Profile := s.pst.shadow.getD Profile.blank
/-- The VESSEL section. -/
def State.vessel (s : State) : Vessel := s.profile.vessel
/-- A deck's fixed part (R40). -/
def State.deckFixed (s : State) (d : Deck) : DeckFixed := s.profile.decks.getD d.val DeckFixed.blank
/-- A lane's fixed part (R23). -/
def State.laneFixed (s : State) (l : Lane) : LaneFixed := s.profile.lanes.getD l.val LaneFixed.blank
/-- A ramp's RAMPS record. -/
def State.rampFixed (s : State) (r : Ramp) : RampFixed := s.profile.ramps.get r
/-- The lane count. -/
def State.laneCount (s : State) : Nat := s.profile.lanes.length
/-- The lanes of the loaded profile, 0 to one less than the lane count. -/
def State.laneNumbers (s : State) : List Lane := (List.finRange 96).filter fun l => decide (l.val < s.laneCount)
/-- The four decks. -/
def allDecks : List Deck := [0, 1, 2, 3]
/-- The two ramps. -/
def allRamps : List Ramp := [.a, .b]

/-- The warning-off value as adjusted (R40). -/
def DeckFixed.offAdjusted (d : DeckFixed) : Nat := if d.warnOn < d.warnOff then d.warnOn else d.warnOff
/-- The gate hold off threshold as adjusted (R102). -/
def RampFixed.gateOffAdjusted (r : RampFixed) : Nat := if r.gateOn ≤ r.gateOff then r.gateOn - 1 else r.gateOff
/-- The heel hold off threshold as adjusted (R148). -/
def Vessel.heelOffAdjusted (v : Vessel) : Nat := if v.heelOn ≤ v.heelOff then v.heelOn - 1 else v.heelOff
/-- A unit is heavy when its declared weight is at or above the heavy threshold (R102). -/
def State.heavy (s : State) (u : UnitRecord) : Bool := decide (s.vessel.heavyThreshold ≤ u.decl.weight)

/-- Entry 0 of the hazard table, which nothing changes (R88). -/
def HazardEntry.zero : HazardEntry := { priority := false, seg := 0, decks := 0xF }

/-- The hazard entry used for a unit (R91). -/
def State.hazardEntry (s : State) (code : Option Nat) : HazardEntry :=
  match code with
  | none => HazardEntry.zero
  | some 0 => HazardEntry.zero
  | some (n + 1) => s.pst.hazards.getD n HazardEntry.default

/-- Whether a deck set holds a deck. -/
def inDecks (set : DeckSet) (d : Deck) : Bool := set.getLsbD d.val

end Sys2Proof.Machine
end

