-- ==== Sys2Proof/Machine/Flags.lean ====
section
/-!
DEFINITION. The Link Port's flags and queues as the other blocks use them: pending state-notice flags (R177), sticky
flags (R179), event notices (R176), responses (R171); and the conditions with hysteresis that set the flags: deck
warning (R43), gate hold (R121), heel hold (R148), comparator (R143 to R145).
-/

namespace Sys2Proof.Machine

open Sys2Proof

/-! ## Pending flags (R177) -/

/-- A subject's place in the order of R178. -/
def Subject.index : Subject → Fin 9
  | .deck d => ⟨d.val, by omega⟩
  | .heel => 4
  | .rampState .a => 5
  | .rampState .b => 6
  | .gateHold .a => 7
  | .gateHold .b => 8

/-- The nine subjects in the arbiter's order (R178). -/
def Subject.all : List Subject :=
  [.deck 0, .deck 1, .deck 2, .deck 3, .heel, .rampState .a, .rampState .b, .gateHold .a, .gateHold .b]

/-- Whether a subject is pending. -/
def State.isPending (s : State) (x : Subject) : Bool := s.link.flags[x.index]

/-- Sets a subject's pending flag; setting it again changes nothing (R177). -/
def State.setFlag (x : Subject) (s : State) : State :=
  s.modLink fun k => { k with flags := k.flags.set x.index true }

/-- Clears a subject's pending flag (R177). -/
def State.clearFlag (x : Subject) (s : State) : State :=
  s.modLink fun k => { k with flags := k.flags.set x.index false }

/-! ## Sticky flags (R179) -/

/-- The eight sticky flags. -/
inductive Sticky where
  | noticeLost
  | unexpected (r : Ramp)
  | restrictRose (r : Ramp)
  | restrictFell (r : Ramp)
  | heelHoldRose
deriving DecidableEq, Repr

/-- A flag's bit in the sticky flag byte (13.4). -/
def stickyBit : Sticky → Byte
  | .noticeLost => 0x01
  | .unexpected .a => 0x02
  | .unexpected .b => 0x04
  | .restrictRose .a => 0x08
  | .restrictRose .b => 0x10
  | .restrictFell .a => 0x20
  | .restrictFell .b => 0x40
  | .heelHoldRose => 0x80

/-- Whether a sticky flag is set. -/
def State.isSticky (s : State) (f : Sticky) : Bool := (s.link.sticky &&& stickyBit f) != 0

/-- Sets a sticky flag. -/
def State.setSticky (f : Sticky) (s : State) : State :=
  s.modLink fun k => { k with sticky := k.sticky ||| stickyBit f }

/-! ## Event notices and responses (R171, R176) -/

/-- Free slots of the event notice queue. -/
def State.freeNotices (s : State) : Nat := Config.noticeSlots - s.link.notices.length

/-- Queues an event notice, or drops it and sets NOTICE_LOST (R176). -/
def State.notify (n : Notice) (s : State) : State :=
  if s.link.notices.length < Config.noticeSlots then s.modLink fun k => { k with notices := k.notices ++ [n] }
  else s.setSticky .noticeLost

/-- Fills the slot reserved for a ticket (R171). -/
def State.fill (t : Ticket) (r : Reply) (s : State) : State :=
  s.modLink fun k => { k with reserved := k.reserved.erase t, filled := k.filled ++ [{ ticket := t, reply := r }] }

/-- Fills the slot with a refusal that carries nothing else (R175). -/
def State.refuse (t : Ticket) (r : Result) (s : State) : State := s.fill t (.refused r)

/-! ## Deck warning (R43) -/

/-- The warning state after a fill, by the table of R43. -/
def warningAfter (d : DeckFixed) (before : Bool) (fill : Nat) : Bool :=
  if before then !decide (fill < d.offAdjusted) else decide (d.warnOn ≤ fill)

/-- Sets a deck's warning state: the line follows it, and a change sets the pending flag (R43). -/
def State.setWarning (d : Deck) (w : Bool) (s : State) : State :=
  let s' := s.setDeck d { s.deck d with warning := w, lineLow := w }
  if (s.deck d).warning = w then s' else s'.setFlag (.deck d)

/-- Re-examines a deck's warning state from its fill (R43). -/
def State.examineWarning (d : Deck) (s : State) : State :=
  s.setWarning d (warningAfter (s.deckFixed d) (s.deck d).warning (s.deck d).fill)

/-! ## Gate hold (R121) -/

/-- A ramp's WAITING count: the entries of its two queues (R103). -/
def RampRun.waiting (x : RampRun) : Nat := x.prio.length + x.ord.length

/-- The gate hold after a WAITING count, by the table of R121. -/
def gateAfter (f : RampFixed) (before : Bool) (waiting : Nat) : Bool :=
  if before then !decide (waiting < f.gateOffAdjusted) else decide (f.gateOn ≤ waiting)

/-- Sets a ramp's gate hold: the line follows it, and a change sets the pending flag (R121). -/
def State.setGate (r : Ramp) (g : Bool) (s : State) : State :=
  let s' := s.setRamp r { s.ramp r with gateHold := g, lineHigh := g }
  if (s.ramp r).gateHold = g then s' else s'.setFlag (.gateHold r)

/-- Re-examines a ramp's gate hold (R121). -/
def State.examineGate (r : Ramp) (s : State) : State :=
  s.setGate r (gateAfter (s.rampFixed r) (s.ramp r).gateHold (s.ramp r).waiting)

/-- Sets a ramp's state; a change sets the RAMP_STATE pending flag (R105 to R107, R123). -/
def State.setRampState (r : Ramp) (x : RampState) (s : State) : State :=
  let s' := s.setRamp r { s.ramp r with state := x }
  if (s.ramp r).state = x then s' else s'.setFlag (.rampState r)

/-! ## Heel hold (R148) -/

/-- The heel hold after a heel, by the table of R148. -/
def heelHoldAfter (v : Vessel) (before : Bool) (heel : Int) : Bool :=
  if before then !decide (heel.natAbs ≤ v.heelOffAdjusted) else decide (v.heelOn ≤ heel.natAbs)

/-- Sets the heel hold: HEELHOLD follows it, a change sets the pending flag, a rise the sticky flag (R148). -/
def State.setHeelHold (h : Bool) (s : State) : State :=
  let s' := s.setHlm { s.hlm with hold := h, lineHigh := h }
  if s.hlm.hold = h then s'
  else if h then (s'.setFlag .heel).setSticky .heelHoldRose else s'.setFlag .heel

/-! ## Gradient comparator (R143 to R145) -/

/-- A comparator's state after a gradient: without hysteresis for the first sample (R144), with it after (R143). -/
def comparatorAfter (f : RampFixed) (before : ComparatorState) (g : Nat) : ComparatorState :=
  match before with
  | .unsampled => if f.gradLimit < g then .restricted else .clear
  | .clear => if f.gradLimit + f.gradRise < g then .restricted else .clear
  | .restricted => if g < f.gradLimit - f.gradFall then .clear else .restricted

/-- Takes a gradient reading: records it, applies R143 or R144, and sets the flags of R145. -/
def State.sampleGradient (r : Ramp) (g : Nat) (s : State) : State :=
  let before := (s.comp r).state
  let after := comparatorAfter (s.rampFixed r) before g
  let s' := s.setComp r { state := after, gradient := g }
  match before, after with
  | .unsampled, _ => s'.setFlag (.rampState r)
  | .clear, .restricted => (s'.setSticky (.restrictRose r)).setFlag (.rampState r)
  | .restricted, .clear => (s'.setSticky (.restrictFell r)).setFlag (.rampState r)
  | _, _ => s'

end Sys2Proof.Machine
end

