-- ==== Sys2Proof/Machine/Encode.lean ====
section
/-!
DEFINITION. The bytes of every frame the part sends: responses, event notices, state notices (R188; 13.1, 13.4).
-/

namespace Sys2Proof.Machine

open Sys2Proof

/-- A whole frame: start byte, LEN, STN, KIND, TAG, payload, CRC (13.1, R170). -/
def frameBytes (stn kind tag : Byte) (payload : List Byte) : List Byte :=
  let body := stn :: kind :: tag :: payload
  let checked := byte body.length :: body
  0xD4 :: checked ++ beBytes 2 (crc16 checked).toNat

/-- A deck set as a byte (R188). -/
def deckSetByte (d : DeckSet) : Byte := d.setWidth 8

/-- The bytes of an optional field that is present. -/
def optBytes (n : Nat) : Option Nat → List Byte
  | none => []
  | some v => beBytes n v

def laneByte (l : Lane) : Byte := byte l.val
def deckByte (d : Deck) : Byte := byte d.val
def rampByte (r : Ramp) : Byte := byte (rampCode r)

def siteBytes (x : Site) : List Byte := [laneByte x.lane, deckByte x.deck, rampByte x.ramp]

/-- The declared part (13.4): 12 bytes, then the optional fields its presence byte announces. -/
def declaredBytes (d : Declared) : List Byte :=
  beBytes 4 d.ref ++ [byte d.kind.code, byte d.length, byte d.widthClass, byte d.heightClass] ++ beBytes 2 d.weight ++
    [byte d.group, packBits [d.axles.isSome, d.maxAxle.isSome, d.hazard.isSome, d.service.isSome]] ++
    optBytes 1 d.axles ++ optBytes 2 d.maxAxle ++ optBytes 1 d.hazard ++ optBytes 1 d.service

/-- A LANES record, also the fixed part of a QUERY_LANE response (R189, 13.4): 13 bytes. -/
def laneFixedBytes (l : LaneFixed) : List Byte :=
  [deckByte l.deck, rampByte l.ramp] ++ beBytes 2 l.length ++ [byte l.dir.code] ++ beInt 2 l.xInner ++ beInt 2 l.y ++
    [byte l.widthClass, byte l.heightClass] ++ beBytes 2 l.axleLimit

/-- QUERY_UNIT's items (13.4). -/
def unitBytes (u : UnitRecord) : List Byte :=
  declaredBytes u.decl ++ [ind u.cls.priority, byte u.cls.seg, deckSetByte u.cls.decks] ++ beBytes 2 u.cls.axleEst ++
    [byte u.status.code, packBits [u.mismatch, u.weighFault, u.redirected], byte u.noShow, byte u.age, ind u.mark,
     packBits [u.lane.isSome, u.offset.isSome, u.measured.isSome, u.axleCount.isSome, u.gate.isSome]] ++
    optBytes 1 (u.lane.map (·.val)) ++ optBytes 2 u.offset ++ optBytes 2 (u.measured.map (·.weight)) ++
    optBytes 2 (u.measured.map (·.maxAxle)) ++ optBytes 1 u.axleCount ++ optBytes 1 u.gate

/-- QUERY_LANE's items (13.4). -/
def laneReportBytes (l : LaneReport) : List Byte :=
  laneFixedBytes l.fixed ++ [byte l.state.code] ++ beBytes 2 l.physicalEnd ++ beBytes 2 l.projectedEnd ++
    beBytes 2 l.free ++
    [byte l.occupants, byte l.reservations, byte l.obstructions.length, ind l.more, byte l.run.length] ++
    l.obstructions.flatMap (fun o => beBytes 2 o.start ++ beBytes 2 o.extent) ++
    l.run.flatMap fun e => beBytes 4 e.ref ++ [byte e.status.code] ++ beBytes 2 e.offset

/-- QUERY_QUEUE's items (13.4). -/
def queueReportBytes (q : QueueReport) : List Byte :=
  [byte q.state.code, byte q.ratio, byte q.depth] ++ beBytes 2 q.budget ++ [byte q.credit] ++ beBytes 2 q.remaining ++
    [ind q.gateHold] ++ beBytes 2 q.waiting ++ beBytes 2 q.length ++ [ind q.more, byte q.run.length] ++
    q.run.flatMap fun e =>
      beBytes 4 e.ref ++ [match e.lane with | some l => laneByte l | none => 0] ++ beBytes 2 e.weight ++
        [byte e.status.code, packBits [e.eligible, e.head, e.lane.isSome]]

/-- A ramp's share of QUERY_STATUS (13.4). -/
def rampReportBytes (r : RampReport) : List Byte :=
  [byte r.state.code, byte r.plate.code] ++ beBytes 2 r.remaining ++ [byte r.called] ++ beBytes 2 r.waiting ++
    [ind r.gateHold, byte r.gradient, byte r.comparator.code]

/-- QUERY_STATUS's items (13.4). -/
def statusReportBytes (x : StatusReport) : List Byte :=
  [byte x.session.code, byte x.startUp.code, byte x.failSection.code, ind x.hazardDefaults] ++
    beInt 4 x.ml ++ beInt 4 x.mt ++ beInt 4 x.bl ++ beInt 4 x.bt ++ x.load.toList.flatMap (beInt 2) ++
    [packBits x.warnings.toList] ++ rampReportBytes x.ramps.a ++ rampReportBytes x.ramps.b ++
    beInt 2 x.heel ++ [ind x.heelHold] ++ beBytes 2 x.units ++ [byte x.freeNotices, x.sticky]

/-- A response's result code (R175). -/
def Reply.result : Reply → Result
  | .refused r => r
  | .secureInFlight _ => .inFlight
  | .writeFailed _ => .writeFail
  | _ => .ok

/-- The items after the result code (13.4). -/
def Reply.items : Reply → List Byte
  | .refused _ => []
  | .secureInFlight n => beBytes 2 n
  | .writeFailed n => [byte n]
  | .done => []
  | .vesselOpened n => beBytes 2 n
  | .vesselSecured n => beBytes 2 n
  | .vesselReopened n => beBytes 2 n
  | .vesselReleased retired kept => beBytes 2 retired ++ beBytes 2 kept
  | .allocation status priority site =>
    [byte status.code, ind priority, ind site.isSome] ++ (match site with | some x => siteBytes x | none => [])
  | .placed ref lane deck offset ml mt =>
    beBytes 4 ref ++ [laneByte lane, deckByte deck] ++ beBytes 2 offset ++ beInt 4 ml ++ beInt 4 mt
  | .discharged ref lane deck physicalEnd ml mt =>
    beBytes 4 ref ++ [laneByte lane, deckByte deck] ++ beBytes 2 physicalEnd ++ beInt 4 ml ++ beInt 4 mt
  | .rampClosed state released => byte state.code :: beBytes 2 released
  | .rampSet ratio depth budget cr cd cb => [byte ratio, byte depth] ++ beBytes 2 budget ++ [packBits [cr, cd, cb]]
  | .skipped n => [byte n]
  | .laneClosed state released => [byte state.code, byte released]
  | .obstructionAdded withdrawn released => [ind withdrawn, byte released]
  | .obstructionCleared left => [byte left]
  | .ballastSet cl ct bl bt ml mt => packBits [cl, ct] :: (beInt 4 bl ++ beInt 4 bt ++ beInt 4 ml ++ beInt 4 mt)
  | .flagsCleared before => [before]
  | .profileWritten address count => beBytes 3 address ++ [byte count]
  | .profileReloaded session startUp failSection hazardDefaults =>
    [byte session.code, byte startUp.code, byte failSection.code, ind hazardDefaults]
  | .unitReport u => unitBytes u
  | .laneReport l => laneReportBytes l
  | .queueReport q => queueReportBytes q
  | .statusReport x => statusReportBytes x

/-- A response's KIND: the request's plus 0x80, and 0xFF for BAD_KIND (R188). -/
def Response.kind (x : Response) : Byte :=
  if x.reply.result = .badKind then 0xFF else x.ticket.kind + 0x80

/-- A response frame (R175, R188). -/
def Response.bytes (x : Response) : List Byte :=
  frameBytes x.ticket.stn x.kind x.ticket.tag (byte x.reply.result.code :: x.reply.items)

/-- An event notice's KIND (13.2). -/
def Notice.kind : Notice → Byte
  | .call .. => 0x60
  | .uncall .. => 0x61
  | .relocated .. => 0x62
  | .crossingResult .. => 0x63
  | .unexpectedCrossing .. => 0x64
  | .laneWithdrawn .. => 0x65

/-- An event notice's payload (13.4). -/
def Notice.payload : Notice → List Byte
  | .call ramp ref lane deck => rampByte ramp :: beBytes 4 ref ++ [laneByte lane, deckByte deck]
  | .uncall ramp ref reason lane =>
    rampByte ramp :: beBytes 4 ref ++ [byte reason.code, ind lane.isSome] ++ optBytes 1 (lane.map (·.val))
  | .relocated ref former status site =>
    beBytes 4 ref ++ [laneByte former, byte status.code, ind site.isSome] ++
      (match site with | some x => siteBytes x | none => [])
  | .crossingResult ramp ref outcome redirected reserved stands result =>
    rampByte ramp :: beBytes 4 ref ++
      [byte outcome.code, packBits [result.mismatch, result.weighFault, redirected, result.axlesDiffer],
       byte result.axleCount, packBits [reserved.isSome, stands.isSome, result.measured.isSome]] ++
      optBytes 1 (reserved.map (·.val)) ++
      (match stands with | some (l, d, o) => [laneByte l, deckByte d] ++ beBytes 2 o | none => []) ++
      (match result.measured with | some m => beBytes 2 m.weight ++ beBytes 2 m.maxAxle | none => [])
  | .unexpectedCrossing ramp axles faulted => [rampByte ramp, byte axles, ind faulted]
  | .laneWithdrawn lane deck => [laneByte lane, deckByte deck]

/-- A notice frame is addressed to all stations (31), with tag 0 (R176, 13.1). -/
def noticeFrame (kind : Byte) (payload : List Byte) : List Byte := frameBytes 31 kind 0 payload

/-- An event notice's frame. -/
def Notice.bytes (n : Notice) : List Byte := noticeFrame n.kind n.payload

/-- A state notice's KIND (13.2). -/
def Subject.kind : Subject → Byte
  | .deck _ => 0x70
  | .heel => 0x71
  | .rampState _ => 0x72
  | .gateHold _ => 0x73

/-- A state notice's items, as they stand (R177, 13.4). -/
def Subject.payload (s : State) : Subject → List Byte
  | .deck d => [deckByte d, ind (s.deck d).warning, byte (s.deck d).fill]
  | .heel => ind s.hlm.hold :: beInt 2 s.hlm.heel
  | .rampState r => [rampByte r, byte (s.ramp r).state.code, byte (s.comp r).state.code, byte (s.comp r).gradient]
  | .gateHold r => [rampByte r, ind (s.ramp r).gateHold] ++ beBytes 2 (s.ramp r).waiting

/-- A state notice's frame, with the items as they stand. -/
def Subject.bytes (s : State) (x : Subject) : List Byte := noticeFrame x.kind (x.payload s)

end Sys2Proof.Machine
end

