-- ==== Sys2Proof/Machine/Link.lean ====
section
/-!
DEFINITION. The Link Port: the receiver (R169, R170), the taking and checking of requests (R162, R171, R173, R174),
the transmitter and its arbiter (R178), and the commands of the link.
-/

namespace Sys2Proof.Machine

open Sys2Proof

/-! ## The transmitter (R178) -/

/-- The arbiter's choice for an idle transmitter: the oldest filled response, or the oldest event notice, or the first
pending subject, whose flag is cleared as its frame begins (R177, R178). A transmitter that is sending is left alone.
It is applied once at the end of every event (log entry 4). -/
def State.startTx (s : State) : State :=
  match s.link.tx with
  | .idle =>
    match s.link.filled with
    | r :: _ => s.modLink fun k => { k with tx := .response r.bytes }
    | [] =>
      match s.link.notices with
      | n :: _ => s.modLink fun k => { k with tx := .notice n.bytes }
      | [] =>
        match Subject.all.find? s.isPending with
        | some x => (s.clearFlag x).modLink fun k => { k with tx := .state x (x.bytes s) }
        | none => s
  | _ => s

/-- The end of an event that took place. -/
def finish (s : State) : Host.Outcome State Fault Refusal := .next s.startTx

/-- A command whose event cannot happen in the state at hand changes nothing (log entry 1). -/
def notNow (s : State) : Host.Outcome State Fault Refusal := .next s

/-- The last byte of the frame being sent leaves TXD: its slot is freed (R171, R176, R178). -/
def State.endTx (s : State) : State :=
  s.modLink fun k =>
    match k.tx with
    | .idle => k
    | .response _ => { k with tx := .idle, filled := k.filled.tail }
    | .notice _ => { k with tx := .idle, notices := k.notices.tail }
    | .state _ _ => { k with tx := .idle }

/-- FRAME_SENT (R178). -/
def execFrameSent (s : State) : Host.Outcome State Fault Refusal :=
  if s.link.tx = .idle then notNow s else finish s.endTx

/-! ## The receiver (R169, R170) -/

/-- The bytes after LEN, LEN + 2 of them: STN, KIND, TAG, payload, CRC. The frame they make, if the CRC checks. -/
def frameOf (len : Byte) (got : List Byte) : Option Frame :=
  let body := got.take len.toNat
  if (crc16 (len :: body)).toNat = beNat (got.drop len.toNat) then
    match body with
    | stn :: kind :: tag :: payload => some { stn := stn, kind := kind, tag := tag, payload := payload }
    | _ => none
  else none

/-- A byte examined while hunting: only 0xD4 starts a frame (R170). -/
def hunt (b : Byte) : Receiver := if b = 0xD4 then .awaitLen else .hunting

/-- The receiver takes one byte; the frame that it completes, if its CRC checks (R170). A LEN outside 3..199 discards
the frame, and the LEN byte itself is examined as a possible start byte. -/
def receive (rx : Receiver) (b : Byte) : Receiver × Option Frame :=
  match rx with
  | .hunting => (hunt b, none)
  | .awaitLen => if b.toNat < 3 ∨ 199 < b.toNat then (hunt b, none) else (.body b [], none)
  | .body len got =>
    if got.length + 1 < len.toNat + 2 then (.body len (got ++ [b]), none)
    else (.hunting, frameOf len (got ++ [b]))

/-- What is done with a complete frame, by the table of R170. -/
def State.acceptFrame (f : Frame) (s : State) : State :=
  if s.session = .loading then s
  else if f.stn.toNat = 0 ∨ 31 ≤ f.stn.toNat then s
  else if Config.rxFrames ≤ s.link.rxBuffer.length then s
  else s.modLink fun k => { k with rxBuffer := k.rxBuffer ++ [f] }

/-- One byte arrives on RXD. -/
def State.receiveByte (s : State) (b : Byte) : State :=
  let p := receive s.link.rx b
  let s' := s.modLink fun k => { k with rx := p.1 }
  match p.2 with
  | some f => s'.acceptFrame f
  | none => s'

/-- Bytes arrive on RXD, in order. -/
def State.receiveBytes (s : State) (bs : List Byte) : State := bs.foldl State.receiveByte s

/-- FRAME_COMPLETE (R170): the bytes arrive, and a frame they complete is discarded or joins the receive buffer. -/
def execFrameComplete (bytes : List Byte) (s : State) : Host.Outcome State Fault Refusal := .next (s.receiveBytes bytes)

/-- FRAME_DISCARDED (R170): the bytes arrive, and the frame they end is discarded for its LEN or its CRC. Which frames
are discarded is the receiver's doing, not the command's. -/
def execFrameDiscarded (bytes : List Byte) (s : State) : Host.Outcome State Fault Refusal := .next (s.receiveBytes bytes)

/-- FRAMING_ERROR (R169): the bytes arrive, then a character with its stop bit low, which is dropped; the frame being
assembled is abandoned, and the receiver returns to hunting. -/
def execFramingError (bytes : List Byte) (s : State) : Host.Outcome State Fault Refusal :=
  .next ((s.receiveBytes bytes).modLink fun k => { k with rx := .hunting })

/-! ## The request handler (R162, R171 to R174) -/

/-- The sessions that admit a request kind, by the table of R162. -/
def admits (x : Session) (k : RequestKind) : Bool :=
  match x with
  | .loading => false
  | .noProfile => k == .queryStatus || k == .profileWrite || k == .profileReload
  | .noVessel =>
    [RequestKind.queryStatus, .profileWrite, .profileReload, .vesselOpen, .book, .amend, .cancel, .queryUnit,
     .queryLane, .queryQueue, .clearFlags].contains k
  | .alongside =>
    [RequestKind.queryStatus, .vesselSecure, .book, .amend, .cancel, .queryUnit, .queryLane, .queryQueue, .clearFlags,
     .setRamp, .checkIn, .present, .holdUnit, .releaseHold, .skip, .place, .discharge, .laneClose, .laneOpen,
     .obstructionAdd, .obstructionClear, .rampOpen, .rampClose, .setBallast].contains k
  | .secured =>
    [RequestKind.queryStatus, .vesselReopen, .vesselRelease, .book, .amend, .cancel, .queryUnit, .queryLane,
     .queryQueue, .clearFlags, .setRamp].contains k

/-- The result that refuses a kind the session does not admit (R162). -/
def sessionRefusal (x : Session) : Result := if x = .noProfile then .noProfile else .wrongSession

/-- The station table's entry of a station; in NO_PROFILE station 1 is PLANNING and every other NONE (R173). -/
def State.station (s : State) (stn : Byte) : Station :=
  if s.session = .noProfile then
    (if stn.toNat = 1 then { Station.blank with role := .planning } else Station.blank)
  else s.profile.stations.getD (stn.toNat - 1) Station.blank

/-- The kinds permitted to a role (R173). -/
def rolePermits (x : Role) (k : RequestKind) : Bool :=
  match x with
  | .none => false
  | .planning => true
  | .gate => [RequestKind.checkIn, .present, .queryUnit, .queryStatus].contains k
  | .marshal =>
    [RequestKind.skip, .holdUnit, .releaseHold, .present, .obstructionAdd, .obstructionClear, .discharge, .queryUnit,
     .queryLane, .queryQueue, .queryStatus].contains k

/-- Check 3 of R171: the role permits the kind, and for a marshal the deck that the request names, if it names one, is
in the station's mask (R173, R174). -/
def State.permits (s : State) (stn : Byte) (k : RequestKind) (deck : Option Deck) : Bool :=
  rolePermits (s.station stn).role k &&
    (decide ((s.station stn).role ≠ .marshal) ||
      match deck with
      | some d => inDecks (s.station stn).mask d
      | none => true)

/-- The deck of the lane in a unit's record, when its lane field is present (R174). -/
def State.deckOfUnit (s : State) (ref : Ref) : Option Deck :=
  ((s.unit? ref).bind (·.lane)).map fun l => (s.laneFixed l).deck

/-- The request handler takes the frame at the front of the receive buffer when a response slot is free, and reserves
the slot (R171). In LOADING no frame is in the buffer and none is taken (R162). -/
def State.takeFrame (s : State) : Option (Frame × State) :=
  match s.link.rxBuffer with
  | f :: rest =>
    if s.session ≠ .loading ∧ s.link.reserved.length + s.link.filled.length < Config.responseSlots then
      some (f, s.modLink fun k =>
        { k with rxBuffer := rest, reserved := k.reserved ++ [{ stn := f.stn, kind := f.kind, tag := f.tag }] })
    else none
  | [] => none

/-- The ticket of a frame. -/
def Frame.ticket (f : Frame) : Ticket := { stn := f.stn, kind := f.kind, tag := f.tag }

/-- Checks 2, 3 and 4 of R171 on a frame of kind `k`: its fields, or the result that refuses it. `deckOf` gives the deck
a request names for the marshal deck mask, if it names one. -/
def examine {α : Type} (k : RequestKind) (parse : State → List Byte → Option α) (deckOf : State → α → Option Deck)
    (s : State) (f : Frame) : Except Result α :=
  match parse s f.payload with
  | none => .error .badField
  | some req =>
    if s.permits f.stn k (deckOf s req) then
      (if admits s.session k then .ok req else .error (sessionRefusal s.session))
    else .error .notPermitted

/-- A request of kind `k` is taken, checked, and handed to its owner (R171). When the handler takes no frame, or the
front frame is of another kind, the event does not happen. -/
def handle {α : Type} (k : RequestKind) (parse : State → List Byte → Option α) (deckOf : State → α → Option Deck)
    (owner : Ticket → α → State → State) (s : State) : Host.Outcome State Fault Refusal :=
  match s.takeFrame with
  | none => notNow s
  | some (f, s') =>
    if RequestKind.ofCode f.kind = some k then
      match examine k parse deckOf s' f with
      | .error r => finish (s'.refuse f.ticket r)
      | .ok req => finish (owner f.ticket req s')
    else notNow s

/-- A request that names no deck. -/
def noDeck {α : Type} (_ : State) (_ : α) : Option Deck := none

/-- BAD_KIND_REQUEST (R171): check 1 fails, and the response carries BAD_KIND. -/
def execBadKindRequest (s : State) : Host.Outcome State Fault Refusal :=
  match s.takeFrame with
  | none => notNow s
  | some (f, s') =>
    if RequestKind.ofCode f.kind = none then finish (s'.refuse f.ticket .badKind) else notNow s

end Sys2Proof.Machine
end

