-- ==== Sys2Proof/Machine/Operands.lean ====
section
/-!
DEFINITION. The payload of every request kind, read by the conventions of R188, and its field checks (R172; 13.4).
Each reader answers none where check 2 of R171 refuses the request BAD_FIELD.
-/

namespace Sys2Proof.Machine

open Sys2Proof

/-- A value in a range, both ends included. -/
def inRange (lo hi v : Nat) : Bool := decide (lo ≤ v) && decide (v ≤ hi)

/-- An optional value is absent or in its range. -/
def optInRange (lo hi : Nat) : Option Nat → Bool
  | none => true
  | some v => inRange lo hi v

/-- Bit `i` of a presence byte. -/
def bitOf (p : Nat) (i : Nat) : Bool := p.testBit i

/-- A lane number field. Check 2 refuses one at or beyond the lane count; in NO_PROFILE the check is not made, for the
request is refused at check 3 or 4 (R172). -/
def State.laneField (s : State) (n : Nat) : Option Lane :=
  if s.session = .noProfile then some (Fin.ofNat 96 n)
  else if h : n < 96 then (if n < s.laneCount then some ⟨n, h⟩ else none)
  else none

/-- An empty payload. -/
def readEmpty (_ : State) : List Byte → Option Unit
  | [] => some ⟨⟩
  | _ => none

/-- A payload of one reference. A reference that only names a unit has no range check (log entry 14). -/
def readRef (_ : State) (bs : List Byte) : Option Ref :=
  match getN 4 bs with
  | some (ref, []) => some ref
  | _ => none

/-- The ranges of the declared part (R1). -/
def Declared.inRanges (d : Declared) : Bool :=
  inRange 1 4294967294 d.ref && inRange 20 250 d.length && inRange 0 2 d.widthClass && inRange 0 3 d.heightClass &&
    inRange 5 600 d.weight && inRange 0 3 d.group && optInRange 1 12 d.axles && optInRange 1 400 d.maxAxle &&
    optInRange 1 63 d.hazard && optInRange 0 7 d.service

/-- The declared part: a fixed part of 12 bytes, then the optional fields its presence byte announces (13.4). -/
def readDeclared (bs : List Byte) : Option Declared := do
  let (ref, bs) ← getN 4 bs
  let (k, bs) ← getN 1 bs
  let kind ← ofCode UnitKind.names k
  let (length, bs) ← getN 1 bs
  let (widthClass, bs) ← getN 1 bs
  let (heightClass, bs) ← getN 1 bs
  let (weight, bs) ← getN 2 bs
  let (group, bs) ← getN 1 bs
  let (p, bs) ← getN 1 bs
  let (axles, bs) ← getOpt (bitOf p 0) 1 bs
  let (maxAxle, bs) ← getOpt (bitOf p 1) 2 bs
  let (hazard, bs) ← getOpt (bitOf p 2) 1 bs
  let (service, bs) ← getOpt (bitOf p 3) 1 bs
  let d : Declared := { ref, kind, length, widthClass, heightClass, weight, axles, maxAxle, hazard, service, group }
  if bs.isEmpty && decide (p < 16) && d.inRanges then some d else none

/-- BOOK. -/
def readBook (_ : State) (bs : List Byte) : Option Declared := readDeclared bs

/-- AMEND: the named reference, then the declared part. -/
def readAmend (_ : State) (bs : List Byte) : Option (Ref × Declared) := do
  let (ref, bs) ← getN 4 bs
  let d ← readDeclared bs
  some (ref, d)

/-- CHECK_IN: the reference, and a gate-observed length of 20..250 if the presence byte announces one (R11). -/
def readCheckIn (_ : State) (bs : List Byte) : Option (Ref × Option Nat) := do
  let (ref, bs) ← getN 4 bs
  let (p, bs) ← getN 1 bs
  let (length, bs) ← getOpt (bitOf p 0) 1 bs
  if bs.isEmpty && decide (p < 2) && optInRange 20 250 length then some (ref, length) else none

/-- What PLACE carries (R152). -/
structure PlaceRequest where
  ref         : Ref
  kind        : UnitKind
  length      : Nat
  widthClass  : Nat
  heightClass : Nat
  weight      : Nat
  group       : Nat
  lane        : Lane
  offset      : Nat
  hazard      : Option Nat
deriving DecidableEq, Repr

/-- The declared part of the record PLACE creates (R155). -/
def PlaceRequest.declared (q : PlaceRequest) : Declared :=
  { ref := q.ref, kind := q.kind, length := q.length, widthClass := q.widthClass, heightClass := q.heightClass,
    weight := q.weight, axles := none, maxAxle := none, hazard := q.hazard, service := none, group := q.group }

/-- PLACE (R152). -/
def readPlace (s : State) (bs : List Byte) : Option PlaceRequest := do
  let (ref, bs) ← getN 4 bs
  let (k, bs) ← getN 1 bs
  let kind ← ofCode UnitKind.names k
  let (length, bs) ← getN 1 bs
  let (widthClass, bs) ← getN 1 bs
  let (heightClass, bs) ← getN 1 bs
  let (weight, bs) ← getN 2 bs
  let (group, bs) ← getN 1 bs
  let (l, bs) ← getN 1 bs
  let lane ← s.laneField l
  let (offset, bs) ← getN 2 bs
  let (p, bs) ← getN 1 bs
  let (hazard, bs) ← getOpt (bitOf p 0) 1 bs
  let q : PlaceRequest :=
    { ref, kind, length, widthClass, heightClass, weight, group, lane, offset, hazard }
  if bs.isEmpty && decide (p < 2) && q.declared.inRanges && inRange 0 1999 offset then some q else none

/-- RAMP_OPEN and RAMP_CLOSE: a ramp. -/
def readRamp (_ : State) (bs : List Byte) : Option Ramp :=
  match getN 1 bs with
  | some (r, []) => ofCode rampNames r
  | _ => none

/-- What SET_RAMP carries; its values are clamped, not refused (R108, R172). -/
structure RampSettings where
  ramp   : Ramp
  ratio  : Nat
  depth  : Nat
  budget : Nat
deriving DecidableEq, Repr

/-- SET_RAMP. -/
def readSetRamp (_ : State) (bs : List Byte) : Option RampSettings := do
  let (r, bs) ← getN 1 bs
  let ramp ← ofCode rampNames r
  let (ratio, bs) ← getN 1 bs
  let (depth, bs) ← getN 1 bs
  let (budget, bs) ← getN 2 bs
  if bs.isEmpty then some { ramp, ratio, depth, budget } else none

/-- LANE_CLOSE and LANE_OPEN: a lane. -/
def readLane (s : State) (bs : List Byte) : Option Lane :=
  match getN 1 bs with
  | some (l, []) => s.laneField l
  | _ => none

/-- What OBSTRUCTION_ADD and OBSTRUCTION_CLEAR carry. -/
structure SpanRequest where
  lane   : Lane
  start  : Nat
  extent : Nat
deriving DecidableEq, Repr

/-- OBSTRUCTION_ADD and OBSTRUCTION_CLEAR: the start is below the lane's length and the extent is 1..length; neither is
checked in NO_PROFILE (R33, R36, R172). -/
def readSpan (s : State) (bs : List Byte) : Option SpanRequest := do
  let (l, bs) ← getN 1 bs
  let lane ← s.laneField l
  let (start, bs) ← getN 2 bs
  let (extent, bs) ← getN 2 bs
  let length := (s.laneFixed lane).length
  let fits := decide (start < length) && inRange 1 length extent
  if bs.isEmpty && (decide (s.session = .noProfile) || fits) then some { lane, start, extent } else none

/-- SET_BALLAST: two signed values, clamped and not refused (R50, R172). -/
def readBallast (_ : State) (bs : List Byte) : Option (Int × Int) := do
  let (l, bs) ← getInt 4 bs
  let (t, bs) ← getInt 4 bs
  if bs.isEmpty then some (l, t) else none

/-- CLEAR_FLAGS: a selection in the layout of the sticky flag byte. -/
def readSelection (_ : State) : List Byte → Option Byte
  | [b] => some b
  | _ => none

/-- What PROFILE_WRITE carries (R185). -/
structure ChunkRequest where
  target : SectionId
  offset : Nat
  bytes  : List Byte
deriving DecidableEq, Repr

/-- PROFILE_WRITE: a section id, a chunk offset and 1..128 bytes. -/
def readChunk (_ : State) (bs : List Byte) : Option ChunkRequest := do
  let (i, bs) ← getN 1 bs
  let target ← ofCode SectionId.names i
  let (offset, bs) ← getN 2 bs
  if inRange 1 128 bs.length then some { target, offset, bytes := bs } else none

/-- QUERY_LANE: a lane and a start index of 0..255. -/
def readLaneQuery (s : State) (bs : List Byte) : Option (Lane × Nat) := do
  let (l, bs) ← getN 1 bs
  let lane ← s.laneField l
  let (start, bs) ← getN 1 bs
  if bs.isEmpty then some (lane, start) else none

/-- What QUERY_QUEUE carries (R122). -/
structure QueueRequest where
  ramp  : Ramp
  named : ListName
  start : Nat
deriving DecidableEq, Repr

/-- QUERY_QUEUE: a ramp, a list and a start index of 0..511. -/
def readQueueQuery (_ : State) (bs : List Byte) : Option QueueRequest := do
  let (r, bs) ← getN 1 bs
  let ramp ← ofCode rampNames r
  let (n, bs) ← getN 1 bs
  let named ← ofCode ListName.names n
  let (start, bs) ← getN 2 bs
  if bs.isEmpty && inRange 0 511 start then some { ramp, named, start } else none

/-- The deck of the lane a request names (R174). -/
def deckOfLane (s : State) (l : Lane) : Option Deck := some (s.laneFixed l).deck

/-- The deck of the unit a request names (R174). -/
def deckOfRef (s : State) (ref : Ref) : Option Deck := s.deckOfUnit ref

end Sys2Proof.Machine
end

