-- ==== Sys2Proof/Machine/Geometry.lean ====
section
/-!
DEFINITION. Placement geometry (R27 to R29) and the stability arithmetic (chapter 3): levers, contributions, bands,
moment tests, weight window, axle conversion, axle estimate.
-/

namespace Sys2Proof.Machine

open Sys2Proof

/-! ## Feasible placement and projection (R27, R28) -/

/-- A span [o, o + length) meets an obstruction (R27). -/
def meets (o length : Nat) (x : Obstruction) : Bool := decide (o < x.start + x.extent) && decide (x.start < o + length)

/-- Step 2 of R27, repeated at most `fuel` times. The records stand in rising order of start, so the first one met is
the one with the lowest start. Each repetition passes one record for good. -/
def slide (obs : List Obstruction) (length : Nat) : Nat → Nat → Nat
  | 0, o => o
  | fuel + 1, o =>
    match obs.find? (meets o length) with
    | some x => slide obs length fuel (x.start + x.extent)
    | none => o

/-- The feasible placement of a unit from a start point: its offset (R27). -/
def feasible (obs : List Obstruction) (length start : Nat) : Nat := slide obs length obs.length start

/-- A reserved unit's projected offset and end (R28). -/
structure Projected where
  ref    : Ref
  offset : Nat
  stop   : Nat
deriving DecidableEq, Repr

/-- The projection of reserved units, each with its length, from a start point (R28). -/
def projectFrom (obs : List Obstruction) (gap : Nat) : Nat → List (Ref × Nat) → List Projected
  | _, [] => []
  | start, (ref, length) :: rest =>
    let o := feasible obs length start
    { ref := ref, offset := o, stop := o + length } :: projectFrom obs gap (o + length + gap) rest

/-- The end of a lane's outermost occupant, 0 in a lane without one (R28). -/
def State.physicalEnd (s : State) (l : Lane) : Nat :=
  match (s.lane l).occupants.getLast? with
  | some o => o.offset + s.lengthOf o.ref
  | none => 0

/-- Where the first unit beyond the occupants may start: the physical end plus the vessel gap, or 0 (R28). -/
def State.startPoint (s : State) (l : Lane) : Nat :=
  if (s.lane l).occupants.isEmpty then 0 else s.physicalEnd l + s.vessel.gap

/-- The projection of given units in a lane. -/
def State.projectUnits (s : State) (l : Lane) (refs : List Ref) : List Projected :=
  projectFrom (s.lane l).obstructions s.vessel.gap (s.startPoint l) (refs.map fun r => (r, s.lengthOf r))

/-- The projection of a lane: its reserved units in list order (R28). -/
def State.projection (s : State) (l : Lane) : List Projected := s.projectUnits l (s.lane l).reservations

/-- Every placed unit ends within the lane (R27). -/
def State.allFit (s : State) (l : Lane) (ps : List Projected) : Bool :=
  ps.all fun p => decide (p.stop ≤ (s.laneFixed l).length)

/-- The projected end: the end of the last unit placed, or the physical end (R28). -/
def State.projectedEnd (s : State) (l : Lane) : Nat :=
  match (s.projection l).getLast? with
  | some p => p.stop
  | none => s.physicalEnd l

/-- A lane's free length (R28). -/
def State.freeLength (s : State) (l : Lane) : Nat := (s.laneFixed l).length - s.projectedEnd l

/-- The projection with a candidate: the candidate's end, when every reserved unit and it fit (R28, R69). -/
def State.candidateEnd (s : State) (l : Lane) (length : Nat) : Option Nat :=
  let start := if (s.lane l).reservations.isEmpty then s.startPoint l else s.projectedEnd l + s.vessel.gap
  let stop := feasible (s.lane l).obstructions length start + length
  if s.allFit l (s.projection l) && decide (stop ≤ (s.laneFixed l).length) then some stop else none

/-- The commit offset of a unit of a given length (R29). -/
def State.commitOffset (s : State) (l : Lane) (length : Nat) : Nat :=
  feasible (s.lane l).obstructions length (s.startPoint l)

/-! ## Levers and weights (R45, R46) -/

/-- +1 for FORE, -1 for AFT. -/
def Direction.sign : Direction → Int
  | .fore => 1
  | .aft => -1

/-- x_mid (R45). -/
def LaneFixed.xMid (l : LaneFixed) : Int := l.xInner + l.dir.sign * (l.length / 2 : Nat)

/-- x_unit (R45). -/
def LaneFixed.xUnit (l : LaneFixed) (offset length : Nat) : Int := l.xInner + l.dir.sign * (offset + length / 2 : Nat)

/-! ## Accumulators (R47 to R51) -/

/-- Changes a deck's load. -/
def Stability.addLoad (x : Stability) (d : Deck) (w : Int) : Stability := { x with load := x.load.set d (x.load[d] + w) }

/-- A reservation made: the provisional contribution and the deck load (R41, R49). -/
def State.addProvisional (l : Lane) (weight : Nat) (s : State) : State :=
  let f := s.laneFixed l
  s.setStb ({ s.stb with mlP := s.stb.mlP + weight * f.y, mtP := s.stb.mtP + weight * f.xMid }.addLoad f.deck weight)

/-- A reservation ended: the same figures are subtracted (R41, R49). -/
def State.subProvisional (l : Lane) (weight : Nat) (s : State) : State :=
  let f := s.laneFixed l
  s.setStb ({ s.stb with mlP := s.stb.mlP - weight * f.y, mtP := s.stb.mtP - weight * f.xMid }.addLoad f.deck (-weight))

/-- A unit becomes ABOARD: the committed contribution at its offset and the deck load (R41, R49). -/
def State.addCommitted (l : Lane) (weight offset length : Nat) (s : State) : State :=
  let f := s.laneFixed l
  s.setStb ({ s.stb with mlC := s.stb.mlC + weight * f.y, mtC := s.stb.mtC + weight * f.xUnit offset length }.addLoad
    f.deck weight)

/-- A unit stops being ABOARD (R41, R49). -/
def State.subCommitted (l : Lane) (weight offset length : Nat) (s : State) : State :=
  let f := s.laneFixed l
  s.setStb ({ s.stb with mlC := s.stb.mlC - weight * f.y, mtC := s.stb.mtC - weight * f.xUnit offset length }.addLoad
    f.deck (-weight))

/-- The projected total ML (R51). -/
def Stability.ml (x : Stability) : Int := x.mlC + x.mlP + x.bl
/-- The projected total MT (R51). -/
def Stability.mt (x : Stability) : Int := x.mtC + x.mtP + x.bt

/-! ## Bands and moment tests (R54 to R56) -/

/-- The trim distance (R54). -/
def trimDistance (v : Vessel) (mt : Int) : Int :=
  if mt < v.trimLo then v.trimLo - mt else if v.trimHi < mt then mt - v.trimHi else 0

/-- The list half of the placement moment test, strict (R55). -/
def listImproves (v : Vessel) (before after : Int) : Bool :=
  decide (after.natAbs ≤ v.listLimit) || decide (after.natAbs < before.natAbs)

/-- The trim half of the placement moment test, strict (R55). -/
def trimImproves (v : Vessel) (before after : Int) : Bool :=
  decide (trimDistance v after = 0) || decide (trimDistance v after < trimDistance v before)

/-- The commit moment test: both halves, not strict (R56). -/
def commitMoment (v : Vessel) (mlBefore mtBefore mlAfter mtAfter : Int) : Bool :=
  (decide (mlAfter.natAbs ≤ v.listLimit) || decide (mlAfter.natAbs ≤ mlBefore.natAbs)) &&
    (decide (trimDistance v mtAfter = 0) || decide (trimDistance v mtAfter ≤ trimDistance v mtBefore))

/-! ## Weighing arithmetic (R57 to R60) -/

/-- The weight window (R57): a measured weight lies inside it. -/
def inWindow (declared tolerance measured : Nat) : Bool :=
  decide (declared * (100 - tolerance) / 100 ≤ measured) && decide (measured ≤ declared * (100 + tolerance) / 100)

/-- A plate code as an axle load (R58). -/
def axleLoad (f : RampFixed) (code : Nat) : Nat :=
  if code ≤ f.plateZero then 0 else (code - f.plateZero) * f.plateScale / 1024

/-- The axle estimate of a declared part (R60). -/
def Declared.axleEstimate (d : Declared) : Nat :=
  match d.maxAxle, d.axles with
  | some m, _ => m
  | none, some n => (d.weight + n - 1) / n
  | none, none => (d.weight + 1) / 2

end Sys2Proof.Machine
end

