-- ==== Sys2Proof/Machine/Release.lean ====
section
/-!
DEFINITION. What several meanings share about reservations, queues and called lists: joining and leaving a call queue
(R103), the called list and its call timer (R104, R114), the release of a reservation in the order of R10, hand-over
for reallocation (R80), the retry walk's trigger (R77), deck fill (R42), responses about a unit.
-/

namespace Sys2Proof.Machine

open Sys2Proof

/-! ## The service input (R61, R77, R80) -/

/-- Appends an item to the service input (R61). -/
def State.handItem (x : Item) (s : State) : State := s.setAlc { s.alc with service := s.alc.service ++ [x] }

/-- A trigger of R76: appends a retry walk item unless one already waits (R77). -/
def State.triggerWalk (s : State) : State := if s.alc.service.contains .walk then s else s.handItem .walk

/-- Hands a released unit to the Allocator for reallocation: UNPLACED, no lane, marked, with the lane it was released
from (R80). -/
def State.handOver (ref : Ref) (former : Lane) (s : State) : State :=
  (s.modUnit ref fun u => { u with status := .unplaced, lane := none, mark := true }).handItem
    (.placement ref (.reallocation former))

/-- An entry leaves the unplaced list, and with it the walk in progress (R75, R79). -/
def State.leaveUnplaced (ref : Ref) (s : State) : State :=
  s.setAlc { s.alc with unplaced := s.alc.unplaced.erase ref, walk := s.alc.walk.erase ref }

/-- An entry joins the end of the unplaced list (R75). -/
def State.joinUnplaced (ref : Ref) (s : State) : State :=
  s.setAlc { s.alc with unplaced := s.alc.unplaced ++ [ref] }

/-! ## Call queues (R103) -/

/-- A unit joins its call queue, at the back or the front; the WAITING count rises and the gate hold is re-examined. -/
def State.joinQueue (r : Ramp) (priority back : Bool) (ref : Ref) (s : State) : State :=
  let x := s.ramp r
  let add (q : List Ref) : List Ref := if back then q ++ [ref] else ref :: q
  (s.setRamp r (if priority then { x with prio := add x.prio } else { x with ord := add x.ord })).examineGate r

/-- A unit leaves its call queue, if it stands in one; the gate hold is re-examined. -/
def State.leaveQueue (r : Ramp) (ref : Ref) (s : State) : State :=
  let x := s.ramp r
  if x.prio.contains ref || x.ord.contains ref then
    (s.setRamp r { x with prio := x.prio.erase ref, ord := x.ord.erase ref }).examineGate r
  else s

/-! ## The called list and the call timer (R104, R114) -/

/-- Starts a ramp's call timer with the full call timeout when the head is CALLED and the plate is IDLE, and stops it
otherwise: what R114 gives after a change of head. -/
def State.timeHead (r : Ramp) (s : State) : State :=
  let x := s.ramp r
  let headCalled :=
    match x.called.head? with
    | some ref => decide (s.statusOf ref = some .called)
    | none => false
  s.setRamp r
    { x with
      callTimer := if headCalled && decide ((s.plate r).state = .idle) then some ((s.rampFixed r).callTimeout * 1000)
        else none }

/-- A unit leaves a called list; a change of head is treated as R114 gives, one behind the head leaves the timer. -/
def State.leaveCalled (r : Ramp) (ref : Ref) (s : State) : State :=
  let x := s.ramp r
  let s' := s.setRamp r { x with called := x.called.erase ref }
  if x.called.head? = some ref then s'.timeHead r else s'

/-! ## Release of a reservation (R10, R38) -/

/-- A unit leaves a lane's reservation list; a CLOSING lane whose list is then empty enters CLOSED (R26, R38). -/
def State.leaveLane (l : Lane) (ref : Ref) (s : State) : State :=
  let x := s.lane l
  let rest := x.reservations.erase ref
  s.setLane l
    { x with
      reservations := rest
      state := if x.state = .closing ∧ rest.isEmpty then .closed else x.state }

/-- Releases a unit's reservation in the order of R10: the Lane Map, the Stability Unit, the call queue with its gate
hold; and the lane field becomes absent. A unit without a lane field holds no reservation. -/
def State.release (ref : Ref) (s : State) : State :=
  match s.unit? ref with
  | none => s
  | some u =>
    match u.lane with
    | none => s
    | some l =>
      (((s.leaveLane l ref).subProvisional l u.decl.weight).leaveQueue (s.laneFixed l).ramp ref).modUnit ref
        fun u => { u with lane := none }

/-- Sets a unit's status. -/
def State.setStatus (ref : Ref) (x : Status) (s : State) : State := s.modUnit ref fun u => { u with status := x }

/-- Releases each of several units in the order given and hands each over afterwards in the same order: one burst from
lane `former` (R80). -/
def State.reallocateAll (refs : List Ref) (former : Lane) (s : State) : State :=
  refs.foldl (fun s ref => s.handOver ref former) (refs.foldl (fun s ref => s.release ref) s)

/-! ## Uncalling (R117, R120) -/

/-- Queues an UNCALL notice (R120). -/
def State.uncallNotice (r : Ramp) (reason : UncallReason) (lane : Option Lane) (ref : Ref) (s : State) : State :=
  s.notify (.uncall r ref reason lane)

/-- The followers of a CALLED unit (R117): later in the same ramp's called list, reserved in the same lane, CALLED. -/
def State.followers (s : State) (r : Ramp) (ref : Ref) (l : Lane) : List Ref :=
  (((s.ramp r).called.dropWhile (· != ref)).drop 1).filter fun f =>
    match s.unit? f with
    | some u => decide (u.lane = some l) && decide (u.status = .called)
    | none => false

/-- A CALLED unit returns to WAITING with age 0: it leaves the called list and joins its call queue (R115, R117,
R118). -/
def State.returnToWaiting (r : Ramp) (back : Bool) (ref : Ref) (s : State) : State :=
  let priority := match s.unit? ref with | some u => u.cls.priority | none => false
  ((s.leaveCalled r ref).modUnit ref fun u => { u with status := .waiting, age := 0 }).joinQueue r priority back ref

/-- The return of a CALLED unit `ref` of lane `l` to WAITING, with its followers, at one event (R115, R117, R118): the
unit joins the back or the front of its queue and the followers the front, in called-list order; their UNCALL notices
are queued in that order; and in a CLOSING lane all of them are released and reallocated in reservation-list order
(R38), so that their notices carry no lane (R120). Answers the number of followers. -/
def State.uncallToWaiting (r : Ramp) (l : Lane) (back : Bool) (reason : UncallReason) (ref : Ref) (s : State) :
    State × Nat :=
  let fs := s.followers r ref l
  let closing := decide ((s.lane l).state = .closing)
  let carried := if closing then none else some l
  let s1 := (fs.reverse.foldl (fun s f => s.returnToWaiting r false f) s).returnToWaiting r back ref
  let s2 := fs.foldl (fun s f => s.uncallNotice r .follower carried f) (s1.uncallNotice r reason carried ref)
  let all := (s2.lane l).reservations.filter fun x => x == ref || fs.contains x
  (if closing then s2.reallocateAll all l else s2, fs.length)

/-! ## Deck fill (R42) -/

/-- A deck's fill: 100 times the sum of its occupants' lengths over the sum of its lanes' lengths, truncated; 0 for a
deck with no lanes. -/
def State.fillOf (s : State) (d : Deck) : Nat :=
  let ls := s.laneNumbers.filter fun l => decide ((s.laneFixed l).deck = d)
  let total := (ls.map fun l => (s.laneFixed l).length).sum
  let used := (ls.map fun l => ((s.lane l).occupants.map fun o => s.lengthOf o.ref).sum).sum
  if total = 0 then 0 else 100 * used / total

/-- Recomputes a deck's fill and re-examines its warning state (R42, R43). -/
def State.refill (d : Deck) (s : State) : State :=
  (s.setDeck d { s.deck d with fill := s.fillOf d }).examineWarning d

/-! ## Answers about a unit -/

/-- The site a lane stands for (R12). -/
def State.site (s : State) (l : Lane) : Site := { lane := l, deck := (s.laneFixed l).deck, ramp := (s.laneFixed l).ramp }

/-- The items of a CHECK_IN response, from the record as it stands (R12, R13). -/
def State.allocationReply (s : State) (ref : Ref) : Reply :=
  match s.unit? ref with
  | some u => .allocation u.status u.cls.priority (u.lane.map s.site)
  | none => .refused .unknownUnit

/-- A request that names a unit: looked up first, refused UNKNOWN_UNIT; and, for the kinds R6 names, refused BUSY while
the record carries the allocating mark (R6, R7). -/
def State.withUnit (busyIfMarked : Bool) (t : Ticket) (ref : Ref) (s : State) (go : UnitRecord → State) : State :=
  match s.unit? ref with
  | none => s.refuse t .unknownUnit
  | some u => if busyIfMarked && u.mark then s.refuse t .busy else go u

end Sys2Proof.Machine
end

