-- ==== Sys2Proof/Machine/Placement.lean ====
section
/-!
DEFINITION. The Allocator (chapter 4): the ten admissibility tests (R65 to R71), the choice (R72), the reservation and
the failure (R73, R74), reallocation (R81, R82), the retry walk (R78), the redirect search (R84 to R86).
-/

namespace Sys2Proof.Machine

open Sys2Proof

/-! ## The ten tests (R65 to R71) -/

/-- Test 1 (R66): the lane is OPEN, its ramp is OPEN, its deck is permitted. -/
def State.test1 (s : State) (u : UnitRecord) (l : Lane) : Bool :=
  decide ((s.lane l).state = .opened) && decide ((s.ramp (s.laneFixed l).ramp).state = .opened) &&
    inDecks u.cls.decks (s.laneFixed l).deck

/-- Test 2 (R67): width and height classes. -/
def State.test2 (s : State) (u : UnitRecord) (l : Lane) : Bool :=
  decide (u.decl.widthClass ≤ (s.laneFixed l).widthClass) && decide (u.decl.heightClass ≤ (s.laneFixed l).heightClass)

/-- Test 3 (R67, R84): the axle figure against the axle limit. -/
def State.test3 (s : State) (axle : Nat) (l : Lane) : Bool := decide (axle ≤ (s.laneFixed l).axleLimit)

/-- A lane's last unit: the last reservation, or else the outermost occupant (R68). In a lane whose reservation list
is empty, as every candidate of a redirect search has, it is the outermost occupant (R84). -/
def State.lastUnit (s : State) (l : Lane) : Option UnitRecord :=
  match (s.lane l).reservations.getLast? with
  | some ref => s.unit? ref
  | none => (s.lane l).occupants.getLast?.bind fun o => s.unit? o.ref

/-- Test 4 (R68): discharge order against the last unit. -/
def State.test4 (s : State) (u : UnitRecord) (l : Lane) : Bool :=
  match s.lastUnit l with
  | some v => decide (u.decl.group ≤ v.decl.group)
  | none => true

/-- Test 5 (R68): segregation against the last unit. -/
def State.test5 (s : State) (u : UnitRecord) (l : Lane) : Bool :=
  match s.lastUnit l with
  | some v => decide (u.cls.seg = 0) || decide (v.cls.seg = 0) || decide (v.cls.seg = u.cls.seg)
  | none => true

/-- Test 7 (R69): the deck load with the weight added, against the cap. -/
def State.test7 (s : State) (weight : Nat) (l : Lane) : Bool :=
  let d := (s.laneFixed l).deck
  decide (s.stb.load[d] + weight ≤ (s.deckFixed d).cap)

/-- The deck's free length after placement: the sum over its OPEN lanes, with `free` for the lane under test (R70). -/
def State.deckFree (s : State) (l : Lane) (free : Nat) : Nat :=
  let d := (s.laneFixed l).deck
  let ls := s.laneNumbers.filter fun k =>
    decide ((s.laneFixed k).deck = d) && decide ((s.lane k).state = .opened)
  (ls.map fun k => if k = l then free else s.freeLength k).sum

/-- Test 8 (R70): the unit is priority, or the deck keeps its priority reserve. -/
def State.test8 (s : State) (u : UnitRecord) (l : Lane) (free : Nat) : Bool :=
  u.cls.priority || decide ((s.deckFixed (s.laneFixed l).deck).reserve ≤ s.deckFree l free)

/-! ## Scoring (R72) -/

/-- The first three keys of R72. -/
structure Score where
  absMl : Nat
  dMt   : Int
  free  : Nat
deriving DecidableEq, Repr

/-- One score is strictly preferred to another (R72, keys 1 to 3). -/
def Score.better (x y : Score) : Bool :=
  decide (x.absMl < y.absMl) ||
    (decide (x.absMl = y.absMl) &&
      (decide (x.dMt < y.dMt) || (decide (x.dMt = y.dMt) && decide (x.free < y.free))))

/-- Tests 9 and 10 on a contribution (R55, R71), and the score that STB's figures give. -/
def State.moments (s : State) (dMl dMt : Int) (free : Nat) : Option Score :=
  let ml := s.stb.ml
  let mt := s.stb.mt
  if listImproves s.vessel ml (ml + dMl) && trimImproves s.vessel mt (mt + dMt) then
    some { absMl := (ml + dMl).natAbs, dMt := trimDistance s.vessel (mt + dMt), free := free }
  else none

/-- The ten tests of a placement of a unit on a lane (R65): the lane's score when it is admissible. -/
def State.admissible (s : State) (u : UnitRecord) (l : Lane) : Option Score :=
  if s.test1 u l && s.test2 u l && s.test3 u.cls.axleEst l && s.test4 u l && s.test5 u l then
    match s.candidateEnd l u.decl.length with
    | none => none
    | some stop =>
      let free := (s.laneFixed l).length - stop
      if s.test7 u.decl.weight l && s.test8 u l free then
        s.moments (u.decl.weight * (s.laneFixed l).y) (u.decl.weight * (s.laneFixed l).xMid) free
      else none
  else none

/-- The ten tests with the changes of R84, for a lane whose reservation list is empty. -/
def State.redirectAdmissible (s : State) (u : UnitRecord) (x : Redirect) (l : Lane) : Option Score :=
  if s.test1 u l && s.test2 u l && s.test3 x.axleFigure l && s.test4 u l && s.test5 u l then
    let offset := s.commitOffset l u.decl.length
    let stop := offset + u.decl.length
    let free := (s.laneFixed l).length - stop
    if decide (stop ≤ (s.laneFixed l).length) && s.test7 x.weightUsed l && s.test8 u l free then
      s.moments (x.weightUsed * (s.laneFixed l).y) (x.weightUsed * (s.laneFixed l).xUnit offset u.decl.length) free
    else none
  else none

/-- The better of two scored lanes, the earlier one where the scores are equal (R72, key 4: lanes come in rising
order). -/
def keepBetter (best : Option (Lane × Score)) (x : Lane × Score) : Option (Lane × Score) :=
  match best with
  | none => some x
  | some b => if x.2.better b.2 then some x else some b

/-- The choice among scored lanes in rising order (R72). -/
def chooseLane (scored : List (Lane × Score)) : Option Lane := (scored.foldl keepBetter none).map (·.1)

/-- The lane a placement chooses; `former` is no candidate of a reallocation (R63, R72, R81). -/
def State.placementLane (s : State) (u : UnitRecord) (former : Option Lane) : Option Lane :=
  chooseLane ((s.laneNumbers.filter fun l => decide (some l ≠ former)).filterMap fun l =>
    (s.admissible u l).map fun x => (l, x))

/-- The lane a redirect search chooses among the crossed ramp's lanes with empty reservation lists (R84). -/
def State.redirectLane (s : State) (u : UnitRecord) (x : Redirect) : Option Lane :=
  chooseLane ((s.laneNumbers.filter fun l =>
      decide ((s.laneFixed l).ramp = x.ramp) && (s.lane l).reservations.isEmpty).filterMap fun l =>
    (s.redirectAdmissible u x l).map fun y => (l, y))

/-! ## Reservation and failure (R73, R74) -/

/-- Makes the reservation, in the order of R73. -/
def State.reserve (u : UnitRecord) (l : Lane) (s : State) : State :=
  let ref := u.decl.ref
  let s1 := s.setLane l { s.lane l with reservations := (s.lane l).reservations ++ [ref] }
  let s2 := (s1.addProvisional l u.decl.weight).joinQueue (s.laneFixed l).ramp u.cls.priority true ref
  s2.modUnit ref fun u => { u with status := .waiting, lane := some l, age := 0, mark := false }

/-- Records the failure (R74). -/
def State.failPlacement (ref : Ref) (s : State) : State :=
  (s.modUnit ref fun u => { u with status := .unplaced, lane := none, mark := false }).joinUnplaced ref

/-- Serves a placement: the reservation, or the failure (R63). -/
def State.servePlacement (u : UnitRecord) (former : Option Lane) (s : State) : State :=
  match s.placementLane u former with
  | some l => s.reserve u l
  | none => s.failPlacement u.decl.ref

/-- Tells the outcome of a served placement: the response to the request, or the RELOCATED notice (R12, R82). -/
def State.tellPlacement (ref : Ref) (cause : Cause) (s : State) : State :=
  match cause with
  | .checkIn t => s.fill t (s.allocationReply ref)
  | .present t => s.fill t (s.allocationReply ref)
  | .releaseHold t => s.fill t (s.allocationReply ref)
  | .reallocation former =>
    match s.unit? ref with
    | some u => s.notify (.relocated ref former u.status (u.lane.map s.site))
    | none => s

/-- The lane that a cause excludes (R81). -/
def Cause.former : Cause → Option Lane
  | .reallocation l => some l
  | _ => none

/-! ## Commits (R85, R136, R140) -/

/-- Writes a crossing's result to the record (R140). -/
def State.writeCrossing (ref : Ref) (x : CrossingResult) (redirected : Bool) (s : State) : State :=
  s.modUnit ref fun u =>
    { u with
      measured := x.measured, axleCount := some x.axleCount, mismatch := x.mismatch, weighFault := x.weighFault,
      redirected := redirected }

/-- A unit joins the end of a lane's occupant list (R25, R29). -/
def State.joinOccupants (l : Lane) (ref : Ref) (offset : Nat) (s : State) : State :=
  s.setLane l { s.lane l with occupants := (s.lane l).occupants ++ [{ ref := ref, offset := offset }] }

/-- The unit becomes ABOARD in a lane at its commit offset: the occupant list, the committed sums and the deck load,
the record, then the deck's fill and warning (R85, R136). -/
def State.board (u : UnitRecord) (l : Lane) (offset weightUsed : Nat) (x : CrossingResult) (redirected : Bool)
    (s : State) : State :=
  let ref := u.decl.ref
  let s1 := (s.joinOccupants l ref offset).addCommitted l weightUsed offset u.decl.length
  let s2 := s1.modUnit ref fun u => { u with status := .aboard, lane := some l, offset := some offset }
  (s2.writeCrossing ref x redirected).refill (s.laneFixed l).deck

/-! ## The commands of the Allocator -/

/-- PLACEMENT_SERVED (R63): the Allocator serves the placement item at the front of its service input. It takes no item
while a walk is in progress (R61). -/
def execPlacementServed (s : State) : Host.Outcome State Fault Refusal :=
  if s.alc.walk = [] then
    match s.alc.service with
    | .placement ref cause :: rest =>
      let s1 := s.setAlc { s.alc with service := rest }
      match s1.unit? ref with
      | some u => finish ((s1.servePlacement u cause.former).tellPlacement ref cause)
      | none => finish (s1.tellPlacement ref cause)
    | _ => notNow s
  else notNow s

/-- RETRY_WALK (R78): the walk item at the front of the service input begins, and the walk's extent is the unplaced
list as it stands. A walk with an empty extent ends at once. -/
def execRetryWalk (s : State) : Host.Outcome State Fault Refusal :=
  if s.alc.walk = [] then
    match s.alc.service with
    | .walk :: rest => finish (s.setAlc { s.alc with service := rest, walk := s.alc.unplaced })
    | _ => notNow s
  else notNow s

/-- A visit of a unit that stands on the unplaced list: it finds a lane and leaves the list, or nothing about it
changes (R78). -/
def State.visit (u : UnitRecord) (s : State) : State :=
  match s.placementLane u none with
  | some l => (s.leaveUnplaced u.decl.ref).reserve u l
  | none => s

/-- WALK_VISIT (R78): the next unit of the extent is served as a placement, without a response or notice. -/
def execWalkVisit (s : State) : Host.Outcome State Fault Refusal :=
  match s.alc.walk with
  | [] => notNow s
  | ref :: rest =>
    let s1 := s.setAlc { s.alc with walk := rest }
    match s1.unit? ref with
    | some u => finish (s1.visit u)
    | none => finish s1

/-- Serves a redirect search: the commit of R85 or the hold of R86, and the CROSSING_RESULT notice (R139). -/
def State.serveRedirect (u : UnitRecord) (x : Redirect) (s : State) : State :=
  match s.redirectLane u x with
  | some l =>
    let offset := s.commitOffset l u.decl.length
    (s.board u l offset x.weightUsed x.result true).notify
      (.crossingResult x.ramp x.ref .redirected true x.reserved (some (l, (s.laneFixed l).deck, offset)) x.result)
  | none =>
    ((s.setStatus x.ref .held).writeCrossing x.ref x.result false).notify
      (.crossingResult x.ramp x.ref .held false x.reserved none x.result)

/-- REDIRECT_SEARCH (R84): the Allocator serves the redirect search at the front of its service input. -/
def execRedirectSearch (s : State) : Host.Outcome State Fault Refusal :=
  if s.alc.walk = [] then
    match s.alc.service with
    | .redirect x :: rest =>
      let s1 := s.setAlc { s.alc with service := rest }
      match s1.unit? x.ref with
      | some u => finish (s1.serveRedirect u x)
      | none => finish s1
    | _ => notNow s
  else notNow s

end Sys2Proof.Machine
end

