-- ==== Sys2Proof/Machine/Units.lean ====
section
/-!
DEFINITION. The Unit Table's commands (chapter 1) and classification (chapter 5).
-/

namespace Sys2Proof.Machine

open Sys2Proof

/-! ## Classification (R90 to R97) -/

/-- The check-in gate's default level and ceiling (R92). A check-in gate is a GATE or PLANNING station; any other role,
which no run gives it, is read as PLANNING (log entry 18). -/
def State.gateFigures (s : State) (gate : Option Nat) : Nat × Nat :=
  match gate with
  | some stn =>
    let e := s.profile.stations.getD (stn - 1) Station.blank
    if e.role = .gate then (e.level, e.ceiling) else (0, 7)
  | none => (0, 7)

/-- The effective service level (R93). -/
def State.serviceLevel (s : State) (u : UnitRecord) : Nat :=
  let g := s.gateFigures u.gate
  min (u.decl.service.getD g.1) g.2

/-- The decks that have a lane tall enough, in whatever state (R97). -/
def State.tallDecks (s : State) (heightClass : Nat) : DeckSet :=
  (s.profile.lanes.filter fun l => decide (heightClass ≤ l.heightClass)).foldl
    (fun set l => set ||| (1#4 <<< l.deck.val)) 0

/-- The four answers of classification (R90). -/
def State.classification (s : State) (u : UnitRecord) : Classification :=
  let e := s.hazardEntry u.decl.hazard
  { priority := e.priority || decide (s.vessel.baseLevel ≤ s.serviceLevel u)
    seg := e.seg
    decks := e.decks &&& s.tallDecks u.decl.heightClass
    axleEst := u.decl.axleEstimate }

/-- The hand-over for a fresh placement: classification is written, the mark is set, and the record joins the service
input (R6, R11, R14, R16, R90). -/
def State.handFresh (ref : Ref) (cause : Cause) (s : State) : State :=
  (s.modUnit ref fun u => { u with cls := s.classification u, mark := true }).handItem (.placement ref cause)

/-! ## BOOK, AMEND, CANCEL (R8 to R10) -/

/-- The record BOOK creates (R2, R3, R8). -/
def Declared.booked (d : Declared) : UnitRecord :=
  { decl := d, cls := { priority := false, seg := 0, decks := 0, axleEst := 1 }, status := .booked, lane := none,
    offset := none, measured := none, axleCount := none, mismatch := false, weighFault := false, redirected := false,
    noShow := 0, age := 0, gate := none, mark := false }

/-- BOOK at the Unit Table (R4, R8). -/
def ownBook (t : Ticket) (d : Declared) (s : State) : State :=
  if (s.unit? d.ref).isSome then s.refuse t .duplicate
  else if s.tableFull then s.refuse t .tableFull
  else (s.addUnit d.booked).fill t .done

/-- BOOK (R8). -/
def execBook (s : State) : Host.Outcome State Fault Refusal := handle .book readBook noDeck ownBook s

/-- AMEND at the Unit Table (R9). The references are compared before the status (log entry 13). -/
def ownAmend (t : Ticket) (q : Ref × Declared) (s : State) : State :=
  s.withUnit true t q.1 fun u =>
    if q.2.ref ≠ q.1 then s.refuse t .badField
    else if u.status = .booked then (s.modUnit q.1 fun u => { u with decl := q.2 }).fill t .done
    else s.refuse t .wrongUnitState

/-- AMEND (R9). -/
def execAmend (s : State) : Host.Outcome State Fault Refusal := handle .amend readAmend noDeck ownAmend s

/-- CANCEL at the Unit Table, by the table of R10; the walk that a release starts is appended after the retirement. -/
def ownCancel (t : Ticket) (ref : Ref) (s : State) : State :=
  s.withUnit true t ref fun u =>
    match u.status with
    | .booked | .lapsed | .held | .shutOut => (s.retire ref).fill t .done
    | .waiting => (((s.release ref).retire ref).triggerWalk).fill t .done
    | .unplaced => ((s.leaveUnplaced ref).retire ref).fill t .done
    | .called | .crossing | .aboard => s.refuse t .inFlight

/-- CANCEL (R10). -/
def execCancel (s : State) : Host.Outcome State Fault Refusal := handle .cancel readRef noDeck ownCancel s

/-! ## CHECK_IN, PRESENT (R11, R13, R14) -/

/-- CHECK_IN at the Unit Table, in the order of R11. -/
def ownCheckIn (t : Ticket) (q : Ref × Option Nat) (s : State) : State :=
  s.withUnit true t q.1 fun u =>
    if u.status = .booked then
      let s1 := s.modUnit q.1 fun u =>
        { u with decl := { u.decl with length := q.2.getD u.decl.length }, gate := some t.stn.toNat }
      (s1.setCheckIn (s1.checkIn ++ [q.1])).handFresh q.1 (.checkIn t)
    else s.refuse t .wrongUnitState

/-- CHECK_IN (R11). -/
def execCheckIn (s : State) : Host.Outcome State Fault Refusal := handle .checkIn readCheckIn noDeck ownCheckIn s

/-- PRESENT at the Unit Table: the age of a WAITING unit becomes 0 (R13); a LAPSED unit returns to allocation (R14). -/
def ownPresent (t : Ticket) (ref : Ref) (s : State) : State :=
  s.withUnit true t ref fun u =>
    match u.status with
    | .waiting =>
      let s1 := s.modUnit ref fun u => { u with age := 0 }
      s1.fill t (s1.allocationReply ref)
    | .lapsed => s.handFresh ref (.present t)
    | .booked | .unplaced | .called | .crossing | .aboard | .held | .shutOut => s.refuse t .wrongUnitState

/-- PRESENT (R13, R14). -/
def execPresent (s : State) : Host.Outcome State Fault Refusal := handle .present readRef deckOfRef ownPresent s

/-! ## HOLD_UNIT, RELEASE_HOLD (R15, R16) -/

/-- HOLD_UNIT at the Unit Table, by the table of R15. A hold that releases a reservation starts a walk. -/
def ownHoldUnit (t : Ticket) (ref : Ref) (s : State) : State :=
  s.withUnit true t ref fun u =>
    match u.status with
    | .waiting => (((s.release ref).setStatus ref .held).triggerWalk).fill t .done
    | .unplaced => ((s.leaveUnplaced ref).setStatus ref .held).fill t .done
    | .lapsed => (s.setStatus ref .held).fill t .done
    | .called =>
      let r := ((u.lane.map fun l => (s.laneFixed l).ramp).getD .a)
      let s1 := ((s.release ref).setStatus ref .held).leaveCalled r ref
      ((s1.uncallNotice r .held none ref).triggerWalk).fill t .done
    | .crossing => s.refuse t .inFlight
    | .booked | .aboard | .held | .shutOut => s.refuse t .wrongUnitState

/-- HOLD_UNIT (R15). -/
def execHoldUnit (s : State) : Host.Outcome State Fault Refusal := handle .holdUnit readRef deckOfRef ownHoldUnit s

/-- RELEASE_HOLD at the Unit Table, in the order of R16. -/
def ownReleaseHold (t : Ticket) (ref : Ref) (s : State) : State :=
  s.withUnit true t ref fun u =>
    if u.status = .held then (s.modUnit ref fun u => { u with noShow := 0 }).handFresh ref (.releaseHold t)
    else s.refuse t .wrongUnitState

/-- RELEASE_HOLD (R16). A HELD unit has no lane, so the deck mask never refuses it (R174). -/
def execReleaseHold (s : State) : Host.Outcome State Fault Refusal :=
  handle .releaseHold readRef noDeck ownReleaseHold s

/-! ## Ageing (R17 to R19) -/

/-- The ageing period in milliseconds (R17). -/
def State.agePeriodMs (s : State) : Nat := s.vessel.agePeriod * 1000

/-- An expiry ages every unmarked WAITING record by 1 (R18). -/
def State.ageAll (s : State) : State :=
  s.setUnits (s.units.map fun u =>
    if u.status = .waiting ∧ u.mark = false then { u with age := u.age + 1 } else u)

/-- The records that lapse at an expiry: unmarked, WAITING, their age now equal to the limit; lowest reference first
(R18, R19). -/
def State.lapsing (s : State) : List Ref :=
  (s.units.filter fun u =>
    decide (u.status = .waiting) && !u.mark && decide (u.age = s.vessel.ageLimit)).map (·.decl.ref)

/-- A unit lapses (R19). -/
def State.lapse (s : State) (ref : Ref) : State := (s.release ref).setStatus ref .lapsed

/-- AGEING_EXPIRY (R17, R18): the timer restarts, WAITING units are aged, those at the limit lapse, and one walk follows
if any did. -/
def execAgeingExpiry (s : State) : Host.Outcome State Fault Refusal :=
  if s.ageing.isSome then
    let s1 := (s.setAgeing (some s.agePeriodMs)).ageAll
    let refs := s1.lapsing
    let s2 := refs.foldl State.lapse s1
    finish (if refs.isEmpty then s2 else s2.triggerWalk)
  else notNow s

end Sys2Proof.Machine
end

