-- ==== Sys2Proof/Machine/Lanes.lean ====
section
/-!
DEFINITION. The Lane Map's commands (chapter 2): obstructions, lane states.
-/

namespace Sys2Proof.Machine

open Sys2Proof

/-! ## Obstructions (R32 to R36) -/

/-- The record an obstruction request makes: its extent is clipped at the lane end (R32). -/
def State.clip (s : State) (q : SpanRequest) : Obstruction :=
  let length := (s.laneFixed q.lane).length
  { start := q.start, extent := if length < q.start + q.extent then length - q.start else q.extent }

/-- Some occupant's span overlaps the stretch (R33). -/
def State.overlapsOccupant (s : State) (l : Lane) (x : Obstruction) : Bool :=
  (s.lane l).occupants.any fun o => meets o.offset (s.lengthOf o.ref) x

/-- Inserts a record in start order, after those with an equal start (R32). -/
def insertObstruction (x : Obstruction) : List Obstruction → List Obstruction
  | [] => [x]
  | y :: rest => if x.start < y.start then x :: y :: rest else y :: insertObstruction x rest

/-- The longest run of a lane's reservations, from the front, whose projection fits; `tail` is the list backward
(R34: reservations are released from the end backward until the remaining projection fits). -/
def State.fittingRun (s : State) (l : Lane) : List Ref → List Ref
  | [] => []
  | ref :: rest =>
    let refs := (ref :: rest).reverse
    if s.allFit l (s.projectUnits l refs) then refs else s.fittingRun l rest

/-- Releases one unit's reservation for an obstruction or a withdrawal, by its status (R34): a CALLED unit leaves its
called list; a CROSSING unit keeps its status and its place. -/
def State.releaseFromLane (l : Lane) (ref : Ref) (s : State) : State :=
  let s' := s.release ref
  if s.statusOf ref = some .called then s'.leaveCalled (s.laneFixed l).ramp ref else s'

/-- The units among `refs` with a given status, in order. -/
def State.withStatus (s : State) (x : Status) (refs : List Ref) : List Ref :=
  refs.filter fun r => decide (s.statusOf r = some x)

/-- The units among `refs` that are reallocated: all but the CROSSING ones (R34, R35). -/
def State.reallocated (s : State) (refs : List Ref) : List Ref :=
  refs.filter fun r => decide (s.statusOf r ≠ some .crossing)

/-- After an obstruction is recorded: releases from the end backward until the projection fits; the UNCALL notices in
called-list order (log entry 16); the reallocated units as one burst in list order; the walk behind it, when anything
was released (R34, R76, R77). Answers how many reservations were released. -/
def State.refit (l : Lane) (s : State) : State × Nat :=
  let all := (s.lane l).reservations
  let gone := all.drop (s.fittingRun l all.reverse).length
  let r := (s.laneFixed l).ramp
  let s1 := gone.reverse.foldl (fun s ref => s.releaseFromLane l ref) s
  let s2 := (s.withStatus .called gone).foldl (fun s ref => s.uncallNotice r .released none ref) s1
  let s3 := (s.reallocated gone).foldl (fun s ref => s.handOver ref l) s2
  (if gone.isEmpty then s3 else s3.triggerWalk, gone.length)

/-- Withdraws a lane (R35): the state, the LANE_WITHDRAWN notice, the releases from the first entry to the last with
each UNCALL notice as its unit is released, and one burst in list order; no walk. From WITHDRAWN nothing happens.
Answers how many reservations were released. -/
def State.withdraw (l : Lane) (s : State) : State × Nat :=
  if (s.lane l).state = .withdrawn then (s, 0)
  else
    let all := (s.lane l).reservations
    let r := (s.laneFixed l).ramp
    let s1 := (s.setLane l { s.lane l with state := .withdrawn }).notify (.laneWithdrawn l (s.laneFixed l).deck)
    let s2 := all.foldl (fun s' ref =>
        let s'' := s'.releaseFromLane l ref
        if s'.statusOf ref = some .called then s''.uncallNotice r .released none ref else s'') s1
    let s3 := (s.reallocated all).foldl (fun s ref => s.handOver ref l) s2
    (s3, all.length)

/-- OBSTRUCTION_ADD at the Lane Map (R33 to R35). -/
def ownObstructionAdd (t : Ticket) (q : SpanRequest) (s : State) : State :=
  let x := s.clip q
  let lane := s.lane q.lane
  if s.overlapsOccupant q.lane x then s.refuse t .overlaps
  else if lane.obstructions.length < Config.maxObstructions then
    let p := (s.setLane q.lane { lane with obstructions := insertObstruction x lane.obstructions }).refit q.lane
    p.1.fill t (.obstructionAdded false p.2)
  else
    let p := s.withdraw q.lane
    p.1.fill t (.obstructionAdded true p.2)

/-- The deck of a span request's lane (R174). -/
def deckOfSpan (s : State) (q : SpanRequest) : Option Deck := deckOfLane s q.lane

/-- OBSTRUCTION_ADD (R33). -/
def execObstructionAdd (s : State) : Host.Outcome State Fault Refusal :=
  handle .obstructionAdd readSpan deckOfSpan ownObstructionAdd s

/-- OBSTRUCTION_CLEAR at the Lane Map (R36): one matching record is removed. -/
def ownObstructionClear (t : Ticket) (q : SpanRequest) (s : State) : State :=
  let x := s.clip q
  let lane := s.lane q.lane
  if lane.obstructions.contains x then
    let rest := lane.obstructions.erase x
    ((s.setLane q.lane { lane with obstructions := rest }).triggerWalk).fill t (.obstructionCleared rest.length)
  else s.refuse t .badField

/-- OBSTRUCTION_CLEAR (R36). -/
def execObstructionClear (s : State) : Host.Outcome State Fault Refusal :=
  handle .obstructionClear readSpan deckOfSpan ownObstructionClear s

/-! ## Lane states (R37, R39) -/

/-- LANE_CLOSE at the Lane Map (R37): the WAITING units are released and reallocated in list order, and the lane is
CLOSING while a reservation remains, CLOSED otherwise. -/
def ownLaneClose (t : Ticket) (l : Lane) (s : State) : State :=
  let lane := s.lane l
  if lane.state = .opened then
    let waiting := s.withStatus .waiting lane.reservations
    let s1 := (s.setLane l { lane with state := .closing }).reallocateAll waiting l
    let s2 := if (s1.lane l).reservations.isEmpty then s1.setLane l { s1.lane l with state := .closed } else s1
    s2.fill t (.laneClosed (s2.lane l).state waiting.length)
  else s.refuse t .laneState

/-- LANE_CLOSE (R37). -/
def execLaneClose (s : State) : Host.Outcome State Fault Refusal := handle .laneClose readLane deckOfLane ownLaneClose s

/-- LANE_OPEN at the Lane Map (R39). -/
def ownLaneOpen (t : Ticket) (l : Lane) (s : State) : State :=
  let lane := s.lane l
  if lane.state = .opened then s.refuse t .laneState
  else ((s.setLane l { lane with state := .opened }).triggerWalk).fill t .done

/-- LANE_OPEN (R39). -/
def execLaneOpen (s : State) : Host.Outcome State Fault Refusal := handle .laneOpen readLane deckOfLane ownLaneOpen s

end Sys2Proof.Machine
end

