-- ==== Sys2Proof/Machine/Calls.lean ====
section
/-!
DEFINITION. The Call Scheduler's commands (chapter 6).
-/

namespace Sys2Proof.Machine

open Sys2Proof

/-! ## RAMP_OPEN, RAMP_CLOSE, SET_RAMP (R105 to R108) -/

/-- A ramp's interval period in milliseconds (R102). -/
def State.intervalMs (s : State) (r : Ramp) : Nat := (s.rampFixed r).intervalPeriod * 1000

/-- RAMP_OPEN at the Call Scheduler (R105, R125). -/
def ownRampOpen (t : Ticket) (r : Ramp) (s : State) : State :=
  if (s.ramp r).state = .closed then
    let s1 := s.setRampState r .opened
    let s2 := s1.setRamp r
      { s1.ramp r with remaining := (s1.ramp r).budget, credit := 0, intervalTimer := some (s.intervalMs r) }
    ((s2.setPlate r { s2.plate r with state := .idle }).triggerWalk).fill t .done
  else s.refuse t .laneState

/-- RAMP_OPEN (R105). -/
def execRampOpen (s : State) : Host.Outcome State Fault Refusal := handle .rampOpen readRamp noDeck ownRampOpen s

/-- A CLOSING ramp enters CLOSED and its plate is DISARMED (R106, R107, R125). -/
def State.closeRamp (r : Ramp) (s : State) : State :=
  let s1 := s.setRampState r .closed
  s1.setPlate r { s1.plate r with state := .disarmed }

/-- Releases a CALLED unit for a ramp close: it leaves the called list, its UNCALL notice is queued, its reservation is
released (R106). -/
def State.closeCalled (r : Ramp) (ref : Ref) (s : State) : State :=
  ((s.leaveCalled r ref).uncallNotice r .rampClosed none ref).release ref

/-- RAMP_CLOSE at the Call Scheduler (R106): the ramp enters CLOSING with its timers stopped; the CALLED units, then
the priority queue, then the ordinary queue are released from front to back; they form one burst in that order, each
with its former lane; and with the plate IDLE the ramp enters CLOSED at the same event. -/
def ownRampClose (t : Ticket) (r : Ramp) (s : State) : State :=
  let x := s.ramp r
  if x.state = .opened then
    let s1 := s.setRampState r .closing
    let s2 := s1.setRamp r { s1.ramp r with intervalTimer := none, callTimer := none }
    let called := s.withStatus .called x.called
    let queued := x.prio ++ x.ord
    let s3 := called.foldl (fun s ref => s.closeCalled r ref) s2
    let s4 := queued.foldl (fun s ref => s.release ref) s3
    let s5 := (called ++ queued).foldl (fun s' ref =>
        match (s.unit? ref).bind (·.lane) with
        | some l => s'.handOver ref l
        | none => s') s4
    let s6 := if (s.plate r).state = .idle then s5.closeRamp r else s5
    s6.fill t (.rampClosed (s6.ramp r).state (called ++ queued).length)
  else s.refuse t .laneState

/-- RAMP_CLOSE (R106). -/
def execRampClose (s : State) : Host.Outcome State Fault Refusal := handle .rampClose readRamp noDeck ownRampClose s

/-- A value clamped between two bounds. -/
def clampNat (lo hi v : Nat) : Nat := if v < lo then lo else if hi < v then hi else v

/-- SET_RAMP at the Call Scheduler (R108). -/
def ownSetRamp (t : Ticket) (q : RampSettings) (s : State) : State :=
  let n := clampNat 0 15 q.ratio
  let d := clampNat 1 4 q.depth
  let b := clampNat 50 5000 q.budget
  let x := s.ramp q.ramp
  (s.setRamp q.ramp
    { x with ratio := n, depth := d, budget := b, credit := min x.credit n, remaining := min x.remaining b }).fill t
      (.rampSet n d b (decide (n ≠ q.ratio)) (decide (d ≠ q.depth)) (decide (b ≠ q.budget)))

/-- SET_RAMP (R108). -/
def execSetRamp (s : State) : Host.Outcome State Fault Refusal := handle .setRamp readSetRamp noDeck ownSetRamp s

/-! ## SKIP (R118) -/

/-- SKIP at the Call Scheduler (R118). -/
def ownSkip (t : Ticket) (ref : Ref) (s : State) : State :=
  s.withUnit false t ref fun u =>
    match u.status with
    | .called =>
      match u.lane with
      | some l =>
        let p := s.uncallToWaiting (s.laneFixed l).ramp l false .skipped ref
        p.1.fill t (.skipped p.2)
      | none => s.refuse t .wrongUnitState
    | .crossing => s.refuse t .inFlight
    | .booked | .waiting | .unplaced | .lapsed | .aboard | .held | .shutOut => s.refuse t .wrongUnitState

/-- SKIP (R118). -/
def execSkip (s : State) : Host.Outcome State Fault Refusal := handle .skip readRef deckOfRef ownSkip s

/-! ## Making a call (R109 to R112) -/

/-- The lane-order condition: every unit ahead in the lane's reservation list is CALLED or CROSSING (R109). -/
def State.laneOrderMet (s : State) (u : UnitRecord) : Bool :=
  match u.lane with
  | some l =>
    ((s.lane l).reservations.takeWhile (· != u.decl.ref)).all fun r =>
      decide (s.statusOf r = some .called) || decide (s.statusOf r = some .crossing)
  | none => false

/-- A queued unit is eligible (R109). -/
def State.eligible (s : State) (r : Ramp) (ref : Ref) : Bool :=
  match s.unit? ref with
  | some u =>
    s.laneOrderMet u &&
      (decide ((s.comp r).state ≠ .restricted) || decide (u.decl.kind ≠ .lowbed)) &&
      (!s.hlm.hold || !s.heavy u) &&
      (decide (u.decl.weight ≤ (s.ramp r).remaining) || decide ((s.ramp r).remaining = (s.ramp r).budget))
  | none => false

/-- The call condition of a ramp but for its fifth part (R110, 1 to 4). -/
def State.mayCall (s : State) (r : Ramp) : Bool :=
  decide (s.session = .alongside) && decide ((s.ramp r).state = .opened) &&
    decide ((s.ramp r).called.length < (s.ramp r).depth) && decide (Config.callNoticeSlots ≤ s.freeNotices)

/-- The unit called and the credit after the call, by the ratio and the credit (R111); none when no queued unit is
eligible. -/
def State.callChoice (s : State) (r : Ramp) : Option (Ref × Nat) :=
  let x := s.ramp r
  match x.prio.find? (s.eligible r), x.ord.find? (s.eligible r) with
  | none, none => none
  | some p, none => some (p, if x.ratio = 0 then 0 else x.credit)
  | none, some o => some (o, 0)
  | some p, some o =>
    if x.ratio = 0 then some (p, 0)
    else if x.credit < x.ratio then some (p, x.credit + 1)
    else some (o, 0)

/-- The call of a unit of a lane (R112). -/
def State.makeCall (r : Ramp) (u : UnitRecord) (l : Lane) (credit : Nat) (s : State) : State :=
  let ref := u.decl.ref
  let s1 := (s.leaveQueue r ref).setStatus ref .called
  let x := s1.ramp r
  let s2 := s1.setRamp r
    { x with called := x.called ++ [ref], remaining := x.remaining - u.decl.weight, credit := credit }
  let s3 := s2.notify (.call r ref l (s.laneFixed l).deck)
  if x.called.isEmpty then s3.timeHead r else s3

/-- CALL (R110 to R112): the ramp's call condition is examined, and one call is made when it holds. -/
def execCall (r : Ramp) (s : State) : Host.Outcome State Fault Refusal :=
  if s.mayCall r then
    match s.callChoice r with
    | some (ref, credit) =>
      match s.unit? ref with
      | some u =>
        match u.lane with
        | some l => finish (s.makeCall r u l credit)
        | none => notNow s
      | none => notNow s
    | none => notNow s
  else notNow s

/-! ## The two timers (R113 to R116) -/

/-- INTERVAL_TIMER_EXPIRY (R113): the budget is restored and the timer restarts. -/
def execIntervalTimerExpiry (r : Ramp) (s : State) : Host.Outcome State Fault Refusal :=
  if (s.ramp r).intervalTimer.isSome then
    finish (s.setRamp r { s.ramp r with remaining := (s.ramp r).budget, intervalTimer := some (s.intervalMs r) })
  else notNow s

/-- The head's first no-show (R115). -/
def State.firstNoShow (r : Ramp) (u : UnitRecord) (l : Lane) (s : State) : State :=
  ((s.modUnit u.decl.ref fun u => { u with noShow := 1 }).uncallToWaiting r l true .noShow u.decl.ref).1

/-- The head's second no-show (R116). -/
def State.secondNoShow (r : Ramp) (u : UnitRecord) (s : State) : State :=
  let ref := u.decl.ref
  let s1 := ((s.release ref).setStatus ref .held).leaveCalled r ref
  (s1.uncallNotice r .noShowHeld none ref).triggerWalk

/-- CALL_TIMER_EXPIRY (R114 to R116): the head, still CALLED, takes a no-show. -/
def execCallTimerExpiry (r : Ramp) (s : State) : Host.Outcome State Fault Refusal :=
  if (s.ramp r).callTimer.isSome then
    match (s.ramp r).called.head?.bind s.unit? with
    | some u =>
      match u.lane with
      | some l =>
        if u.status = .called then
          finish (if u.noShow = 0 then s.firstNoShow r u l else s.secondNoShow r u)
        else notNow s
      | none => notNow s
    | none => notNow s
  else notNow s

end Sys2Proof.Machine
end

