-- ==== Sys2Proof/Machine/Crossing.lean ====
section
/-!
DEFINITION. The Ramp Weighing Monitor's plates (chapter 7): axle edges, conversions, the completion of a crossing.
-/

namespace Sys2Proof.Machine

open Sys2Proof

/-! ## Axle edges (R125 to R128) -/

/-- A ramp's crossing gap in milliseconds: the profile gives it in 0.1 s. -/
def State.crossingGapMs (s : State) (r : Ramp) : Nat := (s.rampFixed r).crossingGap * 100

/-- The plate as a crossing opens at an IDLE plate (R126, steps 1 to 3), attributed to `unit`. -/
def Plate.opened (gap : Nat) (unit : Option Ref) : Plate :=
  { state := .weighing, unit := unit, axleCount := 1, busy := true, axleSum := 0, axleMax := 0, fault := false,
    gapTimer := some gap }

/-- A crossing opens (R126): with a head on the called list it is attributed to the head, which becomes CROSSING and
whose call timer stops; without one it is unexpected. -/
def State.openCrossing (r : Ramp) (s : State) : State :=
  let head := (s.ramp r).called.head?
  let s1 := s.setPlate r (Plate.opened (s.crossingGapMs r) head)
  match head with
  | some ref => (s1.setStatus ref .crossing).setRamp r { s.ramp r with callTimer := none }
  | none => s1.setSticky (.unexpected r)

/-- The plate after an axle edge at a WEIGHING plate (R128). -/
def Plate.counted (gap : Nat) (p : Plate) : Plate :=
  let n := min Config.axleCountMax (p.axleCount + 1)
  let converts := !p.busy && decide (n ≤ Config.axlesConverted)
  { p with
    axleCount := n
    busy := p.busy || converts
    fault := p.fault || !converts
    gapTimer := some gap }

/-- AXLE_EDGE (R125): ignored at a DISARMED plate, opens a crossing at an IDLE one, counted at a WEIGHING one. -/
def execAxleEdge (r : Ramp) (s : State) : Host.Outcome State Fault Refusal :=
  match (s.plate r).state with
  | .disarmed => notNow s
  | .idle => finish (s.openCrossing r)
  | .weighing => finish (s.setPlate r ((s.plate r).counted (s.crossingGapMs r)))

/-! ## Conversions (R58, R59, R129) -/

/-- The plate after a conversion completes with an axle load (R59, R129). -/
def Plate.converted (load : Nat) (p : Plate) : Plate :=
  { p with
    busy := false
    axleSum := min Config.axleSumMax (p.axleSum + load)
    axleMax := max p.axleMax load }

/-- CONVERSION_COMPLETE (R129): the converter that is busy delivers its code. -/
def execConversionComplete (r : Ramp) (code : BitVec 10) (s : State) : Host.Outcome State Fault Refusal :=
  if (s.plate r).busy then
    finish (s.setPlate r ((s.plate r).converted (axleLoad (s.rampFixed r) code.toNat)))
  else notNow s

/-! ## The crossing's result (R130, R134) -/

/-- weight_used of a completed crossing (R130). -/
def Plate.weightUsed (p : Plate) (u : UnitRecord) : Nat := if p.fault then u.decl.weight else p.axleSum

/-- The axle figure of a completed crossing (R130). -/
def Plate.axleFigure (p : Plate) (u : UnitRecord) : Nat := if p.fault then u.cls.axleEst else p.axleMax

/-- The measured weight and max axle of a completed crossing, absent when it is faulted (R130). -/
def Plate.measured (p : Plate) : Option Measured :=
  if p.fault then none else some { weight := p.axleSum, maxAxle := p.axleMax }

/-- The axle-count-differs indicator (R134). -/
def Plate.axlesDiffer (p : Plate) (u : UnitRecord) : Bool :=
  match u.decl.axles with
  | some n => decide (n ≠ p.axleCount)
  | none => false

/-- The crossing's result, with the WEIGHT_MISMATCH flag as the completion finds it (R130, R134, R135, R138). -/
def Plate.result (p : Plate) (u : UnitRecord) (mismatch : Bool) : CrossingResult :=
  { measured := p.measured, axleCount := p.axleCount, mismatch := mismatch, weighFault := p.fault,
    axlesDiffer := p.axlesDiffer u }

/-! ## The commit tests (R135) -/

/-- The measured weight of a crossing that is not faulted lies outside the weight window (R57, R135). -/
def State.outOfWindow (s : State) (r : Ramp) (p : Plate) (u : UnitRecord) : Bool :=
  !p.fault && !inWindow u.decl.weight (s.rampFixed r).tolerance p.axleSum

/-- The commit moment test at the reserved lane's commit offset, with weight_used (R56). -/
def State.commitMoments (s : State) (u : UnitRecord) (l : Lane) (used : Nat) : Bool :=
  let f := s.laneFixed l
  let x := f.xUnit (s.commitOffset l u.decl.length) u.decl.length
  commitMoment s.vessel s.stb.ml s.stb.mt
    (s.stb.ml - u.decl.weight * f.y + used * f.y) (s.stb.mt - u.decl.weight * f.xMid + used * x)

/-- The commit tests against the reserved lane (R135). -/
def State.commitPasses (s : State) (r : Ramp) (p : Plate) (u : UnitRecord) (l : Lane) : Bool :=
  let d := (s.laneFixed l).deck
  decide (p.axleFigure u ≤ (s.laneFixed l).axleLimit) &&
    decide (s.stb.load[d] - u.decl.weight + p.weightUsed u ≤ ((s.deckFixed d).cap : Int)) &&
    (!s.outOfWindow r p u || s.commitMoments u l (p.weightUsed u))

/-! ## Completion (R132 to R139) -/

/-- The unit is committed to its reserved lane (R136). -/
def State.commit (r : Ramp) (p : Plate) (u : UnitRecord) (l : Lane) (s : State) : State :=
  let ref := u.decl.ref
  let x := p.result u (s.outOfWindow r p u)
  let offset := s.commitOffset l u.decl.length
  let s1 := (s.leaveLane l ref).subProvisional l u.decl.weight
  let s2 := s1.board u l offset (p.weightUsed u) x false
  let s3 := s2.notify (.crossingResult r ref .committed false (some l) (some (l, (s.laneFixed l).deck, offset)) x)
  if !p.fault && decide (p.axleSum < u.decl.weight) then s3.triggerWalk else s3

/-- The search item of a crossing (R137, R138). -/
def Plate.search (p : Plate) (r : Ramp) (u : UnitRecord) (reserved : Option Lane) (mismatch : Bool) : Item :=
  .redirect
    { ref := u.decl.ref, ramp := r, weightUsed := p.weightUsed u, axleFigure := p.axleFigure u, reserved := reserved,
      result := p.result u mismatch }

/-- What becomes of the unit whose crossing completes, once it has left the called list (R135 to R138). -/
def State.settle (r : Ramp) (p : Plate) (u : UnitRecord) (s : State) : State :=
  match u.lane with
  | some l =>
    if s.commitPasses r p u l then s.commit r p u l
    else ((s.release u.decl.ref).handItem (p.search r u (some l) (s.outOfWindow r p u))).triggerWalk
  | none => s.handItem (p.search r u none false)

/-- The plate record returns to its starting values; the plate enters IDLE when the ramp is OPEN, and the ramp enters
CLOSED with its plate DISARMED when it is CLOSING (R107, R132). -/
def State.clearPlate (r : Ramp) (s : State) : State :=
  let s1 := s.setPlate r Plate.reset
  match (s.ramp r).state with
  | .opened => s1.setPlate r { Plate.reset with state := .idle }
  | .closing => s1.closeRamp r
  | .closed => s1

/-- GAP_TIMER_EXPIRY (R132): the open crossing completes. The timer does not expire while a conversion is in progress
(R129). The called list's new head is timed at the end (R114). -/
def execGapTimerExpiry (r : Ramp) (s : State) : Host.Outcome State Fault Refusal :=
  let p := s.plate r
  if p.state = .weighing ∧ p.gapTimer.isSome ∧ p.busy = false then
    let s1 := s.clearPlate r
    match p.unit with
    | some ref =>
      let s2 := s1.leaveCalled r ref
      match s2.unit? ref with
      | some u => finish ((s2.settle r p u).timeHead r)
      | none => finish (s2.timeHead r)
    | none => finish ((s1.notify (.unexpectedCrossing r p.axleCount p.fault)).timeHead r)
  else notNow s

end Sys2Proof.Machine
end

