-- ==== Sys2Proof/Machine/Monitors.lean ====
section
/-!
DEFINITION. The gradient comparators and the Heel Monitor (chapter 8): samples, the heel reading, the sample timer.
-/

namespace Sys2Proof.Machine

open Sys2Proof

/-- The heel history after a code is read: the code joins the end, and of five codes the oldest goes (R147). -/
def historyAfter (history : List Int) (code : Int) : List Int :=
  let h := history ++ [code]
  if Config.heelHistory < h.length then h.tail else h

/-- The heel of a history: the mean truncated toward zero, times the heel span, divided by 512 and truncated (R147). -/
def heelOf (span : Nat) (history : List Int) : Int :=
  if history.isEmpty then 0 else ((history.sum.tdiv history.length) * span).tdiv 512

/-- HLM takes an inclinometer code: the history, the heel, the heel hold (R147, R148). -/
def State.readHeel (code : BitVec 10) (s : State) : State :=
  let h := historyAfter s.hlm.history code.toInt
  let heel := heelOf s.vessel.heelSpan h
  (s.setHlm { s.hlm with history := h, heel := heel }).setHeelHold (heelHoldAfter s.vessel s.hlm.hold heel)

/-- A sample: the two gradients and the inclinometer code, each taken by its own monitor (R142). -/
def State.takeSample (gradA gradB : BitVec 8) (incl : BitVec 10) (s : State) : State :=
  ((s.sampleGradient .a gradA.toNat).sampleGradient .b gradB.toNat).readHeel incl

/-- The sample timer starts with the full sample period (R142). -/
def State.startSampling (s : State) : State := s.setHlm { s.hlm with sampleTimer := some s.vessel.samplePeriod }

/-- SAMPLE_TIMER_EXPIRY (R142): a sample is taken, and the timer restarts. -/
def execSampleTimerExpiry (gradA gradB : BitVec 8) (incl : BitVec 10) (s : State) : Host.Outcome State Fault Refusal :=
  if s.hlm.sampleTimer.isSome then finish ((s.startSampling).takeSample gradA gradB incl) else notNow s

/-- A comparator returns to UNSAMPLED; its RAMP_STATE flag is set if it was RESTRICTED (R145, R150). -/
def State.unsample (r : Ramp) (s : State) : State :=
  let s' := s.setComp r Comparator.reset
  if (s.comp r).state = .restricted then s'.setFlag (.rampState r) else s'

/-- The monitors as a PROFILE_RELOAD enters LOADING (R150). -/
def State.stopMonitors (s : State) : State :=
  let s1 := s.setHlm { s.hlm with history := [], heel := 0, sampleTimer := none }
  ((s1.setHeelHold false).unsample .a).unsample .b

end Sys2Proof.Machine
end

