-- ==== Sys2Proof/Machine/Discharge.lean ====
section
/-!
DEFINITION. PLACE and DISCHARGE (chapter 9).
-/

namespace Sys2Proof.Machine

open Sys2Proof

/-! ## PLACE (R152 to R156) -/

/-- The occupant of a lane with the largest offset below a given one: occupants stand in rising order of offset
(R25, R152). -/
def State.innerNeighbour (s : State) (l : Lane) (offset : Nat) : Option Occupant :=
  ((s.lane l).occupants.filter fun o => decide (o.offset < offset)).getLast?

/-- The occupant of a lane with the smallest offset above a given one (R152). -/
def State.outerNeighbour (s : State) (l : Lane) (offset : Nat) : Option Occupant :=
  (s.lane l).occupants.find? fun o => decide (offset < o.offset)

/-- The geometry test of PLACE (R154). -/
def State.placeFits (s : State) (q : PlaceRequest) : Bool :=
  decide (q.offset + q.length ≤ (s.laneFixed q.lane).length) &&
    !((s.lane q.lane).occupants.any fun o => o.offset == q.offset) &&
    !((s.lane q.lane).obstructions.any (meets q.offset q.length)) &&
    (match s.innerNeighbour q.lane q.offset with
      | some o => decide (o.offset + s.lengthOf o.ref + s.vessel.gap ≤ q.offset)
      | none => true) &&
    (match s.outerNeighbour q.lane q.offset with
      | some o => decide (q.offset + q.length + s.vessel.gap ≤ o.offset)
      | none => true)

/-- The discharge group of the unit that an occupant entry names. -/
def State.groupOf (s : State) (ref : Ref) : Nat :=
  match s.unit? ref with
  | some u => u.decl.group
  | none => 0

/-- The discharge-order test of PLACE (R154). -/
def State.placeOrdered (s : State) (q : PlaceRequest) : Bool :=
  (match s.innerNeighbour q.lane q.offset with
    | some o => decide (q.group ≤ s.groupOf o.ref)
    | none => true) &&
    (match s.outerNeighbour q.lane q.offset with
      | some o => decide (s.groupOf o.ref ≤ q.group)
      | none => true)

/-- The checks of R153 in their order: the result that refuses the PLACE, if one does. -/
def State.placeRefusal (s : State) (q : PlaceRequest) : Option Result :=
  let lane := s.lane q.lane
  let d := (s.laneFixed q.lane).deck
  if (s.unit? q.ref).isSome then some .duplicate
  else if s.tableFull then some .tableFull
  else if lane.state ≠ .opened ∧ lane.state ≠ .closed then some .laneState
  else if lane.reservations ≠ [] then some .blocked
  else if s.placeFits q = false then some .overlaps
  else if s.placeOrdered q = false then some .blocked
  else if ((s.deckFixed d).cap : Int) < s.stb.load[d] + q.weight then some .limit
  else none

/-- The record PLACE creates (R155). -/
def State.placedRecord (s : State) (q : PlaceRequest) : UnitRecord :=
  let e := s.hazardEntry q.hazard
  { decl := q.declared
    cls := { priority := false, seg := e.seg, decks := e.decks, axleEst := (q.weight + 1) / 2 }
    status := .aboard, lane := some q.lane, offset := some q.offset, measured := none, axleCount := none,
    mismatch := false, weighFault := false, redirected := false, noShow := 0, age := 0, gate := none, mark := false }

/-- Inserts an entry in an occupant list at the position its offset gives (R25, R156). -/
def insertOccupant (x : Occupant) : List Occupant → List Occupant
  | [] => [x]
  | y :: rest => if x.offset < y.offset then x :: y :: rest else y :: insertOccupant x rest

/-- The PLACE event: the record, the occupant list, the sums and load, the deck's fill (R155, R156). -/
def State.placeUnit (q : PlaceRequest) (s : State) : State :=
  let lane := s.lane q.lane
  let s1 := s.addUnit (s.placedRecord q)
  let s2 := s1.setLane q.lane
    { lane with occupants := insertOccupant { ref := q.ref, offset := q.offset } lane.occupants }
  (s2.addCommitted q.lane q.weight q.offset q.length).refill (s.laneFixed q.lane).deck

/-- PLACE at the Unit Table (R153, R156). -/
def ownPlace (t : Ticket) (q : PlaceRequest) (s : State) : State :=
  match s.placeRefusal q with
  | some r => s.refuse t r
  | none =>
    let s1 := s.placeUnit q
    s1.fill t (.placed q.ref q.lane (s.laneFixed q.lane).deck q.offset s1.stb.ml s1.stb.mt)

/-- PLACE (R152). No role but planning may send it, so no deck mask reads its lane (R174). -/
def execPlace (s : State) : Host.Outcome State Fault Refusal := handle .place readPlace noDeck ownPlace s

/-! ## DISCHARGE (R158, R159) -/

/-- The checks of R158 after the lookup, in their order, for a unit that stands in a lane at an offset. -/
def State.dischargeRefusal (s : State) (u : UnitRecord) (l : Lane) : Option Result :=
  let lane := s.lane l
  if lane.occupants.getLast?.map (·.ref) ≠ some u.decl.ref then some .blocked
  else if lane.reservations ≠ [] then some .blocked
  else if s.hlm.hold ∧ s.heavy u then some .heelHold
  else none

/-- The DISCHARGE event up to the retirement: the sums and load, the occupant list, the deck's fill (R159). -/
def State.dischargeUnit (u : UnitRecord) (l : Lane) (offset : Nat) (s : State) : State :=
  let s1 := s.subCommitted l u.weightUsed offset u.decl.length
  let s2 := s1.setLane l { s1.lane l with occupants := (s1.lane l).occupants.dropLast }
  (s2.refill (s.laneFixed l).deck).retire u.decl.ref

/-- DISCHARGE at the Unit Table (R158, R159). -/
def ownDischarge (t : Ticket) (ref : Ref) (s : State) : State :=
  s.withUnit false t ref fun u =>
    match u.status, u.lane, u.offset with
    | .aboard, some l, some offset =>
      match s.dischargeRefusal u l with
      | some r => s.refuse t r
      | none =>
        let s1 := s.dischargeUnit u l offset
        (s1.fill t
          (.discharged ref l (s.laneFixed l).deck (s1.physicalEnd l) s1.stb.ml s1.stb.mt)).triggerWalk
    | _, _, _ => s.refuse t .wrongUnitState

/-- DISCHARGE (R158). -/
def execDischarge (s : State) : Host.Outcome State Fault Refusal :=
  handle .discharge readRef deckOfRef ownDischarge s

end Sys2Proof.Machine
end

