-- ==== Sys2Proof/Machine/Ballast.lean ====
section
/-!
DEFINITION. SET_BALLAST (R50) and CLEAR_FLAGS (R179).
-/

namespace Sys2Proof.Machine

open Sys2Proof

/-- A ballast value clamped (R50). -/
def clampBallast (v : Int) : Int :=
  if Config.ballastMax < v then Config.ballastMax else if v < -Config.ballastMax then -Config.ballastMax else v

/-- SET_BALLAST at the Stability Unit (R50). -/
def ownSetBallast (t : Ticket) (q : Int × Int) (s : State) : State :=
  let x := { s.stb with bl := clampBallast q.1, bt := clampBallast q.2 }
  ((s.setStb x).fill t
    (.ballastSet (decide (x.bl ≠ q.1)) (decide (x.bt ≠ q.2)) x.bl x.bt x.ml x.mt)).triggerWalk

/-- SET_BALLAST (R50). -/
def execSetBallast (s : State) : Host.Outcome State Fault Refusal :=
  handle .setBallast readBallast noDeck ownSetBallast s

/-- CLEAR_FLAGS at the Link Port: the eight flags are read, and the selected ones cleared, at one event (R179). -/
def ownClearFlags (t : Ticket) (sel : Byte) (s : State) : State :=
  (s.modLink fun k => { k with sticky := k.sticky &&& ~~~sel }).fill t (.flagsCleared s.link.sticky)

/-- CLEAR_FLAGS (R179). -/
def execClearFlags (s : State) : Host.Outcome State Fault Refusal :=
  handle .clearFlags readSelection noDeck ownClearFlags s

end Sys2Proof.Machine
end

