-- ==== Sys2Proof/Machine/Profile.lean ====
section
/-!
DEFINITION. The profile image as the Profile Store reads it (R181, R189): the header, the six sections, their checks.
Each reader answers none where the section fails its range check.
-/

namespace Sys2Proof.Machine

open Sys2Proof

/-- A signed value in a range, both ends included. -/
def intInRange (lo hi v : Int) : Bool := decide (lo ≤ v) && decide (v ≤ hi)

/-- A deck set field: bits 4 to 7 must be 0 (R188, R189). -/
def readDeckSet (n : Nat) : Option DeckSet := if n < 16 then some (BitVec.ofNat 4 n) else none

/-- Reads `n` records that follow one another. -/
def readMany {α : Type} (read : List Byte → Option (α × List Byte)) : Nat → List Byte → Option (List α × List Byte)
  | 0, bs => some ([], bs)
  | n + 1, bs => do
    let (x, bs) ← read bs
    let (xs, bs) ← readMany read n bs
    some (x :: xs, bs)

/-! ## The sections (12.1, R189) -/

/-- The ranges of the VESSEL section (12.1). -/
def Vessel.inRanges (v : Vessel) : Bool :=
  inRange 0 20 v.gap && inRange 0 10000000 v.listLimit && intInRange (-100000000) 100000000 v.trimLo &&
    intInRange (-100000000) 100000000 v.trimHi && decide (v.trimLo ≤ v.trimHi) && inRange 50 600 v.heavyThreshold &&
    inRange 1 1500 v.heelOn && inRange 0 1500 v.heelOff && inRange 1 2000 v.heelSpan &&
    inRange 100 2000 v.samplePeriod && inRange 10 600 v.agePeriod && inRange 1 63 v.ageLimit && inRange 0 7 v.baseLevel

/-- The VESSEL section (27 bytes). -/
def readVessel (bs : List Byte) : Option Vessel := do
  let (gap, bs) ← getN 1 bs
  let (listLimit, bs) ← getN 4 bs
  let (trimLo, bs) ← getInt 4 bs
  let (trimHi, bs) ← getInt 4 bs
  let (heavyThreshold, bs) ← getN 2 bs
  let (heelOn, bs) ← getN 2 bs
  let (heelOff, bs) ← getN 2 bs
  let (heelSpan, bs) ← getN 2 bs
  let (samplePeriod, bs) ← getN 2 bs
  let (agePeriod, bs) ← getN 2 bs
  let (ageLimit, bs) ← getN 1 bs
  let (baseLevel, bs) ← getN 1 bs
  let v : Vessel :=
    { gap, listLimit, trimLo, trimHi, heavyThreshold, heelOn, heelOff, heelSpan, samplePeriod, agePeriod, ageLimit,
      baseLevel }
  if bs.isEmpty && v.inRanges then some v else none

/-- The ranges of a DECKS record (12.1). -/
def DeckFixed.inRanges (d : DeckFixed) : Bool :=
  inRange 100 60000 d.cap && inRange 0 20000 d.reserve && inRange 0 100 d.warnOn && inRange 0 100 d.warnOff

/-- A DECKS record (6 bytes). -/
def readDeckFixed (bs : List Byte) : Option (DeckFixed × List Byte) := do
  let (cap, bs) ← getN 2 bs
  let (reserve, bs) ← getN 2 bs
  let (warnOn, bs) ← getN 1 bs
  let (warnOff, bs) ← getN 1 bs
  let d : DeckFixed := { cap, reserve, warnOn, warnOff }
  if d.inRanges then some (d, bs) else none

/-- What is left after the records of a section: nothing. -/
def exactly {α : Type} (p : α × List Byte) : Option α := if p.2.isEmpty then some p.1 else none

/-- The DECKS section: four records. -/
def readDecks (bs : List Byte) : Option (List DeckFixed) := (readMany readDeckFixed 4 bs).bind exactly

/-- The ranges of a LANES record (R23), with the outer end of the lane within the vessel (12.1). -/
def LaneFixed.inRanges (l : LaneFixed) : Bool :=
  inRange 100 2000 l.length && intInRange (-1000) 1000 l.xInner &&
    intInRange (-1000) 1000 (l.xInner + l.dir.sign * l.length) && intInRange (-200) 200 l.y &&
    inRange 0 2 l.widthClass && inRange 0 3 l.heightClass && inRange 1 400 l.axleLimit

/-- A LANES record (13 bytes). -/
def readLaneFixed (bs : List Byte) : Option (LaneFixed × List Byte) := do
  let (d, bs) ← getN 1 bs
  let deck ← ofCode allDecks d
  let (r, bs) ← getN 1 bs
  let ramp ← ofCode rampNames r
  let (length, bs) ← getN 2 bs
  let (c, bs) ← getN 1 bs
  let dir ← ofCode Direction.names c
  let (xInner, bs) ← getInt 2 bs
  let (y, bs) ← getInt 2 bs
  let (widthClass, bs) ← getN 1 bs
  let (heightClass, bs) ← getN 1 bs
  let (axleLimit, bs) ← getN 2 bs
  let l : LaneFixed := { deck, ramp, length, dir, xInner, y, widthClass, heightClass, axleLimit }
  if l.inRanges then some (l, bs) else none

/-- The LANES section: the lane count, then that many records. -/
def readLanes (bs : List Byte) : Option (List LaneFixed) := do
  let (n, bs) ← getN 1 bs
  let p ← readMany readLaneFixed n bs
  if inRange 1 96 n then exactly p else none

/-- The ranges of a RAMPS record (12.1). -/
def RampFixed.inRanges (r : RampFixed) : Bool :=
  inRange 50 5000 r.budget && inRange 10 600 r.intervalPeriod && inRange 0 15 r.ratio && inRange 1 4 r.depth &&
    inRange 30 900 r.callTimeout && inRange 10 100 r.crossingGap && inRange 0 255 r.plateZero &&
    inRange 1 400 r.plateScale && inRange 0 25 r.tolerance && inRange 0 255 r.gradLimit && inRange 0 20 r.gradRise &&
    inRange 0 20 r.gradFall && inRange 1 256 r.gateOn && inRange 0 255 r.gateOff

/-- A RAMPS record (19 bytes). -/
def readRampFixed (bs : List Byte) : Option (RampFixed × List Byte) := do
  let (budget, bs) ← getN 2 bs
  let (intervalPeriod, bs) ← getN 2 bs
  let (ratio, bs) ← getN 1 bs
  let (depth, bs) ← getN 1 bs
  let (callTimeout, bs) ← getN 2 bs
  let (crossingGap, bs) ← getN 1 bs
  let (plateZero, bs) ← getN 1 bs
  let (plateScale, bs) ← getN 2 bs
  let (tolerance, bs) ← getN 1 bs
  let (gradLimit, bs) ← getN 1 bs
  let (gradRise, bs) ← getN 1 bs
  let (gradFall, bs) ← getN 1 bs
  let (gateOn, bs) ← getN 2 bs
  let (gateOff, bs) ← getN 1 bs
  let r : RampFixed :=
    { budget, intervalPeriod, ratio, depth, callTimeout, crossingGap, plateZero, plateScale, tolerance, gradLimit,
      gradRise, gradFall, gateOn, gateOff }
  if r.inRanges then some (r, bs) else none

/-- The RAMPS section: ramp A, then ramp B. -/
def readRamps (bs : List Byte) : Option (PerRamp RampFixed) := do
  let (a, bs) ← readRampFixed bs
  let (b, bs) ← readRampFixed bs
  exactly (⟨a, b⟩, bs)

/-- A STATIONS entry (4 bytes); every field is range-checked whatever the role (R189). -/
def readStation (bs : List Byte) : Option (Station × List Byte) := do
  let (r, bs) ← getN 1 bs
  let role ← ofCode Role.names r
  let (level, bs) ← getN 1 bs
  let (ceiling, bs) ← getN 1 bs
  let (m, bs) ← getN 1 bs
  let mask ← readDeckSet m
  if inRange 0 7 level && inRange 0 7 ceiling then some ({ role, level, ceiling, mask }, bs) else none

/-- The STATIONS section: stations 1 to 30. -/
def readStations (bs : List Byte) : Option (List Station) := (readMany readStation 30 bs).bind exactly

/-- A HAZARDS entry (3 bytes): the priority is an indicator (13.3). -/
def readHazard (bs : List Byte) : Option (HazardEntry × List Byte) := do
  let (p, bs) ← getN 1 bs
  let (seg, bs) ← getN 1 bs
  let (d, bs) ← getN 1 bs
  let decks ← readDeckSet d
  if inRange 0 1 p && inRange 0 3 seg then some ({ priority := p == 1, seg, decks }, bs) else none

/-- The HAZARDS section: codes 1 to 63. -/
def readHazards (bs : List Byte) : Option (List HazardEntry) := (readMany readHazard 63 bs).bind exactly

/-! ## The header (R181, R189) -/

/-- An entry of the section table: it must name one of the six sections. -/
def readEntry (bs : List Byte) : Option (SectionEntry × List Byte) := do
  let (i, bs) ← getN 1 bs
  let id ← ofCode SectionId.names i
  let (start, bs) ← getN 3 bs
  let (length, bs) ← getN 2 bs
  let (crc, bs) ← getN 2 bs
  if id = .header then none else some ({ id, start, length, crc := BitVec.ofNat 16 crc }, bs)

/-- The six sections, in the order in which they are read. -/
def sectionIds : List SectionId := [.vessel, .decks, .lanes, .ramps, .stations, .hazards]

/-- The section table of a header (bytes 4 to 51), when it names each of the six ids once. -/
def sectionTable (header : List Byte) : Option (List SectionEntry) :=
  match readMany readEntry 6 (header.drop 4) with
  | some (es, _) => if sectionIds.all fun i => es.any fun e => e.id == i then some es else none
  | none => none

/-- A section's entry. -/
def entryOf (es : List SectionEntry) (i : SectionId) : SectionEntry :=
  (es.find? fun e => e.id == i).getD { id := i, start := 0, length := 0, crc := 0 }

/-- A section's length; that of LANES from the lane count (R181, R189). -/
def sectionLength (laneCount : Nat) : SectionId → Nat
  | .header => Config.headerBytes
  | .vessel => 27
  | .decks => 24
  | .lanes => 1 + 13 * laneCount
  | .ramps => 38
  | .stations => 120
  | .hazards => 189

/-- The signature check (R181): it is the first check, and what R184 keeps. -/
def signed (header : List Byte) : Bool := beNat (header.take 2) == 0x7E52

/-- The lane count, in the first byte of LANES. -/
def laneCountAt (m : List Host.Cell) (es : List SectionEntry) : Nat := (memGet m (entryOf es .lanes).start).toNat

/-- The checks of R181 after the signature: version, CRC, ids, lengths, no overlap with the header. The section table
of a header that passes them. -/
def headerTable (m : List Host.Cell) (header : List Byte) : Option (List SectionEntry) :=
  match sectionTable header with
  | some es =>
    let n := laneCountAt m es
    if signed header && (header.getD 2 0 == 1) && (beNat (header.drop 52) == (crc16 (header.take 52)).toNat) &&
        inRange 1 96 n &&
        es.all (fun e => decide (e.length = sectionLength n e.id) && decide (Config.headerBytes ≤ e.start))
    then some es else none
  | none => none

/-- The header as it stands in the memory. -/
def headerIn (m : List Host.Cell) : List Byte := memReads m 0 0 Config.headerBytes

/-! ## A load (R182) -/

/-- A read on the memory link: command 0x03 and a three-byte address (R182). -/
def readTransfer (start length : Nat) : Transfer := { sent := 0x03 :: beBytes 3 start, returned := length }

/-- A section passes when its CRC does and every field lies in its range (R181). What is read past the memory's last
address is free, for each section on its own reading (log entry 8). -/
def readSection {α : Type} (m : List Host.Cell) (count : Nat) (es : List SectionEntry) (i : SectionId)
    (parse : List Byte → Option α) : Option α :=
  let e := entryOf es i
  let bs := memReads m (count + i.code) e.start e.length
  if crc16 bs = e.crc then parse bs else none

/-- Names the section that failed. -/
def named {α : Type} (i : SectionId) : Option α → Except SectionId α
  | some x => .ok x
  | none => .error i

/-- Step 2 of a load: the five mandatory sections in order, or the first that fails. -/
def loadSections (m : List Host.Cell) (count : Nat) (es : List SectionEntry) : Except SectionId Profile := do
  let vessel ← named .vessel (readSection m count es .vessel readVessel)
  let decks ← named .decks (readSection m count es .decks readDecks)
  let lanes ← named .lanes (readSection m count es .lanes readLanes)
  let ramps ← named .ramps (readSection m count es .ramps readRamps)
  let stations ← named .stations (readSection m count es .stations readStations)
  .ok { vessel, decks, lanes, ramps, stations }

/-- What a load finds: how it ends, and the memory link's transfers. -/
structure LoadResult where
  startUp     : StartUp
  failSection : SectionId
  sigPassed   : Bool
  table       : Option (List SectionEntry)
  profile     : Option Profile
  hazards     : Option (List HazardEntry)
  bus         : List Transfer
deriving DecidableEq, Repr

/-- A load that ends at step 1 (R182). -/
def LoadResult.atHeader (startUp : StartUp) (sigPassed : Bool) (bus : List Transfer) : LoadResult :=
  { startUp := startUp, failSection := .header, sigPassed := sigPassed, table := none, profile := none,
    hazards := none, bus := bus }

/-- The memory link's reads of a header, at step 1 of a load and after a header write (R182, R185): the header, and the
lane count whenever the section table names the six ids once. DESIGN CHOICE (log entry 21), at a load: the lane count is
read even where the version or the header CRC already fails, for R181 does not order its checks and R182 says only that
PST stops at the first failure. DESIGN CHOICE (log entry 21), after a header write: where the table does not name the six
ids once, the header is read alone, for R185 does not say what is then read as the lane count. -/
def headerTransfers (header : List Byte) : List Transfer :=
  readTransfer 0 Config.headerBytes ::
    (match sectionTable header with
      | some es => [readTransfer (entryOf es .lanes).start 1]
      | none => [])

/-- The memory link's reads of sections. -/
def sectionTransfers (es : List SectionEntry) (ids : List SectionId) : List Transfer :=
  ids.map fun i => readTransfer (entryOf es i).start (entryOf es i).length

/-- The mandatory sections, in the order in which they are read. -/
def mandatoryIds : List SectionId := [.vessel, .decks, .lanes, .ramps, .stations]

/-- A load, by the table of R182. -/
def loadImage (m : List Host.Cell) (count : Nat) : LoadResult :=
  let header := headerIn m
  if header.all (· == Config.blankByte) then LoadResult.atHeader .noMemory false [readTransfer 0 Config.headerBytes]
  else if signed header = false then
    LoadResult.atHeader .badSignature false [readTransfer 0 Config.headerBytes]
  else
    match headerTable m header with
    | none => LoadResult.atHeader .badHeader true (headerTransfers header)
    | some es =>
      match loadSections m count es with
      | .error i =>
        { startUp := .badSection, failSection := i, sigPassed := true, table := some es, profile := none,
          hazards := none,
          bus := headerTransfers header ++ sectionTransfers es (mandatoryIds.takeWhile (· != i) ++ [i]) }
      | .ok p =>
        let selected := (header.getD 3 0).getLsbD 0
        { startUp := .loaded, failSection := .header, sigPassed := true, table := some es, profile := some p,
          hazards := if selected then readSection m count es .hazards readHazards else none,
          bus := headerTransfers header ++ sectionTransfers es (mandatoryIds ++ if selected then [.hazards] else []) }

end Sys2Proof.Machine
end

