-- ==== Sys2Proof/Machine/Store.lean ====
section
/-!
DEFINITION. The Profile Store's commands (chapter 12): the end of a load, writes, reloads; and hardware reset.
-/

namespace Sys2Proof.Machine

open Sys2Proof

/-! ## The end of a load (R182, R183, R187) -/

/-- A ramp's settings at the end of a load: from RAMPS, or the values for NO_PROFILE; the remaining budget becomes B and
the credit 0 (R123, R182). -/
def RampRun.loaded (f : Option RampFixed) (x : RampRun) : RampRun :=
  match f with
  | some f => { x with ratio := f.ratio, depth := f.depth, budget := f.budget, credit := 0, remaining := f.budget }
  | none => { x with ratio := 0, depth := 1, budget := 50, credit := 0, remaining := 50 }

/-- How many readings of the memory a load is counted as: one for each section id (log entry 8). -/
def loadReadings : Nat := 7

/-- What a load puts into the Profile Store (R89, R182, R185). -/
def ProfileStore.loaded (x : LoadResult) (p : ProfileStore) : ProfileStore :=
  { p with
    shadow := x.profile
    hazards := x.hazards.getD (List.replicate 63 HazardEntry.default)
    hazardDefaults := x.hazards.isNone
    startUp := x.startUp
    failSection := x.failSection
    sigPassed := x.sigPassed
    writeTable := x.table.or p.writeTable
    bus := x.bus }

/-- The response to the PROFILE_RELOAD that a load serves, if one waits (R187). -/
def State.answerLoad (s : State) : State :=
  match s.pst.loadTicket with
  | some t =>
    (s.setPst { s.pst with loadTicket := none }).fill t
      (.profileReloaded s.session s.pst.startUp s.pst.failSection s.pst.hazardDefaults)
  | none => s

/-- The load ends: the Profile Store, the ramp settings, the session; in NO_VESSEL the first sample; the response. -/
def State.endLoad (x : LoadResult) (gradA gradB : BitVec 8) (incl : BitVec 10) (s : State) : State :=
  let ramps := x.profile.map (·.ramps)
  let s1 := (s.setPst (s.pst.loaded x)).setFreeCount (s.freeCount + loadReadings)
  let s2 := s1.setRamp .a ((s1.ramp .a).loaded (ramps.map (·.a)))
  let s3 := s2.setRamp .b ((s2.ramp .b).loaded (ramps.map (·.b)))
  let s4 :=
    if x.profile.isSome then ((s3.setSession .noVessel).takeSample gradA gradB incl).startSampling
    else s3.setSession .noProfile
  s4.answerLoad

/-- LOAD_END (R182): in LOADING, the load in progress reads the memory and ends. -/
def execLoadEnd (gradA gradB : BitVec 8) (incl : BitVec 10) (s : State) : Host.Outcome State Fault Refusal :=
  if s.session = .loading then finish (s.endLoad (loadImage s.pst.mem s.freeCount) gradA gradB incl) else notNow s

/-! ## Writing the memory (R184 to R186) -/

/-- The sections that PROT protects (R184). -/
def protectable : SectionId → Bool
  | .header | .vessel | .decks | .lanes | .ramps => true
  | .stations | .hazards => false

/-- The target address of a chunk, when it is known and the chunk fits (R185). -/
def ProfileStore.targetAddress (p : ProfileStore) (q : ChunkRequest) : Option Nat :=
  match q.target with
  | .header => if q.offset + q.bytes.length ≤ Config.headerBytes then some q.offset else none
  | i =>
    match p.writeTable with
    | some es =>
      let e := entryOf es i
      if q.offset + q.bytes.length ≤ e.length then some (e.start + q.offset) else none
    | none => none

/-- PROFILE_WRITE at the Profile Store, in the order of R185. -/
def ownProfileWrite (prot : Bool) (t : Ticket) (q : ChunkRequest) (s : State) : State :=
  if s.pst.write.isSome then s.refuse t .busy
  else if prot ∧ s.pst.sigPassed ∧ protectable q.target then s.refuse t .writeProtected
  else
    match s.pst.targetAddress q with
    | none => s.refuse t .badField
    | some a =>
      s.setPst
        { s.pst with
          write := some { ticket := t, target := q.target, offset := q.offset, address := a, bytes := q.bytes } }

/-- PROFILE_WRITE (R185). -/
def execProfileWrite (prot : Bool) (s : State) : Host.Outcome State Fault Refusal :=
  handle .profileWrite readChunk noDeck (ownProfileWrite prot) s

/-- Splits a chunk at page boundaries, in address order (R185). An address is sent as its low three bytes
(log entry 9). -/
def pageParts : Nat → Nat → List Byte → List (Nat × List Byte)
  | 0, _, _ => []
  | fuel + 1, addr, bs =>
    if bs.isEmpty then []
    else
      let room := Config.pageBytes - addr % Config.pageBytes
      (addr % Config.memSize, bs.take room) :: pageParts fuel (addr + room) (bs.drop room)

/-- The parts of a write: one to three. -/
def MemWrite.parts (w : MemWrite) : List (Nat × List Byte) := pageParts Config.maxParts w.address w.bytes

/-- Stores whole parts. -/
def storeParts (ps : List (Nat × List Byte)) (m : List Host.Cell) : List Host.Cell :=
  ps.foldl (fun m p => memPuts p.1 p.2 m) m

/-- A byte of a page that was being programmed: each bit is the old one or the new one (R186). -/
def tornByte (mix old new : Byte) : Byte := (old &&& ~~~mix) ||| (new &&& mix)

/-- The bytes of a page whose programming did not finish: `mix` says which bits are new (R186; log entry 10). -/
def tornBytes (m : List Host.Cell) (addr : Nat) (new mix : List Byte) : List Byte :=
  new.zipIdx.map fun p => tornByte (mix.getD p.2 0) (memGet m (addr + p.2)) p.1

/-- The memory after a write that stopped with `done` parts done and the next one in progress (R185, R186). -/
def storePartly (done : Nat) (mix : List Byte) (ps : List (Nat × List Byte)) (m : List Host.Cell) : List Host.Cell :=
  let m1 := storeParts (ps.take done) m
  match ps.drop done with
  | [] => m1
  | p :: _ => memPuts p.1 (tornBytes m1 p.1 p.2 mix) m1

/-- What the memory stores of the bytes carried, as the operand tells it (log entry 10). -/
def storedBytes (stored carried : List Byte) : List Byte := carried.zipIdx.map fun p => stored.getD p.2 p.1

/-- The transfers that write one part: write-enable, page program, and the status read that ends the wait (R185). -/
def partTransfers (p : Nat × List Byte) : List Transfer :=
  [{ sent := [0x06], returned := 0 }, { sent := 0x02 :: (beBytes 3 p.1 ++ p.2), returned := 0 },
   { sent := [0x05], returned := 1 }]

/-- Bytes in a run of parts. -/
def partBytes (ps : List (Nat × List Byte)) : Nat := (ps.map fun p => p.2.length).sum

/-- A header write that ends at header byte 53 makes PST read the header again (R185). -/
def MemWrite.endsHeader (w : MemWrite) : Bool :=
  decide (w.target = .header) && decide (w.offset + w.bytes.length = Config.headerBytes)

/-- The end of a write whose parts were all done (R185): the read-back, the write table, the response. Which reads the
memory link shows when the header is read again and its table does not name the six ids once is a DESIGN CHOICE: the
header alone (log entry 21). -/
def State.endWrite (w : MemWrite) (stored : List Byte) (s : State) : State :=
  let parts := w.parts
  let m := storeParts (pageParts Config.maxParts w.address (storedBytes stored w.bytes)) s.pst.mem
  let start := w.address % Config.memSize
  let matched := decide (memReads m s.freeCount start w.bytes.length = w.bytes)
  let header := headerIn m
  let reread := matched && w.endsHeader
  let s1 := (s.setPst
    { s.pst with
      write := none
      mem := m
      writeTable := if reread then (headerTable m header).or s.pst.writeTable else s.pst.writeTable
      bus := parts.flatMap partTransfers ++ [readTransfer start w.bytes.length] ++
        if reread then headerTransfers header else [] }).setFreeCount (s.freeCount + 1)
  s1.fill w.ticket (if matched then .profileWritten w.address w.bytes.length else .writeFailed (partBytes parts))

/-- PROFILE_WRITE_END (R185). -/
def execProfileWriteEnd (stored : List Byte) (s : State) : Host.Outcome State Fault Refusal :=
  match s.pst.write with
  | some w => finish (s.endWrite w stored)
  | none => notNow s

/-- The end of a write at its limit (R185): the parts done stay written, the page in progress is torn, and the response
counts the bytes of the parts completed. At least one part is not completed. -/
def State.failWrite (w : MemWrite) (partsDone : Nat) (mix : List Byte) (s : State) : State :=
  let parts := w.parts
  let n := min partsDone (parts.length - 1)
  let m := storePartly n mix parts s.pst.mem
  (s.setPst
    { s.pst with write := none, mem := m, bus := (parts.take (n + 1)).flatMap partTransfers }).fill w.ticket
      (.writeFailed (partBytes (parts.take n)))

/-- WRITE_TIMEOUT (R185). -/
def execWriteTimeout (partsDone : Nat) (mix : List Byte) (s : State) : Host.Outcome State Fault Refusal :=
  match s.pst.write with
  | some w => finish (s.failWrite w partsDone mix)
  | none => notNow s

/-! ## Reloading (R187) -/

/-- PROFILE_RELOAD at the Profile Store (R89, R150, R182, R187). -/
def ownProfileReload (t : Ticket) (_ : Unit) (s : State) : State :=
  if s.pst.write.isSome then s.refuse t .busy
  else
    let s1 := (s.setSession .loading).modLink fun k => { k with rxBuffer := [] }
    s1.stopMonitors.setPst
      { s.pst with
        shadow := none
        hazards := List.replicate 63 HazardEntry.default
        hazardDefaults := true
        loadTicket := some t }

/-- PROFILE_RELOAD (R187). -/
def execProfileReload (s : State) : Host.Outcome State Fault Refusal :=
  handle .profileReload readEmpty noDeck ownProfileReload s

/-! ## Hardware reset (R161, R169, R186) -/

/-- The link rate that the straps select (R169). -/
def strapRate (baud1 baud0 : Bool) : Nat :=
  match baud1, baud0 with
  | false, false => 115200
  | false, true => 230400
  | true, false => 460800
  | true, true => 921600

/-- The memory as a hardware reset leaves it: a write in flight is abandoned where it stood (R186). -/
def ProfileStore.memAtReset (partsDone : Nat) (mix : List Byte) (p : ProfileStore) : List Host.Cell :=
  match p.write with
  | some w => storePartly partsDone mix w.parts p.mem
  | none => p.mem

/-- HARDWARE_RESET (R161): every block in its reset state, at the straps' rate. The memory outside the part keeps what it
holds, and the waiting commands keep waiting. -/
def execHardwareReset (baud1 baud0 : Bool) (partsDone : Nat) (mix : List Byte) (s : State) :
    Host.Outcome State Fault Refusal :=
  finish (State.resetWith (strapRate baud1 baud0) (s.pst.memAtReset partsDone mix) s.pending s.freeCount)

end Sys2Proof.Machine
end

