-- ==== Sys2Proof/Machine/Sessions.lean ====
section
/-!
DEFINITION. The Session Controller's four requests (chapter 10).
-/

namespace Sys2Proof.Machine

open Sys2Proof

/-- How many records a predicate holds of. -/
def State.countUnits (s : State) (p : UnitRecord → Bool) : Nat := (s.units.filter p).length

/-- Applies a change to each deck. -/
def State.forDecks (f : Deck → State → State) (s : State) : State := allDecks.foldl (fun s d => f d s) s

/-- Applies a change to each ramp. -/
def State.forRamps (f : Ramp → State → State) (s : State) : State := f .b (f .a s)

/-! ## VESSEL_OPEN (R163) -/

/-- A ramp at VESSEL_OPEN (R123, R163): a change of state or gate hold sets its flag. -/
def State.freshRamp (r : Ramp) (s : State) : State :=
  let s1 := (s.setRampState r .closed).setGate r false
  let f := s.rampFixed r
  s1.setRamp r
    { RampRun.reset with ratio := f.ratio, depth := f.depth, budget := f.budget, remaining := f.budget }

/-- A deck at VESSEL_OPEN: fill 0, and the warning state set from it (R43, R163). -/
def State.freshDeck (d : Deck) (s : State) : State := (s.setDeck d { s.deck d with fill := 0 }).examineWarning d

/-- VESSEL_OPEN at the Session Controller (R163). -/
def ownVesselOpen (t : Ticket) (_ : Unit) (s : State) : State :=
  let s1 := ((s.setSession .alongside).setCheckIn []).setAgeing (some s.agePeriodMs)
  let s2 := ((s1.setLanes (Vector.replicate 96 LaneRun.reset)).setStb Stability.reset).setAlc Allocator.reset
  let s3 := s2.forRamps fun r s => (s.freshRamp r).setPlate r Plate.reset
  let s4 := s3.forDecks State.freshDeck
  s4.fill t (.vesselOpened (s4.countUnits fun u => decide (u.status = .booked)))

/-- VESSEL_OPEN (R163). -/
def execVesselOpen (s : State) : Host.Outcome State Fault Refusal := handle .vesselOpen readEmpty noDeck ownVesselOpen s

/-! ## VESSEL_SECURE (R164 to R166) -/

/-- The number of units CALLED or CROSSING (R164). -/
def State.inFlight (s : State) : Nat :=
  s.countUnits fun u => decide (u.status = .called) || decide (u.status = .crossing)

/-- Either plate is WEIGHING (R164). -/
def State.anyWeighing (s : State) : Bool := allRamps.any fun r => decide ((s.plate r).state = .weighing)

/-- A status that is shut out (R165). -/
def Status.shutsOut : Status → Bool
  | .waiting | .unplaced | .lapsed | .held => true
  | .booked | .called | .crossing | .aboard | .shutOut => false

/-- The units that are shut out, in the order of the check-in order list (R165). -/
def State.toShutOut (s : State) : List Ref :=
  s.checkIn.filter fun ref => match s.statusOf ref with | some x => x.shutsOut | none => false

/-- A unit is shut out, by its status (R165). -/
def State.shutOut (s : State) (ref : Ref) : State :=
  let s1 :=
    match s.statusOf ref with
    | some .waiting => s.release ref
    | some .unplaced => s.leaveUnplaced ref
    | _ => s
  s1.modUnit ref fun u => { u with status := .shutOut, lane := none }

/-- A ramp at VESSEL_SECURE (R166): an OPEN ramp enters CLOSED, an IDLE plate DISARMED, the timers stop, the gate hold is
released. -/
def State.secureRamp (r : Ramp) (s : State) : State :=
  let s1 := (s.setRampState r .closed).setGate r false
  let s2 := s1.setRamp r { s1.ramp r with intervalTimer := none, callTimer := none }
  s2.setPlate r { s2.plate r with state := .disarmed }

/-- VESSEL_SECURE at the Session Controller, in the order of R164. -/
def ownVesselSecure (t : Ticket) (_ : Unit) (s : State) : State :=
  if 0 < s.inFlight ∨ s.anyWeighing then s.fill t (.secureInFlight s.inFlight)
  else if s.alc.service ≠ [] ∨ s.alc.walk ≠ [] then s.refuse t .busy
  else
    let refs := s.toShutOut
    let s1 := refs.foldl State.shutOut s
    let s2 := ((s1.setSession .secured).setAgeing none).forRamps State.secureRamp
    s2.fill t (.vesselSecured refs.length)

/-- VESSEL_SECURE (R164). -/
def execVesselSecure (s : State) : Host.Outcome State Fault Refusal :=
  handle .vesselSecure readEmpty noDeck ownVesselSecure s

/-! ## VESSEL_REOPEN (R167) -/

/-- The SHUT_OUT units, in the order of the check-in order list (R167). -/
def State.shutOutRefs (s : State) : List Ref := s.checkIn.filter fun ref => decide (s.statusOf ref = some .shutOut)

/-- VESSEL_REOPEN at the Session Controller (R167). -/
def ownVesselReopen (t : Ticket) (_ : Unit) (s : State) : State :=
  let refs := s.shutOutRefs
  let s1 := refs.foldl (fun s ref => (s.setStatus ref .unplaced).joinUnplaced ref) s
  let s2 := ((s1.setSession .alongside).setAgeing (some s.agePeriodMs)).triggerWalk
  s2.fill t (.vesselReopened refs.length)

/-- VESSEL_REOPEN (R167). -/
def execVesselReopen (s : State) : Host.Outcome State Fault Refusal :=
  handle .vesselReopen readEmpty noDeck ownVesselReopen s

/-! ## VESSEL_RELEASE (R168) -/

/-- A deck at VESSEL_RELEASE: fill 0, the warning released; a change sets its flag (R43, R168). -/
def State.releaseDeck (d : Deck) (s : State) : State := (s.setDeck d { s.deck d with fill := 0 }).setWarning d false

/-- A ramp at VESSEL_RELEASE (R123, R168): its settings, credit and remaining budget stay. -/
def State.releaseRamp (r : Ramp) (s : State) : State :=
  let s1 := (s.setRampState r .closed).setGate r false
  s1.setRamp r { s1.ramp r with prio := [], ord := [], called := [] }

/-- VESSEL_RELEASE at the Session Controller (R168): every record that is not BOOKED is retired. -/
def ownVesselRelease (t : Ticket) (_ : Unit) (s : State) : State :=
  let kept := s.units.filter fun u => decide (u.status = .booked)
  let s1 := ((s.setSession .noVessel).setUnits kept).setCheckIn []
  let s2 := (s1.setLanes (Vector.replicate 96 LaneRun.reset)).setStb Stability.reset
  let s3 := (s2.forDecks State.releaseDeck).forRamps State.releaseRamp
  s3.fill t (.vesselReleased (s.units.length - kept.length) kept.length)

/-- VESSEL_RELEASE (R168). -/
def execVesselRelease (s : State) : Host.Outcome State Fault Refusal :=
  handle .vesselRelease readEmpty noDeck ownVesselRelease s

end Sys2Proof.Machine
end

