-- ==== Sys2Proof/Machine/Queries.lean ====
section
/-!
DEFINITION. The four queries (R21, R44, R122, R180).
-/

namespace Sys2Proof.Machine

open Sys2Proof

/-- A run of a sequence: at most twelve entries from a start index (R44, R122). -/
def runOf {α : Type} (start : Nat) (xs : List α) : List α := (xs.drop start).take Config.runEntries

/-- Entries remain beyond the run (R44, R122). -/
def moreOf {α : Type} (start : Nat) (xs : List α) : Bool := decide (start + Config.runEntries < xs.length)

/-- QUERY_UNIT at the Unit Table (R21). -/
def ownQueryUnit (t : Ticket) (ref : Ref) (s : State) : State :=
  s.withUnit false t ref fun u => s.fill t (.unitReport u)

/-- QUERY_UNIT (R21). -/
def execQueryUnit (s : State) : Host.Outcome State Fault Refusal := handle .queryUnit readRef deckOfRef ownQueryUnit s

/-- The entries of QUERY_LANE: the occupants in offset order, then the reservations in list order with their projected
offsets (R44). -/
def State.laneEntries (s : State) (l : Lane) : List LaneEntry :=
  ((s.lane l).occupants.map fun o => { ref := o.ref, status := .aboard, offset := o.offset }) ++
    (s.projection l).map fun p =>
      { ref := p.ref, status := (s.statusOf p.ref).getD .waiting, offset := p.offset }

/-- What QUERY_LANE reports (R44). -/
def State.laneReport (s : State) (l : Lane) (start : Nat) : LaneReport :=
  { fixed := s.laneFixed l
    state := (s.lane l).state
    physicalEnd := s.physicalEnd l
    projectedEnd := s.projectedEnd l
    free := s.freeLength l
    occupants := (s.lane l).occupants.length
    reservations := (s.lane l).reservations.length
    obstructions := (s.lane l).obstructions
    more := moreOf start (s.laneEntries l)
    run := runOf start (s.laneEntries l) }

/-- QUERY_LANE at the Lane Map (R44). -/
def ownQueryLane (t : Ticket) (q : Lane × Nat) (s : State) : State := s.fill t (.laneReport (s.laneReport q.1 q.2))

/-- The deck of a lane query (R174). -/
def deckOfLaneQuery (s : State) (q : Lane × Nat) : Option Deck := deckOfLane s q.1

/-- QUERY_LANE (R44). -/
def execQueryLane (s : State) : Host.Outcome State Fault Refusal :=
  handle .queryLane readLaneQuery deckOfLaneQuery ownQueryLane s

/-- The list a QUERY_QUEUE names (R122). -/
def RampRun.named (x : RampRun) : ListName → List Ref
  | .priority => x.prio
  | .ordinary => x.ord
  | .called => x.called

/-- An entry of QUERY_QUEUE (R122): a queue entry says whether it is eligible, a called-list entry whether it is the
head. -/
def State.queueEntry (s : State) (r : Ramp) (list : ListName) (ref : Ref) : QueueEntry :=
  let u := s.unit? ref
  { ref := ref
    lane := u.bind (·.lane)
    weight := (u.map (·.decl.weight)).getD 0
    status := (u.map (·.status)).getD .waiting
    eligible := decide (list ≠ .called) && s.eligible r ref
    head := decide (list = .called) && decide ((s.ramp r).called.head? = some ref) }

/-- What QUERY_QUEUE reports (R122). -/
def State.queueReport (s : State) (q : QueueRequest) : QueueReport :=
  let x := s.ramp q.ramp
  let entries := x.named q.named
  { state := x.state
    ratio := x.ratio
    depth := x.depth
    budget := x.budget
    credit := x.credit
    remaining := x.remaining
    gateHold := x.gateHold
    waiting := x.waiting
    length := entries.length
    more := moreOf q.start entries
    run := (runOf q.start entries).map (s.queueEntry q.ramp q.named) }

/-- QUERY_QUEUE at the Call Scheduler (R122). -/
def ownQueryQueue (t : Ticket) (q : QueueRequest) (s : State) : State := s.fill t (.queueReport (s.queueReport q))

/-- QUERY_QUEUE (R122). The marshal deck mask does not apply to it. -/
def execQueryQueue (s : State) : Host.Outcome State Fault Refusal :=
  handle .queryQueue readQueueQuery noDeck ownQueryQueue s

/-- A ramp's share of QUERY_STATUS (R180). -/
def State.rampReport (s : State) (r : Ramp) : RampReport :=
  let x := s.ramp r
  { state := x.state
    plate := (s.plate r).state
    remaining := x.remaining
    called := x.called.length
    waiting := x.waiting
    gateHold := x.gateHold
    gradient := (s.comp r).gradient
    comparator := (s.comp r).state }

/-- What QUERY_STATUS reports (R151, R180). -/
def State.statusReport (s : State) : StatusReport :=
  { session := s.session
    startUp := s.pst.startUp
    failSection := s.pst.failSection
    hazardDefaults := s.pst.hazardDefaults
    ml := s.stb.ml
    mt := s.stb.mt
    bl := s.stb.bl
    bt := s.stb.bt
    load := s.stb.load
    warnings := s.decks.map (·.warning)
    ramps := ⟨s.rampReport .a, s.rampReport .b⟩
    heel := s.hlm.heel
    heelHold := s.hlm.hold
    units := s.units.length
    freeNotices := s.freeNotices
    sticky := s.link.sticky }

/-- QUERY_STATUS at the Link Port (R180). -/
def ownQueryStatus (t : Ticket) (_ : Unit) (s : State) : State := s.fill t (.statusReport s.statusReport)

/-- QUERY_STATUS (R180). -/
def execQueryStatus (s : State) : Host.Outcome State Fault Refusal :=
  handle .queryStatus readEmpty noDeck ownQueryStatus s

end Sys2Proof.Machine
end

