-- ==== Sys2Proof/Machine/Dispatch.lean ====
section
/-!
DEFINITION. The meaning of every command: one arm for each row of spec/opcode_table.json.
-/

namespace Sys2Proof.Machine

open Sys2Proof

def exec (i : Instr) (s : State) : Host.Outcome State Fault Refusal :=
  match i with
  | .hardwareReset baud1 baud0 partsDone mix => Sys2Proof.Machine.execHardwareReset baud1 baud0 partsDone mix s
  | .loadEnd gradA gradB incl => Sys2Proof.Machine.execLoadEnd gradA gradB incl s
  | .frameComplete bytes => Sys2Proof.Machine.execFrameComplete bytes s
  | .framingError bytes => Sys2Proof.Machine.execFramingError bytes s
  | .badKindRequest => Sys2Proof.Machine.execBadKindRequest s
  | .vesselOpen => Sys2Proof.Machine.execVesselOpen s
  | .vesselSecure => Sys2Proof.Machine.execVesselSecure s
  | .vesselReopen => Sys2Proof.Machine.execVesselReopen s
  | .vesselRelease => Sys2Proof.Machine.execVesselRelease s
  | .book => Sys2Proof.Machine.execBook s
  | .amend => Sys2Proof.Machine.execAmend s
  | .cancel => Sys2Proof.Machine.execCancel s
  | .checkIn => Sys2Proof.Machine.execCheckIn s
  | .present => Sys2Proof.Machine.execPresent s
  | .holdUnit => Sys2Proof.Machine.execHoldUnit s
  | .releaseHold => Sys2Proof.Machine.execReleaseHold s
  | .place => Sys2Proof.Machine.execPlace s
  | .discharge => Sys2Proof.Machine.execDischarge s
  | .rampOpen => Sys2Proof.Machine.execRampOpen s
  | .rampClose => Sys2Proof.Machine.execRampClose s
  | .setRamp => Sys2Proof.Machine.execSetRamp s
  | .skip => Sys2Proof.Machine.execSkip s
  | .laneClose => Sys2Proof.Machine.execLaneClose s
  | .laneOpen => Sys2Proof.Machine.execLaneOpen s
  | .obstructionAdd => Sys2Proof.Machine.execObstructionAdd s
  | .obstructionClear => Sys2Proof.Machine.execObstructionClear s
  | .setBallast => Sys2Proof.Machine.execSetBallast s
  | .clearFlags => Sys2Proof.Machine.execClearFlags s
  | .profileWrite prot => Sys2Proof.Machine.execProfileWrite prot s
  | .profileWriteEnd stored => Sys2Proof.Machine.execProfileWriteEnd stored s
  | .writeTimeout partsDone mix => Sys2Proof.Machine.execWriteTimeout partsDone mix s
  | .profileReload => Sys2Proof.Machine.execProfileReload s
  | .queryUnit => Sys2Proof.Machine.execQueryUnit s
  | .queryLane => Sys2Proof.Machine.execQueryLane s
  | .queryQueue => Sys2Proof.Machine.execQueryQueue s
  | .queryStatus => Sys2Proof.Machine.execQueryStatus s
  | .placementServed => Sys2Proof.Machine.execPlacementServed s
  | .retryWalk => Sys2Proof.Machine.execRetryWalk s
  | .walkVisit => Sys2Proof.Machine.execWalkVisit s
  | .redirectSearch => Sys2Proof.Machine.execRedirectSearch s
  | .ageingExpiry => Sys2Proof.Machine.execAgeingExpiry s
  | .call r => Sys2Proof.Machine.execCall r s
  | .intervalTimerExpiry r => Sys2Proof.Machine.execIntervalTimerExpiry r s
  | .callTimerExpiry r => Sys2Proof.Machine.execCallTimerExpiry r s
  | .axleEdge r => Sys2Proof.Machine.execAxleEdge r s
  | .conversionComplete r code => Sys2Proof.Machine.execConversionComplete r code s
  | .gapTimerExpiry r => Sys2Proof.Machine.execGapTimerExpiry r s
  | .sampleTimerExpiry gradA gradB incl => Sys2Proof.Machine.execSampleTimerExpiry gradA gradB incl s
  | .frameSent => Sys2Proof.Machine.execFrameSent s
  | .frameDiscarded bytes => Sys2Proof.Machine.execFrameDiscarded bytes s

end Sys2Proof.Machine
end

