-- ==== Sys2Proof/Safety.lean ====
section
/-!
DEFINITION. The terms in which the statements speak: what a step may change, how a request is handed over and answered,
what becomes of a record, a reservation, a queue; and the laws that every step keeps.
-/

namespace Sys2Proof.Machine

open Sys2Proof

/-! ## What a step may change -/

/-- The parts of State, with each lane, deck and ramp by itself. -/
inductive Block where
  | pending | session | link | units | checkIn | ageing
  | lane (l : Lane) | deck (d : Deck)
  | stb | alc
  | ramp (r : Ramp) | plate (r : Ramp) | comp (r : Ramp)
  | hlm | pst | freeCount
deriving DecidableEq, Repr

/-- A part is the same in two states. -/
def sameBlock (s u : State) : Block → Prop
  | .pending => u.pending = s.pending
  | .session => u.session = s.session
  | .link => u.link = s.link
  | .units => u.units = s.units
  | .checkIn => u.checkIn = s.checkIn
  | .ageing => u.ageing = s.ageing
  | .lane l => u.lane l = s.lane l
  | .deck d => u.deck d = s.deck d
  | .stb => u.stb = s.stb
  | .alc => u.alc = s.alc
  | .ramp r => u.ramp r = s.ramp r
  | .plate r => u.plate r = s.plate r
  | .comp r => u.comp r = s.comp r
  | .hlm => u.hlm = s.hlm
  | .pst => u.pst = s.pst
  | .freeCount => u.freeCount = s.freeCount

/-- The frame: every part that is not listed is the same. -/
def OnlyChanges (bs : List Block) (s u : State) : Prop := ∀ b, b ∉ bs → sameBlock s u b

/-! ## Requests -/

/-- The handler takes `f`, the front frame, as a request of kind `k` that names the deck `deck`, and checks 3 and 4 of R171
pass: the role, the deck mask, the session. -/
structure Handed (k : RequestKind) (deck : Option Deck) (s : State) (f : Frame) (rest : List Frame) : Prop where
  front : s.link.rxBuffer = f :: rest
  slot : s.link.reserved.length + s.link.filled.length < Config.responseSlots
  kind : RequestKind.ofCode f.kind = some k
  role : s.permits f.stn k deck = true
  session : admits s.session k = true

/-- The frame has left the receive buffer and its response is filled in the slot reserved for it (R171, R175). -/
structure Replied (s u : State) (f : Frame) (rest : List Frame) (r : Reply) : Prop where
  buffer : u.link.rxBuffer = rest
  slots : u.link.reserved.Perm s.link.reserved
  filled : u.link.filled = s.link.filled ++ [{ ticket := f.ticket, reply := r }]
  line : u.link.rate = s.link.rate ∧ u.link.rx = s.link.rx ∧ u.link.tx = s.link.tx

/-- The frame has left the receive buffer and its response slot stays reserved (R171). -/
structure Awaited (s u : State) (f : Frame) (rest : List Frame) : Prop where
  buffer : u.link.rxBuffer = rest
  slots : u.link.reserved = s.link.reserved ++ [f.ticket]
  filled : u.link.filled = s.link.filled
  line : u.link.rate = s.link.rate ∧ u.link.rx = s.link.rx ∧ u.link.tx = s.link.tx

/-- No event notice, pending flag or sticky flag has changed. -/
def NoNews (s u : State) : Prop :=
  u.link.notices = s.link.notices ∧ u.link.flags = s.link.flags ∧ u.link.sticky = s.link.sticky

/-- Only the pending flags, the notices and the sticky flags of the link have changed. -/
def OnlyNews (s u : State) : Prop :=
  u.link.rate = s.link.rate ∧ u.link.rx = s.link.rx ∧ u.link.rxBuffer = s.link.rxBuffer ∧
    u.link.reserved = s.link.reserved ∧ u.link.filled = s.link.filled ∧ u.link.tx = s.link.tx

/-- The event notice queue and the sticky flags after notices are queued in order: a notice that finds all sixteen slots
held is dropped and sets NOTICE_LOST (R176). -/
def queued : List Notice → List Notice × Byte → List Notice × Byte
  | [], q => q
  | n :: ns, (q, f) => queued ns (if q.length < Config.noticeSlots then (q ++ [n], f) else (q, f ||| 1))

/-- Exactly these notices were queued, and nothing else touched the notices or the sticky flags. -/
def Notified (s u : State) (ns : List Notice) : Prop :=
  (u.link.notices, u.link.sticky) = queued ns (s.link.notices, s.link.sticky)

/-- The pending flags with some subjects set (R177). -/
def flagged (xs : List Subject) (flags : Vector Bool 9) : Vector Bool 9 :=
  xs.foldl (fun v x => v.set x.index true) flags

/-! ## Requests by kind -/

/-- The request kind of a request row. -/
def requestOf : Instr → Option RequestKind
  | .vesselOpen => some .vesselOpen
  | .vesselSecure => some .vesselSecure
  | .vesselReopen => some .vesselReopen
  | .vesselRelease => some .vesselRelease
  | .book => some .book
  | .amend => some .amend
  | .cancel => some .cancel
  | .checkIn => some .checkIn
  | .present => some .present
  | .holdUnit => some .holdUnit
  | .releaseHold => some .releaseHold
  | .place => some .place
  | .discharge => some .discharge
  | .rampOpen => some .rampOpen
  | .rampClose => some .rampClose
  | .setRamp => some .setRamp
  | .skip => some .skip
  | .laneClose => some .laneClose
  | .laneOpen => some .laneOpen
  | .obstructionAdd => some .obstructionAdd
  | .obstructionClear => some .obstructionClear
  | .setBallast => some .setBallast
  | .clearFlags => some .clearFlags
  | .profileWrite _ => some .profileWrite
  | .profileReload => some .profileReload
  | .queryUnit => some .queryUnit
  | .queryLane => some .queryLane
  | .queryQueue => some .queryQueue
  | .queryStatus => some .queryStatus
  | .hardwareReset .. | .loadEnd .. | .frameComplete .. | .framingError .. | .badKindRequest | .profileWriteEnd ..
  | .writeTimeout .. | .placementServed | .retryWalk | .walkVisit | .redirectSearch | .ageingExpiry | .call ..
  | .intervalTimerExpiry .. | .callTimerExpiry .. | .axleEdge .. | .conversionComplete .. | .gapTimerExpiry ..
  | .sampleTimerExpiry .. | .frameSent | .frameDiscarded .. => none

/-- Check 2 of R171: the payload's length and fields are valid for the kind (R172). -/
def fieldsValid (k : RequestKind) (s : State) (bs : List Byte) : Bool :=
  match k with
  | .vesselOpen | .vesselSecure | .vesselReopen | .vesselRelease | .profileReload | .queryStatus =>
    (readEmpty s bs).isSome
  | .book => (readBook s bs).isSome
  | .amend => (readAmend s bs).isSome
  | .checkIn => (readCheckIn s bs).isSome
  | .cancel | .present | .holdUnit | .releaseHold | .discharge | .skip | .queryUnit => (readRef s bs).isSome
  | .place => (readPlace s bs).isSome
  | .rampOpen | .rampClose => (readRamp s bs).isSome
  | .setRamp => (readSetRamp s bs).isSome
  | .laneClose | .laneOpen => (readLane s bs).isSome
  | .obstructionAdd | .obstructionClear => (readSpan s bs).isSome
  | .setBallast => (readBallast s bs).isSome
  | .clearFlags => (readSelection s bs).isSome
  | .profileWrite => (readChunk s bs).isSome
  | .queryLane => (readLaneQuery s bs).isSome
  | .queryQueue => (readQueueQuery s bs).isSome

/-- The deck that a request names for the marshal deck mask, if it names one (R174). -/
def maskDeck (k : RequestKind) (s : State) (bs : List Byte) : Option Deck :=
  match k with
  | .obstructionAdd | .obstructionClear => (readSpan s bs).bind (deckOfSpan s)
  | .queryLane => (readLaneQuery s bs).bind (deckOfLaneQuery s)
  | .laneClose | .laneOpen => (readLane s bs).bind (deckOfLane s)
  | .skip | .holdUnit | .present | .discharge | .queryUnit => (readRef s bs).bind (deckOfRef s)
  | .vesselOpen | .vesselSecure | .vesselReopen | .vesselRelease | .book | .amend | .cancel | .checkIn | .releaseHold
  | .place | .rampOpen | .rampClose | .setRamp | .setBallast | .clearFlags | .profileWrite | .profileReload
  | .queryQueue | .queryStatus => none

/-- The sessions in which a request kind is taken: R162's table, row by row. -/
def sessionsOf : RequestKind → List Session
  | .queryStatus => [.noProfile, .noVessel, .alongside, .secured]
  | .profileWrite | .profileReload => [.noProfile, .noVessel]
  | .vesselOpen => [.noVessel]
  | .vesselSecure => [.alongside]
  | .vesselReopen | .vesselRelease => [.secured]
  | .book | .amend | .cancel => [.noVessel, .alongside, .secured]
  | .queryUnit | .queryLane | .queryQueue | .clearFlags => [.noVessel, .alongside, .secured]
  | .setRamp => [.alongside, .secured]
  | .checkIn | .present | .holdUnit | .releaseHold | .skip => [.alongside]
  | .place | .discharge => [.alongside]
  | .laneClose | .laneOpen | .obstructionAdd | .obstructionClear => [.alongside]
  | .rampOpen | .rampClose | .setBallast => [.alongside]

/-- The roles to which a request kind is permitted: R173's table, kind by kind. -/
def rolesOf : RequestKind → List Role
  | .present | .queryUnit | .queryStatus => [.planning, .gate, .marshal]
  | .checkIn => [.planning, .gate]
  | .skip | .holdUnit | .releaseHold | .obstructionAdd | .obstructionClear | .discharge | .queryLane | .queryQueue =>
    [.planning, .marshal]
  | .vesselOpen | .vesselSecure | .vesselReopen | .vesselRelease | .book | .amend | .cancel | .place | .rampOpen
  | .rampClose | .setRamp | .laneClose | .laneOpen | .setBallast | .clearFlags | .profileWrite | .profileReload =>
    [.planning]

/-- A station's entry (R173): that of the loaded table; in NO_PROFILE station 1 is PLANNING and every other one NONE. -/
def stationEntry (s : State) (stn : Byte) : Station :=
  let bare (x : Role) : Station := { role := x, level := 0, ceiling := 0, mask := 0 }
  if s.session = .noProfile then bare (if stn.toNat = 1 then .planning else .none)
  else (s.profile.stations[stn.toNat - 1]?).getD (bare .none)

/-- The unit that a request of one of the kinds of R7 names. -/
def unitNamed (k : RequestKind) (s : State) (bs : List Byte) : Option Ref :=
  match k with
  | .amend => (readAmend s bs).map (·.1)
  | .checkIn => (readCheckIn s bs).map (·.1)
  | .cancel | .present | .holdUnit | .releaseHold | .discharge | .skip | .queryUnit => readRef s bs
  | .vesselOpen | .vesselSecure | .vesselReopen | .vesselRelease | .book | .place | .rampOpen | .rampClose | .setRamp
  | .laneClose | .laneOpen | .obstructionAdd | .obstructionClear | .setBallast | .clearFlags | .profileWrite
  | .profileReload | .queryLane | .queryQueue | .queryStatus => none

/-- The kinds that the allocating mark refuses BUSY (R6). -/
def busyWhenMarked : RequestKind → Bool
  | .amend | .cancel | .checkIn | .present | .holdUnit | .releaseHold => true
  | _ => false

/-- The result that refuses a request for the status of the unit it names, by the tables of R9 to R11, R13 to R16, R118
and R158. -/
def statusRefusal (k : RequestKind) (x : Status) : Option Result :=
  match k, x with
  | .amend, .booked | .checkIn, .booked => none
  | .amend, _ | .checkIn, _ => some .wrongUnitState
  | .cancel, .called | .cancel, .crossing | .cancel, .aboard => some .inFlight
  | .present, .waiting | .present, .lapsed => none
  | .present, _ => some .wrongUnitState
  | .holdUnit, .waiting | .holdUnit, .unplaced | .holdUnit, .lapsed | .holdUnit, .called => none
  | .holdUnit, .crossing => some .inFlight
  | .holdUnit, _ => some .wrongUnitState
  | .releaseHold, .held => none
  | .releaseHold, _ => some .wrongUnitState
  | .skip, .called => none
  | .skip, .crossing => some .inFlight
  | .skip, _ => some .wrongUnitState
  | .discharge, .aboard => none
  | .discharge, _ => some .wrongUnitState
  | _, _ => none

/-! ## Records -/

/-- One record is written and every other one is as it was. -/
def UnitBecomes (s u : State) (ref : Ref) (v : UnitRecord) : Prop :=
  u.unit? ref = some v ∧ ∀ r, r ≠ ref → u.unit? r = s.unit? r

/-- One record is retired: its reference names none, it has left the check-in order list, and every other record is as
it was (R20). -/
def Retired (s u : State) (ref : Ref) : Prop :=
  u.unit? ref = none ∧ (∀ r, r ≠ ref → u.unit? r = s.unit? r) ∧ u.checkIn = s.checkIn.filter fun r => r != ref

/-! ## Reservations, queues, called lists -/

/-- A unit has left a lane's reservation list; a CLOSING lane left without one is CLOSED (R26, R38). -/
def LaneLeft (s u : State) (l : Lane) (ref : Ref) : Prop :=
  u.lane l =
    { s.lane l with
      reservations := (s.lane l).reservations.erase ref
      state := if (s.lane l).state = .closing ∧ (s.lane l).reservations.erase ref = [] then .closed
        else (s.lane l).state }

/-- A declared weight reserved in a lane has left the provisional sums and the deck load (R41, R49). -/
def SumsLeft (s u : State) (l : Lane) (weight : Nat) : Prop :=
  let f := s.laneFixed l
  u.stb =
    { s.stb with
      mlP := s.stb.mlP - weight * f.y
      mtP := s.stb.mtP - weight * f.xMid
      load := s.stb.load.set f.deck (s.stb.load[f.deck] - weight) }

/-- A ramp's queues have become `prio` and `ord`, the gate hold is re-examined against their count, its line follows,
and a change sets the pending flag (R121). Nothing else of the ramp has changed. -/
def Requeued (s u : State) (r : Ramp) (prio ord : List Ref) : Prop :=
  let g := gateAfter (s.rampFixed r) (s.ramp r).gateHold (prio.length + ord.length)
  u.ramp r = { s.ramp r with prio := prio, ord := ord, gateHold := g, lineHigh := g } ∧
    u.link.flags = if g = (s.ramp r).gateHold then s.link.flags else flagged [.gateHold r] s.link.flags

/-- A WAITING unit has left its call queue (R103). -/
def QueueLeft (s u : State) (r : Ramp) (ref : Ref) : Prop :=
  Requeued s u r ((s.ramp r).prio.erase ref) ((s.ramp r).ord.erase ref)

/-- Exactly one retry walk item waits where none did, at the end; one that waited still waits (R77). -/
def WalkAsked (s u : State) : Prop :=
  u.alc.service = if Item.walk ∈ s.alc.service then s.alc.service else s.alc.service ++ [.walk]

/-- The call timer that R114 gives a ramp after its head or its plate has changed. -/
def headTimer (s : State) (r : Ramp) : Timer :=
  match (s.ramp r).called.head? with
  | some ref =>
    if s.statusOf ref = some .called ∧ (s.plate r).state = .idle then some ((s.rampFixed r).callTimeout * 1000)
    else none
  | none => none

/-! ## Several reservations released at one event -/

/-- The lane that a unit's record holds. -/
def laneOf (s : State) (ref : Ref) : Option Lane := (s.unit? ref).bind (·.lane)

/-- What a reserved unit adds to ML_p: its declared weight times its lane's y (R49). -/
def promisedMl (s : State) (ref : Ref) : Int :=
  match s.unit? ref, laneOf s ref with
  | some v, some l => v.decl.weight * (s.laneFixed l).y
  | _, _ => 0

/-- What a reserved unit adds to MT_p: its declared weight times its lane's x_mid (R49). -/
def promisedMt (s : State) (ref : Ref) : Int :=
  match s.unit? ref, laneOf s ref with
  | some v, some l => v.decl.weight * (s.laneFixed l).xMid
  | _, _ => 0

/-- What a reserved unit adds to a deck's load (R41). -/
def promisedLoad (s : State) (d : Deck) (ref : Ref) : Int :=
  match s.unit? ref, laneOf s ref with
  | some v, some l => if (s.laneFixed l).deck = d then v.decl.weight else 0
  | _, _ => 0

/-- The contributions and weights of released units have left the provisional sums and the deck loads (R41, R49). -/
def SumsReleased (s u : State) (gone : List Ref) : Prop :=
  u.stb.mlP = s.stb.mlP - (gone.map (promisedMl s)).sum ∧ u.stb.mtP = s.stb.mtP - (gone.map (promisedMt s)).sum ∧
    (∀ d : Deck, u.stb.load[d] = s.stb.load[d] - (gone.map (promisedLoad s d)).sum) ∧
    u.stb.mlC = s.stb.mlC ∧ u.stb.mtC = s.stb.mtC ∧ u.stb.bl = s.stb.bl ∧ u.stb.bt = s.stb.bt

/-- Released units have left the reservation lists of their lanes; the others keep their order; a CLOSING lane that a
departure leaves without one is CLOSED (R26, R38). -/
def LanesReleased (s u : State) (gone : List Ref) : Prop :=
  ∀ l : Lane,
    let rest := (s.lane l).reservations.filter fun ref => !(gone.contains ref && decide (laneOf s ref = some l))
    u.lane l =
      if rest = (s.lane l).reservations then s.lane l
      else
        { s.lane l with
          reservations := rest
          state := if (s.lane l).state = .closing ∧ rest = [] then .closed else (s.lane l).state }

/-- Released units have left the call queues; each ramp's gate hold is re-examined when one has (R103, R121). -/
def QueuesReleased (s u : State) (gone : List Ref) : Prop :=
  ∀ r : Ramp,
    let prio := (s.ramp r).prio.filter fun ref => !gone.contains ref
    let ord := (s.ramp r).ord.filter fun ref => !gone.contains ref
    let left := (s.ramp r).prio ≠ prio ∨ (s.ramp r).ord ≠ ord
    let g := gateAfter (s.rampFixed r) (s.ramp r).gateHold (prio.length + ord.length)
    u.ramp r =
        (if left then { s.ramp r with prio := prio, ord := ord, gateHold := g, lineHigh := g } else s.ramp r) ∧
      (u.isPending (.gateHold r) = true ↔ s.isPending (.gateHold r) = true ∨ (left ∧ g ≠ (s.ramp r).gateHold))

/-- What becomes of a unit that is handed over for reallocation (R80). -/
def reallocatedRecord (v : UnitRecord) : UnitRecord := { v with status := .unplaced, lane := none, mark := true }

/-- The items of a reallocation burst (R80). -/
def burst (s : State) (gone : List Ref) : List Item :=
  gone.filterMap fun ref => (laneOf s ref).map fun l => .placement ref (.reallocation l)

/-- What the release of a lane's reservations leaves of its ramp, the CALLED ones among them leaving the called list:
the queues without them, the gate hold re-examined when one has left a queue, its line and its pending flag, and the call
timer that R114 gives (R103, R120, R121). Settings, budget, credit, state and interval timer stay. -/
def RampReleased (s u : State) (r : Ramp) (called gone : List Ref) : Prop :=
  let x := s.ramp r
  let prio := x.prio.filter fun ref => !gone.contains ref
  let ord := x.ord.filter fun ref => !gone.contains ref
  let left := x.prio ≠ prio ∨ x.ord ≠ ord
  let g := if left then gateAfter (s.rampFixed r) x.gateHold (prio.length + ord.length) else x.gateHold
  u.ramp r =
      { x with
        prio := prio, ord := ord, gateHold := g, lineHigh := if left then g else x.lineHigh
        called := x.called.filter fun ref => !called.contains ref
        callTimer := if x.called.head?.any called.contains then headTimer u r else x.callTimer } ∧
    u.link.flags = if g = x.gateHold then s.link.flags else flagged [.gateHold r] s.link.flags

/-- Every lane, as parts that a step may change. -/
def anyLane : List Block := (List.finRange 96).map Block.lane

/-! ## Calls and uncalls (R109 to R120) -/

/-- R109: a queued unit may be called. -/
def Eligible (s : State) (r : Ramp) (ref : Ref) : Prop :=
  ∃ v l, s.unit? ref = some v ∧ v.lane = some l ∧
    (∀ q ∈ (s.lane l).reservations.takeWhile (· != ref), s.statusOf q = some .called ∨ s.statusOf q = some .crossing) ∧
    ((s.comp r).state = .restricted → v.decl.kind ≠ .lowbed) ∧
    (s.hlm.hold = true → v.decl.weight < s.vessel.heavyThreshold) ∧
    (v.decl.weight ≤ (s.ramp r).remaining ∨ (s.ramp r).remaining = (s.ramp r).budget)

/-- The eligible unit nearest a queue's front (R111). -/
def FirstEligible (s : State) (r : Ramp) (q : List Ref) (ref : Ref) : Prop :=
  ∃ ahead behind, q = ahead ++ ref :: behind ∧ (∀ x ∈ ahead, ¬ Eligible s r x) ∧ Eligible s r ref

/-- The unit that R111 chooses, and the credit after the call. -/
def Chosen (s : State) (r : Ramp) (ref : Ref) (credit : Nat) : Prop :=
  let x := s.ramp r
  let prioHas := ∃ p ∈ x.prio, Eligible s r p
  let ordHas := ∃ o ∈ x.ord, Eligible s r o
  (x.ratio = 0 ∧ FirstEligible s r x.prio ref ∧ credit = 0) ∨
    (x.ratio = 0 ∧ ¬ prioHas ∧ FirstEligible s r x.ord ref ∧ credit = 0) ∨
    (x.ratio ≠ 0 ∧ ordHas ∧ x.credit < x.ratio ∧ FirstEligible s r x.prio ref ∧ credit = x.credit + 1) ∨
    (x.ratio ≠ 0 ∧ prioHas ∧ x.ratio ≤ x.credit ∧ FirstEligible s r x.ord ref ∧ credit = 0) ∨
    (x.ratio ≠ 0 ∧ ¬ ordHas ∧ FirstEligible s r x.prio ref ∧ credit = x.credit) ∨
    (x.ratio ≠ 0 ∧ ¬ prioHas ∧ FirstEligible s r x.ord ref ∧ credit = 0)

/-- The units of `refs` that stand in the priority queue's share, or in the ordinary queue's (R103). -/
def queueShare (s : State) (priority : Bool) (refs : List Ref) : List Ref :=
  refs.filter fun ref => decide ((s.unit? ref).map (·.cls.priority) = some priority)

/-- The called list without some units, and the call timer that R114 gives when the head is among them. -/
def calledWithout (s u : State) (r : Ramp) (gone : List Ref) (x : RampRun) : RampRun :=
  { x with
    called := (s.ramp r).called.filter fun ref => !gone.contains ref
    callTimer :=
      if (s.ramp r).called.head?.any gone.contains then headTimer u r else (s.ramp r).callTimer }

/-- A CALLED unit of lane `l` and its followers have gone back to WAITING while the lane keeps them (R115, R117, R118): the
records, the queues (`back`: the unit joins the back, otherwise the front; the followers the front, in called-list order),
the gate hold, the called list with its timer, the notices in that order. -/
structure Uncalled (s u : State) (r : Ramp) (l : Lane) (v : UnitRecord) (noShow : Nat) (back : Bool) (reason : UncallReason)
    (fs : List Ref) : Prop where
  record : u.unit? v.decl.ref = some { v with status := .waiting, age := 0, noShow := noShow }
  others : ∀ q w, q ≠ v.decl.ref → s.unit? q = some w →
    u.unit? q = some (if q ∈ fs then { w with status := .waiting, age := 0 } else w)
  unknown : ∀ q, s.unit? q = none → u.unit? q = none
  ramp :
    let front (p : Bool) := queueShare s p (if back then fs else v.decl.ref :: fs)
    let behind (p : Bool) := queueShare s p (if back then [v.decl.ref] else [])
    let prio := front true ++ (s.ramp r).prio ++ behind true
    let ord := front false ++ (s.ramp r).ord ++ behind false
    let g := gateAfter (s.rampFixed r) (s.ramp r).gateHold (prio.length + ord.length)
    u.ramp r =
        calledWithout s u r (v.decl.ref :: fs)
          { s.ramp r with prio := prio, ord := ord, gateHold := g, lineHigh := g } ∧
      u.link.flags = if g = (s.ramp r).gateHold then s.link.flags else flagged [.gateHold r] s.link.flags
  notices : Notified s u (.uncall r v.decl.ref reason (some l) :: fs.map fun q => .uncall r q .follower (some l))

/-- The same in a CLOSING lane (R38): the unit and its followers are released and handed over in reservation-list order, the
queues are as they were, and the notices carry no lane (R120). The gate hold sees them join and leave (log entry 17). -/
structure UncalledFromClosing (s u : State) (r : Ramp) (l : Lane) (v : UnitRecord) (noShow : Nat) (reason : UncallReason)
    (fs : List Ref) : Prop where
  record : u.unit? v.decl.ref = some (reallocatedRecord { v with age := 0, noShow := noShow })
  others : ∀ q w, q ≠ v.decl.ref → s.unit? q = some w →
    u.unit? q = some (if q ∈ fs then reallocatedRecord { w with age := 0 } else w)
  unknown : ∀ q, s.unit? q = none → u.unit? q = none
  ramp :
    let n := (s.ramp r).prio.length + (s.ramp r).ord.length
    let peak := gateAfter (s.rampFixed r) (s.ramp r).gateHold (n + fs.length + 1)
    let g := gateAfter (s.rampFixed r) peak n
    u.ramp r = calledWithout s u r (v.decl.ref :: fs) { s.ramp r with gateHold := g, lineHigh := g } ∧
      u.link.flags = if peak = (s.ramp r).gateHold then s.link.flags else flagged [.gateHold r] s.link.flags
  notices : Notified s u (.uncall r v.decl.ref reason none :: fs.map fun q => .uncall r q .follower none)
  lanes : LanesReleased s u (v.decl.ref :: fs)
  sums : SumsReleased s u (v.decl.ref :: fs)
  service : u.alc =
    { s.alc with
      service := s.alc.service ++
        ((s.lane l).reservations.filter fun q => (v.decl.ref :: fs).contains q).map fun q =>
          .placement q (.reallocation l) }

/-! ## Placement (R63 to R86) -/

/-- The last unit of a lane: its last reservation, or else its outermost occupant (R68). -/
def LastUnit (s : State) (l : Lane) (v : UnitRecord) : Prop :=
  (∃ ref, (s.lane l).reservations.getLast? = some ref ∧ s.unit? ref = some v) ∨
    ((s.lane l).reservations = [] ∧ ∃ o, (s.lane l).occupants.getLast? = some o ∧ s.unit? o.ref = some v)

/-- The free length of a deck's OPEN lanes, with `free` for lane `l` (R70). -/
def freeWith (s : State) (l : Lane) (free : Nat) : Nat :=
  ((s.laneNumbers.filter fun k =>
      decide ((s.laneFixed k).deck = (s.laneFixed l).deck) && decide ((s.lane k).state = .opened)).map fun k =>
    if k = l then free else (s.laneFixed k).length - s.projectedEnd k).sum

/-- The list and trim halves of the placement moment test, strict (R55), for a contribution. -/
def MomentsImprove (s : State) (dMl dMt : Int) : Prop :=
  let ml := s.stb.mlC + s.stb.mlP + s.stb.bl
  let mt := s.stb.mtC + s.stb.mtP + s.stb.bt
  ((ml + dMl).natAbs ≤ s.vessel.listLimit ∨ (ml + dMl).natAbs < ml.natAbs) ∧
    (trimDistance s.vessel (mt + dMt) = 0 ∨ trimDistance s.vessel (mt + dMt) < trimDistance s.vessel mt)

/-- Tests 1 to 5, 7 and 8 of R65, for an axle figure, a weight and a free length after placement (R66 to R70). -/
def LaneTakes (s : State) (v : UnitRecord) (l : Lane) (axle weight free : Nat) : Prop :=
  let x := s.laneFixed l
  (s.lane l).state = .opened ∧ (s.ramp x.ramp).state = .opened ∧ inDecks v.cls.decks x.deck = true ∧
    v.decl.widthClass ≤ x.widthClass ∧ v.decl.heightClass ≤ x.heightClass ∧ axle ≤ x.axleLimit ∧
    (∀ w, LastUnit s l w → v.decl.group ≤ w.decl.group ∧ (v.cls.seg = 0 ∨ w.cls.seg = 0 ∨ w.cls.seg = v.cls.seg)) ∧
    s.stb.load[x.deck] + weight ≤ ((s.deckFixed x.deck).cap : Int) ∧
    (v.cls.priority = true ∨ (s.deckFixed x.deck).reserve ≤ freeWith s l free)

/-- A placement of `v` on lane `l` passes the ten tests, `free` being the lane's free length with it: the projection of
the lane's reserved units and of `v` behind them fits (R69), and the contribution at x_mid passes R55 (R71). -/
def TenTests (s : State) (v : UnitRecord) (l : Lane) (free : Nat) : Prop :=
  let x := s.laneFixed l
  let ps := projectFrom (s.lane l).obstructions s.vessel.gap (s.startPoint l)
    (((s.lane l).reservations.map fun r => (r, s.lengthOf r)) ++ [(v.decl.ref, v.decl.length)])
  (∀ p ∈ ps, p.stop ≤ x.length) ∧ (∃ p, ps.getLast? = some p ∧ free = x.length - p.stop) ∧
    LaneTakes s v l v.cls.axleEst v.decl.weight free ∧
    MomentsImprove s (v.decl.weight * x.y) (v.decl.weight * x.xMid)

/-- A redirect search's candidate passes the ten tests as R84 changes them. -/
def RedirectTests (s : State) (v : UnitRecord) (y : Redirect) (l : Lane) (free : Nat) : Prop :=
  let x := s.laneFixed l
  let offset := s.commitOffset l v.decl.length
  x.ramp = y.ramp ∧ (s.lane l).reservations = [] ∧ offset + v.decl.length ≤ x.length ∧
    free = x.length - (offset + v.decl.length) ∧ LaneTakes s v l y.axleFigure y.weightUsed free ∧
    MomentsImprove s (y.weightUsed * x.y) (y.weightUsed * x.xUnit offset v.decl.length)

/-- The keys of R72 for a lane: |ML'|, d(MT'), the free length, the lane number. -/
def keysBefore (s : State) (dMl dMt : Int) (free : Nat) (l : Lane) (dMl' dMt' : Int) (free' : Nat) (l' : Lane) : Prop :=
  let a := (s.stb.ml + dMl).natAbs
  let a' := (s.stb.ml + dMl').natAbs
  let d := trimDistance s.vessel (s.stb.mt + dMt)
  let d' := trimDistance s.vessel (s.stb.mt + dMt')
  a < a' ∨ (a = a' ∧ (d < d' ∨ (d = d' ∧ (free < free' ∨ (free = free' ∧ l ≤ l')))))

/-- What a placement's serving tells (R12, R82): the response in the slot that was kept, or a RELOCATED notice. -/
def Told (s u : State) (ref : Ref) (cause : Cause) (status : Status) (priority : Bool) (lane : Option Lane) : Prop :=
  let site := lane.map fun l => { lane := l, deck := (s.laneFixed l).deck, ramp := (s.laneFixed l).ramp : Site }
  u.link.rxBuffer = s.link.rxBuffer ∧ u.link.tx = s.link.tx ∧ u.link.rate = s.link.rate ∧ u.link.rx = s.link.rx ∧
    match cause with
    | .checkIn t | .present t | .releaseHold t =>
      u.link.reserved = s.link.reserved.erase t ∧
        u.link.filled = s.link.filled ++ [{ ticket := t, reply := .allocation status priority site }] ∧ Notified s u []
    | .reallocation former =>
      u.link.reserved = s.link.reserved ∧ u.link.filled = s.link.filled ∧
        Notified s u [.relocated ref former status site]

/-- The reservation of R73, made in lane `l` for the unit of record `v`: the lane list, the provisional sums and deck load,
the back of the call queue with its gate hold, the record. -/
structure Reserved (s u : State) (v : UnitRecord) (l : Lane) : Prop where
  record : UnitBecomes s u v.decl.ref { v with status := .waiting, lane := some l, age := 0, mark := false }
  lane : u.lane l = { s.lane l with reservations := (s.lane l).reservations ++ [v.decl.ref] }
  sums : u.stb =
    { s.stb with
      mlP := s.stb.mlP + v.decl.weight * (s.laneFixed l).y
      mtP := s.stb.mtP + v.decl.weight * (s.laneFixed l).xMid
      load := s.stb.load.set (s.laneFixed l).deck (s.stb.load[(s.laneFixed l).deck] + v.decl.weight) }
  queue : Requeued s u (s.laneFixed l).ramp
    (if v.cls.priority = true then (s.ramp (s.laneFixed l).ramp).prio ++ [v.decl.ref]
      else (s.ramp (s.laneFixed l).ramp).prio)
    (if v.cls.priority = true then (s.ramp (s.laneFixed l).ramp).ord
      else (s.ramp (s.laneFixed l).ramp).ord ++ [v.decl.ref])

/-! ## Decks and sums -/

/-- A deck's fill is computed afresh, its warning state re-examined, its line follows, and a change sets the pending flag
(R42, R43). -/
def Refilled (s u : State) (d : Deck) : Prop :=
  let w := warningAfter (s.deckFixed d) (s.deck d).warning (u.fillOf d)
  u.deck d = { fill := u.fillOf d, warning := w, lineLow := w } ∧
    u.link.flags = if w = (s.deck d).warning then s.link.flags else flagged [.deck d] s.link.flags

/-- The committed sums and the deck load with a unit of a given weight added in a lane at an offset (R41, R45, R49). -/
def sumsWithAboard (s : State) (l : Lane) (weight offset length : Nat) : Stability :=
  let f := s.laneFixed l
  { s.stb with
    mlC := s.stb.mlC + weight * f.y
    mtC := s.stb.mtC + weight * (f.xInner + f.dir.sign * ((offset + length / 2 : Nat) : Int))
    load := s.stb.load.set f.deck (s.stb.load[f.deck] + weight) }

/-- The same with the unit taken away (R41, R49). -/
def sumsWithoutAboard (s : State) (l : Lane) (weight offset length : Nat) : Stability :=
  let f := s.laneFixed l
  { s.stb with
    mlC := s.stb.mlC - weight * f.y
    mtC := s.stb.mtC - weight * (f.xInner + f.dir.sign * ((offset + length / 2 : Nat) : Int))
    load := s.stb.load.set f.deck (s.stb.load[f.deck] - weight) }

/-- The geometry test of PLACE (R154), the neighbours being the nearest occupants (R152). -/
def PlaceFits (s : State) (q : PlaceRequest) : Prop :=
  q.offset + q.length ≤ (s.laneFixed q.lane).length ∧
    (∀ o ∈ (s.lane q.lane).occupants, o.offset ≠ q.offset) ∧
    (∀ x ∈ (s.lane q.lane).obstructions, ¬ (q.offset < x.start + x.extent ∧ x.start < q.offset + q.length)) ∧
    (∀ o, s.innerNeighbour q.lane q.offset = some o → o.offset + s.lengthOf o.ref + s.vessel.gap ≤ q.offset) ∧
    ∀ o, s.outerNeighbour q.lane q.offset = some o → q.offset + q.length + s.vessel.gap ≤ o.offset

/-- The discharge-order test of PLACE (R154). -/
def PlaceOrdered (s : State) (q : PlaceRequest) : Prop :=
  (∀ o, s.innerNeighbour q.lane q.offset = some o → q.group ≤ s.groupOf o.ref) ∧
    ∀ o, s.outerNeighbour q.lane q.offset = some o → s.groupOf o.ref ≤ q.group

/-! ## Crossings (R130, R135) -/

/-- weight_used: the declared weight after a faulted crossing, the axle sum otherwise (R130). -/
def usedWeight (p : Plate) (v : UnitRecord) : Nat := if p.fault = true then v.decl.weight else p.axleSum

/-- The axle figure: the axle estimate after a faulted crossing, the axle maximum otherwise (R130). -/
def usedAxle (p : Plate) (v : UnitRecord) : Nat := if p.fault = true then v.cls.axleEst else p.axleMax

/-- A weighed crossing whose measured weight lies outside the window of R57. -/
def Mismatched (s : State) (r : Ramp) (p : Plate) (v : UnitRecord) : Prop :=
  p.fault = false ∧
    ¬ (v.decl.weight * (100 - (s.rampFixed r).tolerance) / 100 ≤ p.axleSum ∧
      p.axleSum ≤ v.decl.weight * (100 + (s.rampFixed r).tolerance) / 100)

/-- The commit moment test of R56 in the reserved lane. -/
def MomentsHold (s : State) (v : UnitRecord) (l : Lane) (used : Nat) : Prop :=
  let f := s.laneFixed l
  let ml := s.stb.mlC + s.stb.mlP + s.stb.bl
  let mt := s.stb.mtC + s.stb.mtP + s.stb.bt
  let ml' := ml - v.decl.weight * f.y + used * f.y
  let mt' := mt - v.decl.weight * f.xMid + used * f.xUnit (s.commitOffset l v.decl.length) v.decl.length
  (ml'.natAbs ≤ s.vessel.listLimit ∨ ml'.natAbs ≤ ml.natAbs) ∧
    (trimDistance s.vessel mt' = 0 ∨ trimDistance s.vessel mt' ≤ trimDistance s.vessel mt)

/-- The commit tests of R135: axle, cap, and, outside the window, the moments. -/
def CommitTests (s : State) (r : Ramp) (p : Plate) (v : UnitRecord) (l : Lane) : Prop :=
  usedAxle p v ≤ (s.laneFixed l).axleLimit ∧
    s.stb.load[(s.laneFixed l).deck] - v.decl.weight + usedWeight p v ≤ ((s.deckFixed (s.laneFixed l).deck).cap : Int) ∧
    (Mismatched s r p v → MomentsHold s v l (usedWeight p v))

/-- A crossing's result as the completion fixes it (R130, R134). -/
def IsResult (p : Plate) (v : UnitRecord) (mismatch : Prop) (x : CrossingResult) : Prop :=
  x.measured = (if p.fault = true then none else some { weight := p.axleSum, maxAxle := p.axleMax }) ∧
    x.axleCount = p.axleCount ∧ (x.mismatch = true ↔ mismatch) ∧ x.weighFault = p.fault ∧
    (x.axlesDiffer = true ↔ ∃ n, v.decl.axles = some n ∧ n ≠ p.axleCount)

/-- The plate and the ramp's state after a completion (R107, R132): IDLE on an OPEN ramp; DISARMED, with the ramp CLOSED,
on a CLOSING one. -/
def plateCleared (x : RampState) : Plate :=
  { state := if x = .opened then .idle else .disarmed, unit := none, axleCount := 0, busy := false, axleSum := 0,
    axleMax := 0, fault := false, gapTimer := none }

/-- A crossing's results in a record (R140). -/
def crossingRecord (v : UnitRecord) (x : CrossingResult) (redirected : Bool) : UnitRecord :=
  { v with
    measured := x.measured
    axleCount := some x.axleCount
    mismatch := x.mismatch
    weighFault := x.weighFault
    redirected := redirected }

/-- A ramp as a completion leaves it: CLOSED where it was CLOSING, the crossing unit off the called list, the call timer as
R114 gives (R107, R132). -/
def rampCompleted (u : State) (r : Ramp) (x : RampRun) (gone : Option Ref) : RampRun :=
  { x with
    state := if x.state = .closing then .closed else x.state
    called := (match gone with | some ref => x.called.erase ref | none => x.called)
    callTimer := headTimer u r }

/-! ## Samples (R142 to R148) -/

/-- A comparator's state after a gradient, by the tables of R143 and R144. -/
def ComparatorMoves (f : RampFixed) (before : ComparatorState) (g : Nat) (after : ComparatorState) : Prop :=
  (before = .unsampled → after = if f.gradLimit < g then .restricted else .clear) ∧
    (before = .clear → after = if f.gradLimit + f.gradRise < g then .restricted else .clear) ∧
    (before = .restricted → after = if g < f.gradLimit - f.gradFall then .clear else .restricted)

/-- A sample by which HLM and both comparators take their readings: the states, the lines, the pending flags and the sticky
flags (R143 to R145, R147, R148). Notices and the rest of the link stay. -/
structure Sampled (s u : State) (gradA gradB : BitVec 8) (incl : BitVec 10) : Prop where
  gradient : (u.comp .a).gradient = gradA.toNat ∧ (u.comp .b).gradient = gradB.toNat
  comps : ComparatorMoves (s.rampFixed .a) (s.comp .a).state gradA.toNat (u.comp .a).state ∧
    ComparatorMoves (s.rampFixed .b) (s.comp .b).state gradB.toNat (u.comp .b).state
  history : u.hlm.history =
    if s.hlm.history.length < 4 then s.hlm.history ++ [incl.toInt] else s.hlm.history.tail ++ [incl.toInt]
  heel : u.hlm.heel = ((u.hlm.history.sum.tdiv u.hlm.history.length) * s.vessel.heelSpan).tdiv 512
  hold : (s.hlm.hold = false → (u.hlm.hold = true ↔ s.vessel.heelOn ≤ u.hlm.heel.natAbs)) ∧
    (s.hlm.hold = true → (u.hlm.hold = false ↔ u.hlm.heel.natAbs ≤ s.vessel.heelOffAdjusted))
  line : u.hlm.lineHigh = u.hlm.hold
  pending : (∀ d : Deck, u.isPending (.deck d) = s.isPending (.deck d)) ∧
    (∀ r : Ramp, u.isPending (.gateHold r) = s.isPending (.gateHold r)) ∧
    (u.isPending .heel = true ↔ s.isPending .heel = true ∨ u.hlm.hold ≠ s.hlm.hold) ∧
    ∀ r : Ramp, u.isPending (.rampState r) = true ↔
      s.isPending (.rampState r) = true ∨ (u.comp r).state ≠ (s.comp r).state
  sticky : u.isSticky .noticeLost = s.isSticky .noticeLost ∧
    (u.isSticky .heelHoldRose = true ↔ s.isSticky .heelHoldRose = true ∨ (s.hlm.hold = false ∧ u.hlm.hold = true)) ∧
    ∀ r : Ramp, u.isSticky (.unexpected r) = s.isSticky (.unexpected r) ∧
      (u.isSticky (.restrictRose r) = true ↔
        s.isSticky (.restrictRose r) = true ∨ ((s.comp r).state = .clear ∧ (u.comp r).state = .restricted)) ∧
      (u.isSticky (.restrictFell r) = true ↔
        s.isSticky (.restrictFell r) = true ∨ ((s.comp r).state = .restricted ∧ (u.comp r).state = .clear))
  notices : u.link.notices = s.link.notices

/-! ## Payloads and images as the stations and the planning computer make them (R188, R189) -/

/-- The ranges of the declared part, by R1's table. -/
def DeclaredInRange (d : Declared) : Prop :=
  (1 ≤ d.ref ∧ d.ref ≤ 4294967294) ∧ (20 ≤ d.length ∧ d.length ≤ 250) ∧ d.widthClass ≤ 2 ∧ d.heightClass ≤ 3 ∧
    (5 ≤ d.weight ∧ d.weight ≤ 600) ∧ d.group ≤ 3 ∧ (∀ n ∈ d.axles, 1 ≤ n ∧ n ≤ 12) ∧
    (∀ n ∈ d.maxAxle, 1 ≤ n ∧ n ≤ 400) ∧ (∀ n ∈ d.hazard, 1 ≤ n ∧ n ≤ 63) ∧ ∀ n ∈ d.service, n ≤ 7

/-- CHECK_IN's payload (13.4). -/
def checkInBytes (ref : Ref) (length : Option Nat) : List Byte :=
  beBytes 4 ref ++ [packBits [length.isSome]] ++ optBytes 1 length

/-- PLACE's payload (13.4). -/
def placeBytes (q : PlaceRequest) : List Byte :=
  beBytes 4 q.ref ++ [byte q.kind.code, byte q.length, byte q.widthClass, byte q.heightClass] ++ beBytes 2 q.weight ++
    [byte q.group, laneByte q.lane] ++ beBytes 2 q.offset ++ [packBits [q.hazard.isSome]] ++ optBytes 1 q.hazard

/-- SET_RAMP's payload (13.4). -/
def setRampBytes (q : RampSettings) : List Byte :=
  [rampByte q.ramp, byte q.ratio, byte q.depth] ++ beBytes 2 q.budget

/-- The payload of OBSTRUCTION_ADD and OBSTRUCTION_CLEAR (13.4). -/
def spanBytes (q : SpanRequest) : List Byte := laneByte q.lane :: (beBytes 2 q.start ++ beBytes 2 q.extent)

/-- PROFILE_WRITE's payload (13.4). -/
def chunkBytes (q : ChunkRequest) : List Byte := byte q.target.code :: (beBytes 2 q.offset ++ q.bytes)

/-- A list's code (13.3). -/
def listCode : ListName → Nat
  | .priority => 0 | .ordinary => 1 | .called => 2

/-- QUERY_QUEUE's payload (13.4). -/
def queueQueryBytes (q : QueueRequest) : List Byte :=
  [rampByte q.ramp, byte (listCode q.named)] ++ beBytes 2 q.start

/-- The VESSEL section (R189). -/
def vesselBytes (v : Vessel) : List Byte :=
  [byte v.gap] ++ beBytes 4 v.listLimit ++ beInt 4 v.trimLo ++ beInt 4 v.trimHi ++ beBytes 2 v.heavyThreshold ++
    beBytes 2 v.heelOn ++ beBytes 2 v.heelOff ++ beBytes 2 v.heelSpan ++ beBytes 2 v.samplePeriod ++
    beBytes 2 v.agePeriod ++ [byte v.ageLimit, byte v.baseLevel]

/-- A DECKS record (R189). -/
def deckFixedBytes (d : DeckFixed) : List Byte :=
  beBytes 2 d.cap ++ beBytes 2 d.reserve ++ [byte d.warnOn, byte d.warnOff]

/-- A RAMPS record (R189). -/
def rampFixedBytes (r : RampFixed) : List Byte :=
  beBytes 2 r.budget ++ beBytes 2 r.intervalPeriod ++ [byte r.ratio, byte r.depth] ++ beBytes 2 r.callTimeout ++
    [byte r.crossingGap, byte r.plateZero] ++ beBytes 2 r.plateScale ++
    [byte r.tolerance, byte r.gradLimit, byte r.gradRise, byte r.gradFall] ++ beBytes 2 r.gateOn ++ [byte r.gateOff]

/-- A role's code (13.3). -/
def roleCode : Role → Nat
  | .none => 0 | .planning => 1 | .gate => 2 | .marshal => 3

/-- A STATIONS entry (R189). -/
def stationBytes (x : Station) : List Byte :=
  [byte (roleCode x.role), byte x.level, byte x.ceiling, deckSetByte x.mask]

/-- A HAZARDS entry (R189). -/
def hazardBytes (h : HazardEntry) : List Byte := [ind h.priority, byte h.seg, deckSetByte h.decks]

/-- The bytes of a section of an image (R189). -/
def sectionBytes (p : Profile) (hazards : List HazardEntry) : SectionId → List Byte
  | .header => []
  | .vessel => vesselBytes p.vessel
  | .decks => p.decks.flatMap deckFixedBytes
  | .lanes => byte p.lanes.length :: p.lanes.flatMap laneFixedBytes
  | .ramps => rampFixedBytes p.ramps.a ++ rampFixedBytes p.ramps.b
  | .stations => p.stations.flatMap stationBytes
  | .hazards => hazards.flatMap hazardBytes

/-- The header's section table for sections that stand one after the other from an address (R189). -/
def tableBytes (p : Profile) (hazards : List HazardEntry) : Nat → List SectionId → List Byte
  | _, [] => []
  | start, i :: rest =>
    let bs := sectionBytes p hazards i
    [byte i.code] ++ beBytes 3 start ++ beBytes 2 bs.length ++ beBytes 2 (crc16 bs).toNat ++
      tableBytes p hazards (start + bs.length) rest

/-- The header: signature, version, load-control byte, section table, CRC (R181, R189). -/
def headerBytes (p : Profile) (hazards : List HazardEntry) (selected : Bool) : List Byte :=
  let checked := [0x7E, 0x52, 1, ind selected] ++ tableBytes p hazards Config.headerBytes sectionIds
  checked ++ beBytes 2 (crc16 checked).toNat

/-- A whole image, from address 0 (R189). -/
def imageBytes (p : Profile) (hazards : List HazardEntry) (selected : Bool) : List Byte :=
  headerBytes p hazards selected ++ sectionIds.flatMap (sectionBytes p hazards)

/-- Every field of a profile lies in its range, and its tables have their lengths (12.1, R181). -/
structure ProfileInRange (p : Profile) : Prop where
  vessel : p.vessel.inRanges = true
  decks : p.decks.length = 4 ∧ ∀ d ∈ p.decks, d.inRanges = true
  lanes : 1 ≤ p.lanes.length ∧ p.lanes.length ≤ 96 ∧ ∀ l ∈ p.lanes, l.inRanges = true
  ramps : p.ramps.a.inRanges = true ∧ p.ramps.b.inRanges = true
  stations : p.stations.length = 30 ∧ ∀ x ∈ p.stations, x.level ≤ 7 ∧ x.ceiling ≤ 7

/-! ## The laws that every step keeps -/

/-- The memory keeps its canonical form. -/
def MemoryLaw (s : State) : Prop := Memory.wf s.pst.mem = true

/-- R4: never more than 512 records, no two with the same reference; the model keeps them in rising order. -/
def UnitTableLaw (s : State) : Prop :=
  s.units.length ≤ 512 ∧ s.units.Pairwise fun u v => u.decl.ref < v.decl.ref

/-- The response slot that a service item keeps reserved. -/
def Item.ticket? : Item → Option Ticket
  | .placement _ (.checkIn t) | .placement _ (.present t) | .placement _ (.releaseHold t) => some t
  | .placement _ (.reallocation _) | .redirect _ | .walk => none

/-- The requests that are being served: by the Allocator, by the write engine, by a load (R171). -/
def outstanding (s : State) : List Ticket :=
  s.alc.service.filterMap Item.ticket? ++ (s.pst.write.map (·.ticket)).toList ++ s.pst.loadTicket.toList

/-- R171: the reserved slots are those of the requests being served, and no more than eight slots are in use. Requests wait
at the Allocator in ALONGSIDE only (R64), and a load is answered in LOADING only (R187). -/
def SlotLaw (s : State) : Prop :=
  s.link.reserved.Perm (outstanding s) ∧ s.link.reserved.length + s.link.filled.length ≤ 8 ∧
    (s.session ≠ .alongside → s.alc.service.filterMap Item.ticket? = []) ∧
    (s.pst.loadTicket.isSome = true → s.session = .loading)

/-- R113, R125: a CLOSED ramp has a DISARMED plate, an OPEN one an IDLE or WEIGHING plate, a CLOSING one a WEIGHING plate;
the interval timer runs while the ramp is OPEN; a plate that is not WEIGHING holds its starting values, and one that is
has its gap timer running and 1 to 15 edges counted; outside ALONGSIDE both ramps are CLOSED. -/
def RampPlateLaw (s : State) : Prop :=
  ∀ r : Ramp,
    ((s.ramp r).state = .closed → (s.plate r).state = .disarmed) ∧
    ((s.ramp r).state = .opened → (s.plate r).state ≠ .disarmed) ∧
    ((s.ramp r).state = .closing → (s.plate r).state = .weighing) ∧
    ((s.ramp r).intervalTimer.isSome = true ↔ (s.ramp r).state = .opened) ∧
    ((s.plate r).state ≠ .weighing → s.plate r = { Plate.reset with state := (s.plate r).state }) ∧
    ((s.plate r).state = .weighing →
      (s.plate r).gapTimer.isSome = true ∧ 1 ≤ (s.plate r).axleCount ∧ (s.plate r).axleCount ≤ 15) ∧
    (s.session ≠ .alongside → (s.ramp r).state = .closed)

/-- R17, R142, R182: the sample timer runs, and a shadow is held, in every session but LOADING and NO_PROFILE; the ageing
timer runs in ALONGSIDE only. -/
def ClockLaw (s : State) : Prop :=
  (s.hlm.sampleTimer.isSome = true ↔ s.session ≠ .loading ∧ s.session ≠ .noProfile) ∧
    (s.pst.shadow.isSome = true ↔ s.session ≠ .loading ∧ s.session ≠ .noProfile) ∧
    (s.ageing.isSome = true ↔ s.session = .alongside)

/-- R102, R108, R113: each ramp's settings lie in their ranges, its remaining budget within B and its credit within N; and so
do the settings of the RAMPS section, from which they are copied. -/
def BudgetLaw (s : State) : Prop :=
  (∀ r : Ramp, (s.ramp r).ratio ≤ 15 ∧ 1 ≤ (s.ramp r).depth ∧ (s.ramp r).depth ≤ 4 ∧ 50 ≤ (s.ramp r).budget ∧
      (s.ramp r).budget ≤ 5000 ∧ (s.ramp r).remaining ≤ (s.ramp r).budget ∧ (s.ramp r).credit ≤ (s.ramp r).ratio) ∧
    ∀ p, s.pst.shadow = some p → p.ramps.a.inRanges = true ∧ p.ramps.b.inRanges = true

/-- R43, R121, R148: each output line follows its condition. -/
def LineLaw (s : State) : Prop :=
  (∀ d : Deck, (s.deck d).lineLow = (s.deck d).warning) ∧ (∀ r : Ramp, (s.ramp r).lineHigh = (s.ramp r).gateHold) ∧
    s.hlm.lineHigh = s.hlm.hold

/-- R32, R147, R170, R176, R178: no lane holds more than two obstruction records, and they stand in order of start; the heel
history holds no more than four codes, the receive buffer no more than four frames, the notice queue no more than sixteen notices; and a response or notice that
is being sent still holds its slot. -/
def BoundLaw (s : State) : Prop :=
  (∀ l : Lane, (s.lane l).obstructions.length ≤ 2 ∧
      (s.lane l).obstructions.Pairwise fun x y => x.start ≤ y.start) ∧ s.hlm.history.length ≤ 4 ∧ s.link.rxBuffer.length ≤ 4 ∧
    s.link.notices.length ≤ 16 ∧ (∀ bs, s.link.tx = .response bs → s.link.filled ≠ []) ∧
    ∀ bs, s.link.tx = .notice bs → s.link.notices ≠ []

/-- The record that a reference names passes a test. -/
def unitIs (s : State) (ref : Ref) (p : UnitRecord → Bool) : Bool := (s.unit? ref).any p

/-- The reference that a service item carries (R61). -/
def Item.ref? : Item → Option Ref
  | .placement ref _ => some ref
  | .redirect y => some y.ref
  | .walk => none

/-- What a service item's record is while the item waits (R62, R80, R83). -/
def itemFits (s : State) : Item → Bool
  | .placement ref (.checkIn _) => unitIs s ref fun v => v.mark && decide (v.status = .booked)
  | .placement ref (.present _) => unitIs s ref fun v => v.mark && decide (v.status = .lapsed)
  | .placement ref (.releaseHold _) => unitIs s ref fun v => v.mark && decide (v.status = .held)
  | .placement ref (.reallocation _) => unitIs s ref fun v => v.mark && decide (v.status = .unplaced)
  | .redirect y =>
    (unitIs s y.ref fun v => decide (v.status = .crossing) && decide (v.lane = none) &&
        decide (y.weightUsed = (y.result.measured.map (·.weight)).getD v.decl.weight)) &&
      !(s.ramp .a).called.contains y.ref && !(s.ramp .b).called.contains y.ref
  | .walk => true

/-- Where a record must stand, by its status (R3, R26, R103, R104, R75, R25). -/
def recordStands (s : State) (v : UnitRecord) : Bool :=
  let ref := v.decl.ref
  let served := s.alc.service.any fun x => decide (x.ref? = some ref)
  match v.status, v.lane with
  | .waiting, some l =>
    !v.mark && (s.lane l).reservations.contains ref &&
      (if v.cls.priority then (s.ramp (s.laneFixed l).ramp).prio else (s.ramp (s.laneFixed l).ramp).ord).contains ref
  | .called, some l =>
    !v.mark && (s.lane l).reservations.contains ref && (s.ramp (s.laneFixed l).ramp).called.contains ref
  | .crossing, some l =>
    !v.mark && (s.lane l).reservations.contains ref &&
      decide ((s.plate (s.laneFixed l).ramp).unit = some ref)
  | .crossing, none =>
    !v.mark && (served || decide ((s.plate .a).unit = some ref) || decide ((s.plate .b).unit = some ref))
  | .aboard, some l => !v.mark && (s.lane l).occupants.any fun o => o.ref == ref && decide (v.offset = some o.offset)
  | .unplaced, none => if v.mark then served else s.alc.unplaced.contains ref
  | .booked, none | .lapsed, none | .held, none => !v.mark || served
  | .shutOut, none => !v.mark
  | _, _ => false

/-- R3, R5, R25, R26, R62, R75, R80, R83, R103, R104, R121: records, lists, queues, called lists, service items and plates
agree. Each list names records that stand in it, each once; each record stands where its status says; a gate hold is what
its count gives; outside ALONGSIDE nothing waits, is called or is served. -/
def ReservationLaw (s : State) : Prop :=
  (s.units.Pairwise fun u v => u.decl.ref < v.decl.ref) ∧
    (∀ v ∈ s.units, recordStands s v = true) ∧
    (∀ l : Lane, (s.lane l).reservations.Nodup ∧
      (∀ ref ∈ (s.lane l).reservations,
        unitIs s ref (fun v => decide (v.lane = some l) && decide (v.status ≠ .aboard)) = true) ∧
      ((s.lane l).occupants.map (·.ref)).Nodup ∧
      ∀ o ∈ (s.lane l).occupants,
        unitIs s o.ref (fun v => decide (v.lane = some l) && decide (v.status = .aboard)) = true) ∧
    (∀ r : Ramp, ((s.ramp r).prio ++ (s.ramp r).ord).Nodup ∧ (s.ramp r).called.Nodup ∧
      (∀ ref ∈ (s.ramp r).prio, unitIs s ref (fun v => decide (v.status = .waiting) && v.cls.priority &&
        v.lane.any fun l => decide ((s.laneFixed l).ramp = r)) = true) ∧
      (∀ ref ∈ (s.ramp r).ord, unitIs s ref (fun v => decide (v.status = .waiting) && !v.cls.priority &&
        v.lane.any fun l => decide ((s.laneFixed l).ramp = r)) = true) ∧
      (∀ ref ∈ (s.ramp r).called, unitIs s ref (fun v =>
        (decide (v.status = .called) && v.lane.any fun l => decide ((s.laneFixed l).ramp = r)) ||
          (decide (v.status = .crossing) && decide ((s.plate r).unit = some ref))) = true) ∧
      (∀ ref ∈ (s.plate r).unit, (s.plate r).state = .weighing ∧ (s.ramp r).called.head? = some ref ∧
        unitIs s ref (fun v => decide (v.status = .crossing) &&
          (v.lane.all fun l => decide ((s.laneFixed l).ramp = r))) = true) ∧
      1 ≤ (s.rampFixed r).gateOn ∧
      gateAfter (s.rampFixed r) (s.ramp r).gateHold ((s.ramp r).prio.length + (s.ramp r).ord.length) =
        (s.ramp r).gateHold ∧ (s.session ≠ .alongside → (s.ramp r).gateHold = false)) ∧
    (∀ x ∈ s.alc.service, itemFits s x = true) ∧ (s.alc.service.filterMap Item.ref?).Nodup ∧
    s.alc.unplaced.Nodup ∧ (∀ ref ∈ s.alc.unplaced, unitIs s ref (fun v => decide (v.status = .unplaced) && !v.mark) = true) ∧
    s.alc.walk.Sublist s.alc.unplaced ∧
    s.checkIn.Nodup ∧ (∀ ref ∈ s.checkIn, unitIs s ref (fun v => v.mark || decide (v.status ≠ .booked)) = true) ∧
    (∀ v ∈ s.units, (v.mark = true ∨ v.status ≠ .booked) → v.status ≠ .aboard → v.decl.ref ∈ s.checkIn) ∧
    (s.session ≠ .alongside → s.alc.service = [] ∧ s.alc.walk = [] ∧
      ∀ v ∈ s.units, v.status = .booked ∨ (s.session = .secured ∧ (v.status = .aboard ∨ v.status = .shutOut)))

/-- R26, R104: in each lane's reservation list the units CALLED or CROSSING stand ahead of those that wait, in the order in
which they were called. -/
def LaneOrderLaw (s : State) : Prop :=
  ∀ l : Lane, ∃ ahead behind, (s.lane l).reservations = ahead ++ behind ∧
    (∀ ref ∈ behind, s.statusOf ref = some .waiting) ∧
    ahead = (s.ramp (s.laneFixed l).ramp).called.filter fun ref => decide (laneOf s ref = some l)

/-- R1, R3, R18, R25, R41: every record's declared fields lie in their ranges; no age is above the age limit, a WAITING
unit's is below it, a BOOKED one's is 0, and the limit is at least 1; in each lane the occupants stand in rising order of
offset and the vessel gap apart; no deck's load is above its cap. -/
def CargoLaw (s : State) : Prop :=
  (∀ v ∈ s.units, DeclaredInRange v.decl ∧ v.age ≤ s.vessel.ageLimit ∧
      (v.status = .waiting → v.age < s.vessel.ageLimit) ∧ (v.status = .booked → v.age = 0)) ∧
    1 ≤ s.vessel.ageLimit ∧
    (∀ l : Lane, (s.lane l).occupants.Pairwise fun o p =>
      o.offset < p.offset ∧ o.offset + s.lengthOf o.ref + s.vessel.gap ≤ p.offset) ∧
    ∀ d : Deck, s.stb.load[d] ≤ ((s.deckFixed d).cap : Int)

/-- A unit holds a reservation while it is WAITING or CALLED, and while it is CROSSING with its lane field present (R48). -/
def holdsReservation (v : UnitRecord) : Bool :=
  decide (v.status = .waiting) || decide (v.status = .called) || (decide (v.status = .crossing) && v.lane.isSome)

/-- A record's lane's fixed part; the lane is there for every record that is asked. -/
def laneOfRecord (s : State) (v : UnitRecord) : LaneFixed := s.laneFixed (v.lane.getD 0)

/-- R47, R48, R41: the committed accumulators are the sums over the ABOARD units of weight_used times y_lane and x_unit, the
provisional ones the sums over the units that hold a reservation of declared weight times y_lane and x_mid, and each deck's
load the sum of the weights of both in the deck's lanes. -/
def SumsLaw (s : State) : Prop :=
  let aboard := s.units.filter fun v => decide (v.status = .aboard)
  let promised := s.units.filter holdsReservation
  let used (v : UnitRecord) : Nat := match v.measured with | some m => m.weight | none => v.decl.weight
  s.stb.mlC = (aboard.map fun v => (used v : Int) * (laneOfRecord s v).y).sum ∧
    s.stb.mtC = (aboard.map fun v => (used v : Int) * (laneOfRecord s v).xUnit (v.offset.getD 0) v.decl.length).sum ∧
    s.stb.mlP = (promised.map fun v => (v.decl.weight : Int) * (laneOfRecord s v).y).sum ∧
    s.stb.mtP = (promised.map fun v => (v.decl.weight : Int) * (laneOfRecord s v).xMid).sum ∧
    ∀ d : Deck, s.stb.load[d] =
      ((aboard.filter fun v => decide ((laneOfRecord s v).deck = d)).map fun v => (used v : Int)).sum +
        ((promised.filter fun v => decide ((laneOfRecord s v).deck = d)).map fun v => (v.decl.weight : Int)).sum

end Sys2Proof.Machine
end

