-- ==== Sys2Proof/Certificates/Slice0/Obligations.lean ====
section
/-!
DEFINITION. The statements for the provers. In a statement about a command, `u` is the state as the command's event leaves
it, and `u.startTx` is `u` after the arbiter's choice (R178), which a statement of its own describes.
-/

open Sys2Proof Sys2Proof.Machine

/-! ## The machine's step -/

/-- A step takes the command at the front of the queue, with the queue's rest waiting; an empty queue idles (the model's
choice, log entries 2 and 3). -/
def Obligations.StepTakesTheFrontCommand : Prop :=
  (∀ (c : Instr) (q : List Instr) (s : State), step (s.setPending (c :: q)) = exec c (s.setPending q)) ∧
    ∀ s : State, step (s.setPending []) = .next (s.setPending [])

/-- Every command answers a next state, and no command touches the queue of waiting commands (the spec names nothing that
stops the part; the queue is the model's, log entry 2). -/
def Obligations.EveryCommandAnswersAndKeepsTheQueue : Prop :=
  ∀ (c : Instr) (s : State), ∃ u, exec c s = .next u ∧ u.pending = s.pending

/-! ## Requests: the checks (R171 to R174, R162, R6, R7) -/

/-- R171: the first check that fails refuses the request, in the reserved slot, and nothing else changes: check 1, the kind
(BAD_KIND); check 2, the fields (`PayloadsReadBack` says which payloads pass it); check 3, the role and deck mask; check 4, the
session. Check 3 passes exactly when R173's table permits the kind to the station's role and a marshal's mask holds the deck
named (R174), for stations 1 to 30; check 4 exactly in the sessions of R162's table. With every check passed, a request of each
kind is answered by its owner (the statements below). -/
def Obligations.ChecksRefuseInOrder : Prop :=
  (∀ (c : Instr) (k : RequestKind) (s : State) (f : Frame) (rest : List Frame),
     requestOf c = some k → s.link.rxBuffer = f :: rest → s.session ≠ .loading →
     s.link.reserved.length + s.link.filled.length < 8 → RequestKind.ofCode f.kind = some k →
     (fieldsValid k s f.payload = false → ∃ u, exec c s = .next u.startTx ∧ Replied s u f rest (.refused .badField) ∧
       NoNews s u ∧ OnlyChanges [.link] s u) ∧
     (fieldsValid k s f.payload = true → s.permits f.stn k (maskDeck k s f.payload) = false →
       ∃ u, exec c s = .next u.startTx ∧ Replied s u f rest (.refused .notPermitted) ∧ NoNews s u ∧
         OnlyChanges [.link] s u) ∧
     (fieldsValid k s f.payload = true → s.permits f.stn k (maskDeck k s f.payload) = true → admits s.session k = false →
       ∃ u, exec c s = .next u.startTx ∧
         Replied s u f rest (.refused (if s.session = .noProfile then .noProfile else .wrongSession)) ∧ NoNews s u ∧
         OnlyChanges [.link] s u)) ∧
  (∀ (s : State) (f : Frame) (rest : List Frame), s.link.rxBuffer = f :: rest → s.session ≠ .loading →
    s.link.reserved.length + s.link.filled.length < 8 → RequestKind.ofCode f.kind = none →
    ∃ u, exec .badKindRequest s = .next u.startTx ∧ Replied s u f rest (.refused .badKind) ∧ NoNews s u ∧
      OnlyChanges [.link] s u) ∧
  (∀ (s : State) (stn : Byte) (k : RequestKind) (deck : Option Deck), 1 ≤ stn.toNat → stn.toNat ≤ 30 →
    (s.permits stn k deck = true ↔ (stationEntry s stn).role ∈ rolesOf k ∧
      ((stationEntry s stn).role = .marshal → ∀ d ∈ deck, inDecks (stationEntry s stn).mask d = true))) ∧
  ∀ (x : Session) (k : RequestKind), admits x k = true ↔ x ∈ sessionsOf k

/-- A request row does nothing while the handler can take no such frame: the buffer is empty, eight slots are in use, the
session is LOADING, or the front frame is of another kind; the row for unknown kinds likewise (R162, R171; the model's
reading, log entry 1). -/
def Obligations.RequestsWaitForTheirFrame : Prop :=
  (∀ (c : Instr) (k : RequestKind) (s : State), requestOf c = some k →
     (s.link.rxBuffer = [] ∨ s.session = .loading ∨ 8 ≤ s.link.reserved.length + s.link.filled.length ∨
       ∃ f rest, s.link.rxBuffer = f :: rest ∧ RequestKind.ofCode f.kind ≠ some k) →
     exec c s = .next s) ∧
  ∀ s : State,
    (s.link.rxBuffer = [] ∨ s.session = .loading ∨ 8 ≤ s.link.reserved.length + s.link.filled.length ∨
      ∃ f rest, s.link.rxBuffer = f :: rest ∧ RequestKind.ofCode f.kind ≠ none) →
    exec .badKindRequest s = .next s

/-- R7: a request that names a unit no record holds is refused UNKNOWN_UNIT; that the references 0 and 4294967295 are looked up
like any other is the model's reading (log entry 14). R6: while the allocating mark is set, AMEND, CANCEL,
CHECK_IN, PRESENT, HOLD_UNIT and RELEASE_HOLD naming the unit are refused BUSY. Nothing else changes. -/
def Obligations.UnknownOrMarkedUnitIsRefused : Prop :=
  (∀ (c : Instr) (k : RequestKind) (s : State) (f : Frame) (rest : List Frame) (ref : Ref),
     requestOf c = some k → unitNamed k s f.payload = some ref → Handed k (maskDeck k s f.payload) s f rest →
     s.unit? ref = none →
     ∃ u, exec c s = .next u.startTx ∧ Replied s u f rest (.refused .unknownUnit) ∧ NoNews s u ∧ OnlyChanges [.link] s u) ∧
  ∀ (c : Instr) (k : RequestKind) (s : State) (f : Frame) (rest : List Frame) (ref : Ref) (v : UnitRecord),
    requestOf c = some k → busyWhenMarked k = true → unitNamed k s f.payload = some ref →
    Handed k (maskDeck k s f.payload) s f rest → s.unit? ref = some v → v.mark = true →
    ∃ u, exec c s = .next u.startTx ∧ Replied s u f rest (.refused .busy) ∧ NoNews s u ∧ OnlyChanges [.link] s u

/-- R9, R10, R11, R13, R15, R16, R118, R158: a status that does not admit the request refuses it, and nothing else changes.
AMEND is refused for its status only when its two references agree (log entry 13). -/
def Obligations.StatusRefusesRequests : Prop :=
  ∀ (c : Instr) (k : RequestKind) (s : State) (f : Frame) (rest : List Frame) (ref : Ref) (v : UnitRecord) (r : Result),
    requestOf c = some k → unitNamed k s f.payload = some ref → Handed k (maskDeck k s f.payload) s f rest →
    s.unit? ref = some v → (busyWhenMarked k = true → v.mark = false) →
    (∀ q, k = .amend → readAmend s f.payload = some q → q.2.ref = q.1) → statusRefusal k v.status = some r →
    ∃ u, exec c s = .next u.startTx ∧ Replied s u f rest (.refused r) ∧ NoNews s u ∧ OnlyChanges [.link] s u

/-! ## The Unit Table (chapter 1) -/

/-- BOOK (R4, R8): with no record under the reference and a free slot, the record is created with its booking values and the
request is answered OK. A reference that a record holds is refused DUPLICATE, whether or not the table is full; with no such
record and 512 records held the request is refused TABLE_FULL. Nothing else changes. -/
def Obligations.BookCreatesTheRecord : Prop :=
  (∀ (s : State) (f : Frame) (rest : List Frame) (d : Declared),
     Handed .book none s f rest → readBook s f.payload = some d → s.unit? d.ref = none → s.units.length < 512 →
     ∃ u, exec .book s = .next u.startTx ∧ Replied s u f rest .done ∧ NoNews s u ∧
       UnitBecomes s u d.ref
         { decl := d, cls := { priority := false, seg := 0, decks := 0, axleEst := 1 }, status := .booked, lane := none,
           offset := none, measured := none, axleCount := none, mismatch := false, weighFault := false,
           redirected := false, noShow := 0, age := 0, gate := none, mark := false } ∧
       u.units.length = s.units.length + 1 ∧ OnlyChanges [.link, .units] s u) ∧
  ∀ (s : State) (f : Frame) (rest : List Frame) (d : Declared),
    Handed .book none s f rest → readBook s f.payload = some d → (s.unit? d.ref ≠ none ∨ 512 ≤ s.units.length) →
    ∃ u, exec .book s = .next u.startTx ∧
      Replied s u f rest (.refused (if s.unit? d.ref = none then .tableFull else .duplicate)) ∧ NoNews s u ∧
      OnlyChanges [.link] s u

/-- AMEND (R9): the declared part of a BOOKED record is replaced as a whole when the two references agree; when they differ
the request is refused BAD_FIELD and nothing else changes. That differing references are refused so whatever the record's
status is the model's reading of the order of the two checks (log entry 13). -/
def Obligations.AmendReplacesTheDeclaredPart : Prop :=
  ∀ (s : State) (f : Frame) (rest : List Frame) (ref : Ref) (d : Declared) (v : UnitRecord),
    Handed .amend none s f rest → readAmend s f.payload = some (ref, d) → s.unit? ref = some v → v.mark = false →
    (d.ref = ref → v.status = .booked →
      ∃ u, exec .amend s = .next u.startTx ∧ Replied s u f rest .done ∧ NoNews s u ∧
        UnitBecomes s u ref { v with decl := d } ∧ OnlyChanges [.link, .units] s u) ∧
    (d.ref ≠ ref →
      ∃ u, exec .amend s = .next u.startTx ∧ Replied s u f rest (.refused .badField) ∧ NoNews s u ∧
        OnlyChanges [.link] s u)

/-- CANCEL (R10, R20) of a BOOKED, LAPSED, HELD or SHUT_OUT unit retires its record; of an UNPLACED one also takes it off the
unplaced list; no walk follows. Of a WAITING unit it releases the reservation (lane list, sums and load, call queue with its
gate hold), retires the record and asks for a retry walk. -/
def Obligations.CancelRetiresTheUnit : Prop :=
  (∀ (s : State) (f : Frame) (rest : List Frame) (ref : Ref) (v : UnitRecord),
     Handed .cancel none s f rest → readRef s f.payload = some ref → s.unit? ref = some v → v.mark = false →
     (v.status = .booked ∨ v.status = .lapsed ∨ v.status = .held ∨ v.status = .shutOut ∨ v.status = .unplaced) →
     ∃ u, exec .cancel s = .next u.startTx ∧ Replied s u f rest .done ∧ NoNews s u ∧ Retired s u ref ∧
       u.alc.service = s.alc.service ∧
       u.alc.unplaced = (if v.status = .unplaced then s.alc.unplaced.erase ref else s.alc.unplaced) ∧
       OnlyChanges [.link, .units, .checkIn, .alc] s u) ∧
  ∀ (s : State) (f : Frame) (rest : List Frame) (ref : Ref) (v : UnitRecord) (l : Lane),
    Handed .cancel none s f rest → readRef s f.payload = some ref → s.unit? ref = some v → v.mark = false →
    v.status = .waiting → v.lane = some l →
    (ref ∈ (s.ramp (s.laneFixed l).ramp).prio ∨ ref ∈ (s.ramp (s.laneFixed l).ramp).ord) →
    ∃ u, exec .cancel s = .next u.startTx ∧ Replied s u f rest .done ∧ Notified s u [] ∧ Retired s u ref ∧
      LaneLeft s u l ref ∧ SumsLeft s u l v.decl.weight ∧ QueueLeft s u (s.laneFixed l).ramp ref ∧ WalkAsked s u ∧
      u.alc.unplaced = s.alc.unplaced ∧ u.alc.walk = s.alc.walk ∧
      OnlyChanges [.link, .units, .checkIn, .lane l, .stb, .ramp (s.laneFixed l).ramp, .alc] s u

/-- CHECK_IN (R11) of a BOOKED unit: the observed length, the gate, the check-in order list, the classification (of the record
with its new length and gate), the mark; the record goes to the end of the service input, the slot stays reserved, and the
status stays BOOKED. RELEASE_HOLD (R16) of a HELD unit: the no-show count becomes 0, the unit is classified afresh, marked,
and handed over with status HELD. -/
def Obligations.CheckInAndReleaseHoldHandTheUnitOver : Prop :=
  (∀ (s : State) (f : Frame) (rest : List Frame) (ref : Ref) (length : Option Nat) (v : UnitRecord),
     Handed .checkIn none s f rest → readCheckIn s f.payload = some (ref, length) → s.unit? ref = some v →
     v.mark = false → v.status = .booked →
     ∃ u, exec .checkIn s = .next u.startTx ∧ Awaited s u f rest ∧ NoNews s u ∧
       (let w := { v with decl := { v.decl with length := length.getD v.decl.length }, gate := some f.stn.toNat }
        UnitBecomes s u ref { w with cls := s.classification w, mark := true }) ∧
       u.checkIn = s.checkIn ++ [ref] ∧
       u.alc = { s.alc with service := s.alc.service ++ [.placement ref (.checkIn f.ticket)] } ∧
       OnlyChanges [.link, .units, .checkIn, .alc] s u) ∧
  ∀ (s : State) (f : Frame) (rest : List Frame) (ref : Ref) (v : UnitRecord),
    Handed .releaseHold none s f rest → readRef s f.payload = some ref → s.unit? ref = some v → v.mark = false →
    v.status = .held →
    ∃ u, exec .releaseHold s = .next u.startTx ∧ Awaited s u f rest ∧ NoNews s u ∧
      UnitBecomes s u ref { v with noShow := 0, cls := s.classification v, mark := true } ∧
      u.alc = { s.alc with service := s.alc.service ++ [.placement ref (.releaseHold f.ticket)] } ∧
      OnlyChanges [.link, .units, .alc] s u

/-- PRESENT (R13, R14): a WAITING unit's age becomes 0 and the response carries its status, priority and site; a LAPSED unit
is classified afresh, marked, and handed over with its age as it was. -/
def Obligations.PresentConfirmsOrReturnsAUnit : Prop :=
  ∀ (s : State) (f : Frame) (rest : List Frame) (ref : Ref) (v : UnitRecord),
    Handed .present (deckOfRef s ref) s f rest → readRef s f.payload = some ref → s.unit? ref = some v → v.mark = false →
    (v.status = .waiting →
      ∃ u, exec .present s = .next u.startTx ∧
        Replied s u f rest (.allocation .waiting v.cls.priority
          (v.lane.map fun l => { lane := l, deck := (s.laneFixed l).deck, ramp := (s.laneFixed l).ramp })) ∧
        NoNews s u ∧ UnitBecomes s u ref { v with age := 0 } ∧ OnlyChanges [.link, .units] s u) ∧
    (v.status = .lapsed →
      ∃ u, exec .present s = .next u.startTx ∧ Awaited s u f rest ∧ NoNews s u ∧
        UnitBecomes s u ref { v with cls := s.classification v, mark := true } ∧
        u.alc = { s.alc with service := s.alc.service ++ [.placement ref (.present f.ticket)] } ∧
        OnlyChanges [.link, .units, .alc] s u)

/-- HOLD_UNIT (R15) of a WAITING unit: the reservation is released as R10 orders, the unit is HELD, a walk is asked for; of an
UNPLACED one, it leaves the unplaced list; of a LAPSED one, nothing else. The no-show count is unchanged. -/
def Obligations.HoldUnitTurnsBackAnUncalledUnit : Prop :=
  ∀ (s : State) (f : Frame) (rest : List Frame) (ref : Ref) (v : UnitRecord),
    Handed .holdUnit (deckOfRef s ref) s f rest → readRef s f.payload = some ref → s.unit? ref = some v →
    v.mark = false →
    (∀ l, v.status = .waiting → v.lane = some l →
      (ref ∈ (s.ramp (s.laneFixed l).ramp).prio ∨ ref ∈ (s.ramp (s.laneFixed l).ramp).ord) →
      ∃ u, exec .holdUnit s = .next u.startTx ∧ Replied s u f rest .done ∧ Notified s u [] ∧
        UnitBecomes s u ref { v with status := .held, lane := none } ∧ LaneLeft s u l ref ∧
        SumsLeft s u l v.decl.weight ∧ QueueLeft s u (s.laneFixed l).ramp ref ∧ WalkAsked s u ∧
        u.alc.unplaced = s.alc.unplaced ∧ u.alc.walk = s.alc.walk ∧
        OnlyChanges [.link, .units, .lane l, .stb, .ramp (s.laneFixed l).ramp, .alc] s u) ∧
    (v.status = .unplaced ∨ v.status = .lapsed →
      ∃ u, exec .holdUnit s = .next u.startTx ∧ Replied s u f rest .done ∧ NoNews s u ∧
        UnitBecomes s u ref { v with status := .held } ∧ u.alc.service = s.alc.service ∧
        u.alc.unplaced = (if v.status = .unplaced then s.alc.unplaced.erase ref else s.alc.unplaced) ∧
        OnlyChanges [.link, .units, .alc] s u)

/-- HOLD_UNIT (R15, R120) of a CALLED unit, which stands in no queue: the reservation is released, the unit leaves the called
list (the call timer as R114 gives), an UNCALL notice with reason HELD and no lane is queued, a walk is asked for, and the
budget is not refunded. -/
def Obligations.HoldUnitUncallsACalledUnit : Prop :=
  ∀ (s : State) (f : Frame) (rest : List Frame) (ref : Ref) (v : UnitRecord) (l : Lane),
    Handed .holdUnit (deckOfRef s ref) s f rest → readRef s f.payload = some ref → s.unit? ref = some v →
    v.mark = false → v.status = .called → v.lane = some l →
    ref ∉ (s.ramp (s.laneFixed l).ramp).prio → ref ∉ (s.ramp (s.laneFixed l).ramp).ord →
    ∃ u, exec .holdUnit s = .next u.startTx ∧ Replied s u f rest .done ∧ u.link.flags = s.link.flags ∧
      Notified s u [.uncall (s.laneFixed l).ramp ref .held none] ∧
      UnitBecomes s u ref { v with status := .held, lane := none } ∧ LaneLeft s u l ref ∧
      SumsLeft s u l v.decl.weight ∧
      u.ramp (s.laneFixed l).ramp =
        { s.ramp (s.laneFixed l).ramp with
          called := (s.ramp (s.laneFixed l).ramp).called.erase ref
          callTimer := if (s.ramp (s.laneFixed l).ramp).called.head? = some ref then headTimer u (s.laneFixed l).ramp
            else (s.ramp (s.laneFixed l).ramp).callTimer } ∧
      WalkAsked s u ∧ u.alc.unplaced = s.alc.unplaced ∧ u.alc.walk = s.alc.walk ∧
      OnlyChanges [.link, .units, .lane l, .stb, .ramp (s.laneFixed l).ramp, .alc] s u

/-- AGEING_EXPIRY (R17, R18, R19): the timer restarts; every unmarked WAITING record ages by one; those whose age then equals
the limit release their reservations and are LAPSED without a lane; a walk is asked for exactly when one lapsed; no notice is
sent. While the timer is stopped nothing happens (log entries 1 and 3). -/
def Obligations.AgeingExpiryAgesAndLapses : Prop :=
  ∀ s : State,
    (s.ageing.isSome = false → exec .ageingExpiry s = .next s) ∧
    (s.ageing.isSome = true → ReservationLaw s →
      let ages (v : UnitRecord) : Bool := decide (v.status = .waiting) && !v.mark
      let lapses (v : UnitRecord) : Bool := ages v && decide (v.age + 1 = s.vessel.ageLimit)
      let gone := (s.units.filter lapses).map (·.decl.ref)
      ∃ u, exec .ageingExpiry s = .next u.startTx ∧ u.ageing = some (s.vessel.agePeriod * 1000) ∧
        (∀ ref, u.unit? ref = (s.unit? ref).map fun v =>
          if lapses v then { v with age := v.age + 1, status := .lapsed, lane := none }
          else if ages v then { v with age := v.age + 1 } else v) ∧
        LanesReleased s u gone ∧ SumsReleased s u gone ∧ QueuesReleased s u gone ∧
        (if gone = [] then u.alc = s.alc
          else WalkAsked s u ∧ u.alc.unplaced = s.alc.unplaced ∧ u.alc.walk = s.alc.walk) ∧
        Notified s u [] ∧ OnlyNews s u ∧
        OnlyChanges ([.link, .units, .ageing, .stb, .ramp .a, .ramp .b, .alc] ++ anyLane) s u)

/-! ## Classification (chapter 5) -/

/-- R60, R91 to R97: the four fields that classification writes, from the record, the hazard table, the check-in gate's entry,
the base level and the lanes' height classes. -/
def Obligations.ClassificationFollowsTheTables : Prop :=
  ∀ (s : State) (v : UnitRecord) (stn : Nat),
    let gate := s.profile.stations.getD (stn - 1) { role := .none, level := 0, ceiling := 0, mask := 0 }
    let hazard : HazardEntry :=
      match v.decl.hazard with
      | none => { priority := false, seg := 0, decks := 0xF }
      | some n => s.pst.hazards.getD (n - 1) { priority := false, seg := 0, decks := 0 }
    let booked := v.decl.service.getD (if gate.role = .gate then gate.level else 0)
    let ceiling := if gate.role = .gate then gate.ceiling else 7
    let level := if ceiling < booked then ceiling else booked
    let c := s.classification v
    v.gate = some stn → (gate.role = .gate ∨ gate.role = .planning) → (∀ n, v.decl.hazard = some n → 1 ≤ n) →
      (c.priority = true ↔ hazard.priority = true ∨ s.vessel.baseLevel ≤ level) ∧ c.seg = hazard.seg ∧
      (∀ d : Deck, inDecks c.decks d = true ↔ inDecks hazard.decks d = true ∧
        ∃ l ∈ s.profile.lanes, l.deck = d ∧ v.decl.heightClass ≤ l.heightClass) ∧
      (∀ m, v.decl.maxAxle = some m → c.axleEst = m) ∧
      (∀ n, v.decl.maxAxle = none → v.decl.axles = some n → c.axleEst = (v.decl.weight + n - 1) / n) ∧
      (v.decl.maxAxle = none → v.decl.axles = none → c.axleEst = (v.decl.weight + 1) / 2)

/-! ## Through cargo (chapter 9) -/

/-- PLACE (R153, R154): the checks in their order, the first that fails deciding the result, and nothing else changes. One that
passes every check (R155, R156): the record is created ABOARD, the occupant list takes the unit at the place its offset gives,
the committed sums and the deck load rise, the fill is recomputed, and the response carries the totals after the event. No
notice, no walk. -/
def Obligations.PlaceChecksAndEntersTheUnit : Prop :=
  (∀ (s : State) (f : Frame) (rest : List Frame) (q : PlaceRequest),
     Handed .place none s f rest → readPlace s f.payload = some q →
     let held := s.unit? q.ref ≠ none
     let full := 512 ≤ s.units.length
     let shut := (s.lane q.lane).state = .closing ∨ (s.lane q.lane).state = .withdrawn
     let promised := (s.lane q.lane).reservations ≠ []
     let heavy := ((s.deckFixed (s.laneFixed q.lane).deck).cap : Int) <
       s.stb.load[(s.laneFixed q.lane).deck] + q.weight
     let refuses (r : Result) : Prop :=
       ∃ u, exec .place s = .next u.startTx ∧ Replied s u f rest (.refused r) ∧ NoNews s u ∧ OnlyChanges [.link] s u
     (held → refuses .duplicate) ∧
     (¬ held → full → refuses .tableFull) ∧
     (¬ held → ¬ full → shut → refuses .laneState) ∧
     (¬ held → ¬ full → ¬ shut → promised → refuses .blocked) ∧
     (¬ held → ¬ full → ¬ shut → ¬ promised → ¬ PlaceFits s q → refuses .overlaps) ∧
     (¬ held → ¬ full → ¬ shut → ¬ promised → PlaceFits s q → ¬ PlaceOrdered s q → refuses .blocked) ∧
     (¬ held → ¬ full → ¬ shut → ¬ promised → PlaceFits s q → PlaceOrdered s q → heavy → refuses .limit)) ∧
  ∀ (s : State) (f : Frame) (rest : List Frame) (q : PlaceRequest),
    Handed .place none s f rest → readPlace s f.payload = some q →
    (s.lane q.lane).occupants.Pairwise (fun o p => o.offset < p.offset) →
    s.unit? q.ref = none → s.units.length < 512 →
    ((s.lane q.lane).state = .opened ∨ (s.lane q.lane).state = .closed) → (s.lane q.lane).reservations = [] →
    PlaceFits s q → PlaceOrdered s q →
    s.stb.load[(s.laneFixed q.lane).deck] + q.weight ≤ ((s.deckFixed (s.laneFixed q.lane).deck).cap : Int) →
    ∃ u, exec .place s = .next u.startTx ∧
      Replied s u f rest (.placed q.ref q.lane (s.laneFixed q.lane).deck q.offset
        (u.stb.mlC + u.stb.mlP + u.stb.bl) (u.stb.mtC + u.stb.mtP + u.stb.bt)) ∧
      Notified s u [] ∧
      UnitBecomes s u q.ref
        { decl :=
            { ref := q.ref, kind := q.kind, length := q.length, widthClass := q.widthClass,
              heightClass := q.heightClass, weight := q.weight, axles := none, maxAxle := none, hazard := q.hazard,
              service := none, group := q.group }
          cls :=
            { priority := false, seg := (s.hazardEntry q.hazard).seg, decks := (s.hazardEntry q.hazard).decks,
              axleEst := (q.weight + 1) / 2 }
          status := .aboard, lane := some q.lane, offset := some q.offset, measured := none, axleCount := none,
          mismatch := false, weighFault := false, redirected := false, noShow := 0, age := 0, gate := none,
          mark := false } ∧
      u.lane q.lane =
        { s.lane q.lane with
          occupants := (s.lane q.lane).occupants.filter (fun o => decide (o.offset < q.offset)) ++
            { ref := q.ref, offset := q.offset } ::
              (s.lane q.lane).occupants.filter fun o => decide (q.offset < o.offset) } ∧
      u.stb = sumsWithAboard s q.lane q.weight q.offset q.length ∧ Refilled s u (s.laneFixed q.lane).deck ∧
      OnlyChanges [.link, .units, .lane q.lane, .stb, .deck (s.laneFixed q.lane).deck] s u

/-- DISCHARGE (R158, R159) of an ABOARD unit: BLOCKED unless it is the outermost occupant and the lane holds no reservation,
then HEEL_HOLD for a heavy unit while heel hold is asserted; otherwise the unit leaves the committed sums by its
weight_used, the occupant list and the table, the deck's fill is recomputed and its warning state, line and pending flag
follow, the response carries the new physical end and totals, and a walk is asked for. -/
def Obligations.DischargeTakesTheOutermostUnit : Prop :=
  ∀ (s : State) (f : Frame) (rest : List Frame) (ref : Ref) (v : UnitRecord) (l : Lane) (offset : Nat),
    Handed .discharge (deckOfRef s ref) s f rest → readRef s f.payload = some ref → s.unit? ref = some v →
    v.status = .aboard → v.lane = some l → v.offset = some offset →
    let outermost := (s.lane l).occupants.getLast?.map (·.ref) = some ref
    let promised := (s.lane l).reservations ≠ []
    let heeling := s.hlm.hold = true ∧ s.vessel.heavyThreshold ≤ v.decl.weight
    let refuses (r : Result) : Prop :=
      ∃ u, exec .discharge s = .next u.startTx ∧ Replied s u f rest (.refused r) ∧ NoNews s u ∧ OnlyChanges [.link] s u
    (¬ outermost ∨ promised → refuses .blocked) ∧
    (outermost → ¬ promised → heeling → refuses .heelHold) ∧
    (outermost → ¬ promised → ¬ heeling → ReservationLaw s →
      ∃ u, exec .discharge s = .next u.startTx ∧
        Replied s u f rest (.discharged ref l (s.laneFixed l).deck (u.physicalEnd l)
          (u.stb.mlC + u.stb.mlP + u.stb.bl) (u.stb.mtC + u.stb.mtP + u.stb.bt)) ∧
        Notified s u [] ∧ Retired s u ref ∧
        u.lane l = { s.lane l with occupants := (s.lane l).occupants.dropLast } ∧
        u.stb = sumsWithoutAboard s l (match v.measured with | some m => m.weight | none => v.decl.weight) offset
          v.decl.length ∧
        Refilled s u (s.laneFixed l).deck ∧ WalkAsked s u ∧
        u.alc.unplaced = s.alc.unplaced ∧ u.alc.walk = s.alc.walk ∧
        OnlyChanges [.link, .units, .checkIn, .lane l, .stb, .deck (s.laneFixed l).deck, .alc] s u)

/-! ## The Lane Map (chapter 2) -/

/-- LANE_OPEN (R39): taken in CLOSING, CLOSED and WITHDRAWN: the lane is OPEN, its lists and records stay, a walk is asked for; in
OPEN it is refused LANE_STATE, as LANE_CLOSE is in any other state (R37). OBSTRUCTION_CLEAR (R36): one record equal to the
clipped stretch is removed and a walk is asked for; with none, the request is refused BAD_FIELD. The lane's state stays. -/
def Obligations.LaneOpenAndObstructionClearMakeRoom : Prop :=
  (∀ (s : State) (f : Frame) (rest : List Frame) (l : Lane), readLane s f.payload = some l →
     (Handed .laneOpen (deckOfLane s l) s f rest → (s.lane l).state ≠ .opened →
       ∃ u, exec .laneOpen s = .next u.startTx ∧ Replied s u f rest .done ∧ NoNews s u ∧
         u.lane l = { s.lane l with state := .opened } ∧ WalkAsked s u ∧ u.alc.unplaced = s.alc.unplaced ∧
         u.alc.walk = s.alc.walk ∧ OnlyChanges [.link, .lane l, .alc] s u) ∧
     (Handed .laneOpen (deckOfLane s l) s f rest → (s.lane l).state = .opened →
       ∃ u, exec .laneOpen s = .next u.startTx ∧ Replied s u f rest (.refused .laneState) ∧ NoNews s u ∧
         OnlyChanges [.link] s u) ∧
     (Handed .laneClose (deckOfLane s l) s f rest → (s.lane l).state ≠ .opened →
       ∃ u, exec .laneClose s = .next u.startTx ∧ Replied s u f rest (.refused .laneState) ∧ NoNews s u ∧
         OnlyChanges [.link] s u)) ∧
  ∀ (s : State) (f : Frame) (rest : List Frame) (q : SpanRequest),
    Handed .obstructionClear (deckOfLane s q.lane) s f rest → readSpan s f.payload = some q →
    let length := (s.laneFixed q.lane).length
    let x : Obstruction :=
      { start := q.start, extent := if length < q.start + q.extent then length - q.start else q.extent }
    (x ∈ (s.lane q.lane).obstructions →
      ∃ u, exec .obstructionClear s = .next u.startTx ∧
        Replied s u f rest (.obstructionCleared ((s.lane q.lane).obstructions.length - 1)) ∧ NoNews s u ∧
        u.lane q.lane = { s.lane q.lane with obstructions := (s.lane q.lane).obstructions.erase x } ∧ WalkAsked s u ∧
        u.alc.unplaced = s.alc.unplaced ∧ u.alc.walk = s.alc.walk ∧ OnlyChanges [.link, .lane q.lane, .alc] s u) ∧
    (x ∉ (s.lane q.lane).obstructions →
      ∃ u, exec .obstructionClear s = .next u.startTx ∧ Replied s u f rest (.refused .badField) ∧ NoNews s u ∧
        OnlyChanges [.link] s u)

/-- LANE_CLOSE (R37, R80) of an OPEN lane: the WAITING units are released and handed over in list order, UNPLACED, marked and
without a lane; the others keep their place; the lane is CLOSING while one remains and CLOSED otherwise; the response carries
the state and the number released. No notice, no walk. -/
def Obligations.LaneCloseReallocatesTheWaiting : Prop :=
  ∀ (s : State) (f : Frame) (rest : List Frame) (l : Lane),
    Handed .laneClose (deckOfLane s l) s f rest → readLane s f.payload = some l → (s.lane l).state = .opened →
    ReservationLaw s →
    let waits (ref : Ref) : Bool := decide (s.statusOf ref = some .waiting)
    let gone := (s.lane l).reservations.filter waits
    let kept := (s.lane l).reservations.filter fun ref => !waits ref
    let state := if kept = [] then LaneState.closed else LaneState.closing
    ∃ u, exec .laneClose s = .next u.startTx ∧ Replied s u f rest (.laneClosed state gone.length) ∧ Notified s u [] ∧
      u.lane l = { s.lane l with state := state, reservations := kept } ∧
      (∀ ref, u.unit? ref = (s.unit? ref).map fun v => if ref ∈ gone then reallocatedRecord v else v) ∧
      u.alc = { s.alc with service := s.alc.service ++ gone.map fun ref => .placement ref (.reallocation l) } ∧
      SumsReleased s u gone ∧ QueuesReleased s u gone ∧
      OnlyChanges [.link, .units, .lane l, .stb, .ramp (s.laneFixed l).ramp, .alc] s u

/-- OBSTRUCTION_ADD (R32, R33): a stretch that overlaps an occupant's span is refused OVERLAPS; with room for a record, and
where the projection of all the reserved units still fits, the clipped record stands in start order and nothing is
released. -/
def Obligations.ObstructionIsRecorded : Prop :=
  ∀ (s : State) (f : Frame) (rest : List Frame) (q : SpanRequest),
    Handed .obstructionAdd (deckOfLane s q.lane) s f rest → readSpan s f.payload = some q →
    let length := (s.laneFixed q.lane).length
    let x : Obstruction :=
      { start := q.start, extent := if length < q.start + q.extent then length - q.start else q.extent }
    let overlaps := ∃ o ∈ (s.lane q.lane).occupants,
      o.offset < x.start + x.extent ∧ x.start < o.offset + s.lengthOf o.ref
    (overlaps → ∃ u, exec .obstructionAdd s = .next u.startTx ∧ Replied s u f rest (.refused .overlaps) ∧ NoNews s u ∧
      OnlyChanges [.link] s u) ∧
    (¬ overlaps → (s.lane q.lane).obstructions.length < 2 →
      (s.lane q.lane).obstructions.Pairwise (fun y z => y.start ≤ z.start) →
      ∃ obs, obs.Perm (x :: (s.lane q.lane).obstructions) ∧ obs.Pairwise (fun y z => y.start ≤ z.start) ∧
        ((∀ p ∈ projectFrom obs s.vessel.gap (s.startPoint q.lane)
            ((s.lane q.lane).reservations.map fun r => (r, s.lengthOf r)), p.stop ≤ length) →
          ∃ u, exec .obstructionAdd s = .next u.startTx ∧ Replied s u f rest (.obstructionAdded false 0) ∧ NoNews s u ∧
            u.lane q.lane = { s.lane q.lane with obstructions := obs } ∧ OnlyChanges [.link, .lane q.lane] s u))

/-- OBSTRUCTION_ADD (R34): where the projection no longer fits, reservations are released from the end backward until it
does: what stays is the longest run from the front whose projection fits, the response counts the rest, the released
units are without a lane, WAITING ones leave their queues and the gate hold is re-examined (R121), CALLED ones leave the called
list with an UNCALL notice (queued after the releases: log entry 16), those not CROSSING are handed over in list order, and a
walk waits behind them. -/
def Obligations.ObstructionReleasesBackward : Prop :=
  ∀ (s : State) (f : Frame) (rest : List Frame) (q : SpanRequest) (kept gone : List Ref),
    Handed .obstructionAdd (deckOfLane s q.lane) s f rest → readSpan s f.payload = some q →
    s.overlapsOccupant q.lane (s.clip q) = false → (s.lane q.lane).obstructions.length < 2 → ReservationLaw s →
    (s.lane q.lane).reservations = kept ++ gone → gone ≠ [] →
    let obs := insertObstruction (s.clip q) (s.lane q.lane).obstructions
    let fits (refs : List Ref) : Prop :=
      ∀ p ∈ projectFrom obs s.vessel.gap (s.startPoint q.lane) (refs.map fun r => (r, s.lengthOf r)),
        p.stop ≤ (s.laneFixed q.lane).length
    let called := gone.filter fun ref => decide (s.statusOf ref = some .called)
    let moved := (gone.filter fun ref => decide (s.statusOf ref ≠ some .crossing)).map fun ref =>
      Item.placement ref (.reallocation q.lane)
    let r := (s.laneFixed q.lane).ramp
    fits kept → (∀ n, 0 < n → n ≤ gone.length → ¬ fits (kept ++ gone.take n)) →
    ∃ u, exec .obstructionAdd s = .next u.startTx ∧ Replied s u f rest (.obstructionAdded false gone.length) ∧
      u.lane q.lane =
        { s.lane q.lane with
          reservations := kept
          obstructions := obs
          state := if (s.lane q.lane).state = .closing ∧ kept = [] then .closed else (s.lane q.lane).state } ∧
      (∀ ref, u.unit? ref = (s.unit? ref).map fun v =>
        if ref ∈ gone then (if v.status = .crossing then { v with lane := none } else reallocatedRecord v) else v) ∧
      u.alc.service =
        (if Item.walk ∈ s.alc.service then s.alc.service ++ moved else s.alc.service ++ moved ++ [.walk]) ∧
      u.alc.unplaced = s.alc.unplaced ∧ u.alc.walk = s.alc.walk ∧ SumsReleased s u gone ∧
      RampReleased s u r called gone ∧
      Notified s u (called.map fun ref => .uncall r ref .released none) ∧
      OnlyChanges [.link, .units, .lane q.lane, .stb, .ramp r, .alc] s u

/-- OBSTRUCTION_ADD (R33, R35) of a third record: the lane is WITHDRAWN with a LANE_WITHDRAWN notice first, every reservation
is released, WAITING units leave their queues and the gate hold is re-examined (R121), CALLED units leave the called list with
an UNCALL notice, the units that are not CROSSING are handed over in list order, and no walk is asked for; a lane already WITHDRAWN stays as it is. No record is kept. -/
def Obligations.ThirdObstructionWithdrawsTheLane : Prop :=
  ∀ (s : State) (f : Frame) (rest : List Frame) (q : SpanRequest),
    Handed .obstructionAdd (deckOfLane s q.lane) s f rest → readSpan s f.payload = some q →
    s.overlapsOccupant q.lane (s.clip q) = false → 2 ≤ (s.lane q.lane).obstructions.length →
    ((s.lane q.lane).state = .withdrawn →
      ∃ u, exec .obstructionAdd s = .next u.startTx ∧ Replied s u f rest (.obstructionAdded true 0) ∧ NoNews s u ∧
        OnlyChanges [.link] s u) ∧
    ((s.lane q.lane).state ≠ .withdrawn → ReservationLaw s →
      let gone := (s.lane q.lane).reservations
      let called := gone.filter fun ref => decide (s.statusOf ref = some .called)
      let r := (s.laneFixed q.lane).ramp
      ∃ u, exec .obstructionAdd s = .next u.startTx ∧ Replied s u f rest (.obstructionAdded true gone.length) ∧
        u.lane q.lane = { s.lane q.lane with state := .withdrawn, reservations := [] } ∧
        (∀ ref, u.unit? ref = (s.unit? ref).map fun v =>
          if ref ∈ gone then (if v.status = .crossing then { v with lane := none } else reallocatedRecord v) else v) ∧
        u.alc = { s.alc with
          service := s.alc.service ++
            (gone.filter fun ref => decide (s.statusOf ref ≠ some .crossing)).map fun ref =>
              .placement ref (.reallocation q.lane) } ∧
        SumsReleased s u gone ∧ RampReleased s u r called gone ∧
        Notified s u (.laneWithdrawn q.lane (s.laneFixed q.lane).deck ::
          called.map fun ref => .uncall (s.laneFixed q.lane).ramp ref .released none) ∧
        OnlyChanges [.link, .units, .lane q.lane, .stb, .ramp r, .alc] s u)

/-! ## Ballast and flags (R50, R179) -/

/-- SET_BALLAST (R50): both offsets take the values carried, clamped to 50,000,000 either way; the response carries the
indicators, the offsets and the totals; a walk is asked for. CLEAR_FLAGS (R179): the response carries the flags as they
stood, and the selected ones are clear afterwards. -/
def Obligations.BallastIsSetAndFlagsAreCleared : Prop :=
  (∀ (s : State) (f : Frame) (rest : List Frame) (l t : Int),
    Handed .setBallast none s f rest → readBallast s f.payload = some (l, t) →
    let clamp (v : Int) : Int := max (-50000000) (min 50000000 v)
    ∃ u, exec .setBallast s = .next u.startTx ∧
      Replied s u f rest (.ballastSet (decide (clamp l ≠ l)) (decide (clamp t ≠ t)) (clamp l) (clamp t)
        (s.stb.mlC + s.stb.mlP + clamp l) (s.stb.mtC + s.stb.mtP + clamp t)) ∧
      NoNews s u ∧ u.stb = { s.stb with bl := clamp l, bt := clamp t } ∧ WalkAsked s u ∧
      u.alc.unplaced = s.alc.unplaced ∧ u.alc.walk = s.alc.walk ∧ OnlyChanges [.link, .stb, .alc] s u) ∧
  ∀ (s : State) (f : Frame) (rest : List Frame) (sel : Byte),
    Handed .clearFlags none s f rest → readSelection s f.payload = some sel →
    ∃ u, exec .clearFlags s = .next u.startTx ∧ Replied s u f rest (.flagsCleared s.link.sticky) ∧
      (∀ i : Nat, u.link.sticky.getLsbD i = (s.link.sticky.getLsbD i && !sel.getLsbD i)) ∧
      u.link.notices = s.link.notices ∧ u.link.flags = s.link.flags ∧ OnlyChanges [.link] s u

/-! ## The Call Scheduler (chapter 6) -/

/-- RAMP_OPEN (R105, R125): a CLOSED ramp enters OPEN with its pending flag, the remaining budget becomes B and the credit 0,
the interval timer starts, the plate becomes IDLE, a walk is asked for; in any other state it is refused LANE_STATE, as
RAMP_CLOSE is unless the ramp is OPEN (R106). -/
def Obligations.RampOpenOpensAClosedRamp : Prop :=
  ∀ (s : State) (f : Frame) (rest : List Frame) (r : Ramp), readRamp s f.payload = some r →
    (Handed .rampOpen none s f rest → (s.ramp r).state = .closed →
      ∃ u, exec .rampOpen s = .next u.startTx ∧ Replied s u f rest .done ∧ Notified s u [] ∧
        u.link.flags = flagged [.rampState r] s.link.flags ∧
        u.ramp r =
          { s.ramp r with
            state := .opened, remaining := (s.ramp r).budget, credit := 0
            intervalTimer := some ((s.rampFixed r).intervalPeriod * 1000) } ∧
        u.plate r = { s.plate r with state := .idle } ∧ WalkAsked s u ∧ u.alc.unplaced = s.alc.unplaced ∧
        u.alc.walk = s.alc.walk ∧ OnlyChanges [.link, .ramp r, .plate r, .alc] s u) ∧
    (Handed .rampOpen none s f rest → (s.ramp r).state ≠ .closed →
      ∃ u, exec .rampOpen s = .next u.startTx ∧ Replied s u f rest (.refused .laneState) ∧ NoNews s u ∧
        OnlyChanges [.link] s u) ∧
    (Handed .rampClose none s f rest → (s.ramp r).state ≠ .opened →
      ∃ u, exec .rampClose s = .next u.startTx ∧ Replied s u f rest (.refused .laneState) ∧ NoNews s u ∧
        OnlyChanges [.link] s u)

/-- RAMP_CLOSE (R106, R125) of an OPEN ramp: its CALLED units from the front of the called list, each with an UNCALL notice, then
the priority queue, then the ordinary queue, are released and handed over in that order with their former lanes; both timers
stop; a CROSSING head keeps its place; with the plate IDLE the ramp is CLOSED at once, otherwise CLOSING. No walk. -/
def Obligations.RampCloseReleasesTheRamp : Prop :=
  ∀ (s : State) (f : Frame) (rest : List Frame) (r : Ramp),
    Handed .rampClose none s f rest → readRamp s f.payload = some r → (s.ramp r).state = .opened → ReservationLaw s →
    let x := s.ramp r
    let called := x.called.filter fun ref => decide (s.statusOf ref = some .called)
    let gone := called ++ x.prio ++ x.ord
    let state := if (s.plate r).state = .idle then RampState.closed else .closing
    let g := gateAfter (s.rampFixed r) x.gateHold 0
    ∃ u, exec .rampClose s = .next u.startTx ∧ Replied s u f rest (.rampClosed state gone.length) ∧
      Notified s u (called.map fun ref => .uncall r ref .rampClosed none) ∧
      u.link.flags = flagged (.rampState r :: if g = x.gateHold then [] else [.gateHold r]) s.link.flags ∧
      u.ramp r =
        { x with
          state := state, intervalTimer := none, callTimer := none, gateHold := g
          lineHigh := if x.prio ++ x.ord = [] then x.lineHigh else g
          prio := [], ord := [], called := x.called.filter fun ref => !called.contains ref } ∧
      u.plate r = (if (s.plate r).state = .idle then { s.plate r with state := .disarmed } else s.plate r) ∧
      (∀ ref, u.unit? ref = (s.unit? ref).map fun v => if ref ∈ gone then reallocatedRecord v else v) ∧
      u.alc = { s.alc with service := s.alc.service ++ burst s gone } ∧ LanesReleased s u gone ∧
      SumsReleased s u gone ∧
      OnlyChanges ([.link, .units, .stb, .alc, .ramp r, .plate r] ++ anyLane) s u

/-- SET_RAMP (R108): the three values are set clamped, the credit and the remaining budget come down to the new N and B, the
response carries the values and the indicators. INTERVAL_TIMER_EXPIRY (R113): a running timer restores the remaining budget
to B and restarts; a stopped one does nothing (log entries 1 and 3). -/
def Obligations.SetRampClampsAndTheIntervalRestores : Prop :=
  (∀ (s : State) (f : Frame) (rest : List Frame) (q : RampSettings),
     Handed .setRamp none s f rest → readSetRamp s f.payload = some q →
     let n := min 15 q.ratio
     let d := max 1 (min 4 q.depth)
     let b := max 50 (min 5000 q.budget)
     ∃ u, exec .setRamp s = .next u.startTx ∧
       Replied s u f rest (.rampSet n d b (decide (n ≠ q.ratio)) (decide (d ≠ q.depth)) (decide (b ≠ q.budget))) ∧
       NoNews s u ∧
       u.ramp q.ramp =
         { s.ramp q.ramp with
           ratio := n, depth := d, budget := b, credit := min (s.ramp q.ramp).credit n
           remaining := min (s.ramp q.ramp).remaining b } ∧
       OnlyChanges [.link, .ramp q.ramp] s u) ∧
  ∀ (s : State) (r : Ramp),
    ((s.ramp r).intervalTimer = none → exec (.intervalTimerExpiry r) s = .next s) ∧
    ((s.ramp r).intervalTimer ≠ none →
      ∃ u, exec (.intervalTimerExpiry r) s = .next u.startTx ∧
        u.ramp r =
          { s.ramp r with
            remaining := (s.ramp r).budget
            intervalTimer := some ((s.rampFixed r).intervalPeriod * 1000) } ∧
        OnlyChanges [.ramp r] s u)

/-- CALL (R109 to R112): unless the session is ALONGSIDE, the ramp OPEN, the called list shorter than D, four notice slots free
and a queued unit eligible, nothing happens; otherwise the unit that R111 chooses leaves its queue, is CALLED at the end of
the called list, and its CALL notice is queued; budget, credit and call timer follow. -/
def Obligations.CallTakesTheChosenUnit : Prop :=
  ∀ (s : State) (r : Ramp),
    let x := s.ramp r
    let ready := s.session = .alongside ∧ x.state = .opened ∧ x.called.length < x.depth ∧ s.link.notices.length + 4 ≤ 16
    (¬ ready → exec (.call r) s = .next s) ∧
    ((∀ ref ∈ x.prio ++ x.ord, ¬ Eligible s r ref) → exec (.call r) s = .next s) ∧
    ∀ ref credit v l, ready → Chosen s r ref credit → s.unit? ref = some v → v.lane = some l →
      let g := gateAfter (s.rampFixed r) x.gateHold ((x.prio.erase ref).length + (x.ord.erase ref).length)
      ∃ u, exec (.call r) s = .next u.startTx ∧ OnlyNews s u ∧ UnitBecomes s u ref { v with status := .called } ∧
        u.link.notices = s.link.notices ++ [.call r ref l (s.laneFixed l).deck] ∧ u.link.sticky = s.link.sticky ∧
        u.link.flags = (if g = x.gateHold then s.link.flags else flagged [.gateHold r] s.link.flags) ∧
        u.ramp r =
          { x with
            prio := x.prio.erase ref, ord := x.ord.erase ref, gateHold := g, lineHigh := g
            called := x.called ++ [ref], remaining := x.remaining - v.decl.weight, credit := credit
            callTimer := if x.called = [] then headTimer u r else x.callTimer } ∧
        OnlyChanges [.link, .units, .ramp r] s u

/-- SKIP (R118) and a head's first no-show (R115), in a lane that is not CLOSING, with the followers of R117: the unit returns
to WAITING with age 0, at the front of its queue after SKIP and at the back after a no-show; the followers return to the
front; the lane keeps them all. A call timer that is stopped does not expire (log entries 1
and 3). -/
def Obligations.UncalledUnitsReturnToTheirQueues : Prop :=
  ∀ (s : State) (ref : Ref) (v : UnitRecord) (l : Lane),
    s.unit? ref = some v → v.status = .called → v.lane = some l → (s.lane l).state ≠ .closing → ReservationLaw s →
    let r := (s.laneFixed l).ramp
    let followers := (((s.ramp r).called.dropWhile (· != ref)).drop 1).filter fun q =>
      decide (laneOf s q = some l) && decide (s.statusOf q = some .called)
    (∀ f rest, Handed .skip (deckOfRef s ref) s f rest → readRef s f.payload = some ref →
      ∃ u, exec .skip s = .next u.startTx ∧ Replied s u f rest (.skipped followers.length) ∧
        Uncalled s u r l v v.noShow false .skipped followers ∧ OnlyChanges [.link, .units, .ramp r] s u) ∧
    ((s.ramp r).called.head? = some ref → v.noShow = 0 →
      ((s.ramp r).callTimer = none → exec (.callTimerExpiry r) s = .next s) ∧
      ((s.ramp r).callTimer ≠ none →
        ∃ u, exec (.callTimerExpiry r) s = .next u.startTx ∧ OnlyNews s u ∧
          Uncalled s u r l v 1 true .noShow followers ∧ OnlyChanges [.link, .units, .ramp r] s u))

/-- The same in a CLOSING lane (R38): the units are released and reallocated at the same event, in reservation-list order, with
no walk; a lane left without a reservation is CLOSED. That the gate hold sees the units join their queues and leave them at that
event is the model's reading (log entry 17). -/
def Obligations.UncalledUnitsLeaveAClosingLane : Prop :=
  ∀ (s : State) (ref : Ref) (v : UnitRecord) (l : Lane),
    s.unit? ref = some v → v.status = .called → v.lane = some l → (s.lane l).state = .closing → ReservationLaw s →
    let r := (s.laneFixed l).ramp
    let followers := (((s.ramp r).called.dropWhile (· != ref)).drop 1).filter fun q =>
      decide (laneOf s q = some l) && decide (s.statusOf q = some .called)
    let blocks : List Block := [.link, .units, .ramp r, .lane l, .stb, .alc]
    (∀ f rest, Handed .skip (deckOfRef s ref) s f rest → readRef s f.payload = some ref →
      ∃ u, exec .skip s = .next u.startTx ∧ Replied s u f rest (.skipped followers.length) ∧
        UncalledFromClosing s u r l v v.noShow .skipped followers ∧ OnlyChanges blocks s u) ∧
    ((s.ramp r).called.head? = some ref → v.noShow = 0 → (s.ramp r).callTimer ≠ none →
      ∃ u, exec (.callTimerExpiry r) s = .next u.startTx ∧ OnlyNews s u ∧
        UncalledFromClosing s u r l v 1 .noShow followers ∧ OnlyChanges blocks s u)

/-- A head's second no-show (R116): it is HELD without a lane, its reservation is released, an UNCALL notice with reason
NO_SHOW_HELD is queued, no follower is uncalled, the call timer starts for the new head, a walk is asked for; the no-show
count stays. -/
def Obligations.SecondNoShowHoldsTheUnit : Prop :=
  ∀ (s : State) (r : Ramp) (ref : Ref) (v : UnitRecord) (l : Lane),
    (s.ramp r).callTimer ≠ none → (s.ramp r).called.head? = some ref → s.unit? ref = some v → v.status = .called →
    v.lane = some l → (s.laneFixed l).ramp = r → v.noShow ≠ 0 → ref ∉ (s.ramp r).prio → ref ∉ (s.ramp r).ord →
    ∃ u, exec (.callTimerExpiry r) s = .next u.startTx ∧ OnlyNews s u ∧ u.link.flags = s.link.flags ∧
      Notified s u [.uncall r ref .noShowHeld none] ∧ UnitBecomes s u ref { v with status := .held, lane := none } ∧
      LaneLeft s u l ref ∧ SumsLeft s u l v.decl.weight ∧
      u.ramp r = { s.ramp r with called := (s.ramp r).called.tail, callTimer := headTimer u r } ∧ WalkAsked s u ∧
      u.alc.unplaced = s.alc.unplaced ∧ u.alc.walk = s.alc.walk ∧
      OnlyChanges [.link, .units, .lane l, .stb, .ramp r, .alc] s u

/-! ## The Allocator (chapter 4) -/

/-- The choice of R72 among the lanes that pass the ten tests of R65 (R66 to R71, with the tests of R84 for a redirect
search): a lane is chosen exactly when one passes, the former lane of a reallocation being no candidate (R81), and no
candidate has smaller keys. -/
def Obligations.ChosenLaneIsBest : Prop :=
  ∀ (s : State) (v : UnitRecord),
    (∀ former,
      let candidate (l : Lane) (free : Nat) : Prop := l.val < s.laneCount ∧ some l ≠ former ∧ TenTests s v l free
      (s.placementLane v former = none ↔ ∀ l free, ¬ candidate l free) ∧
      ∀ l, s.placementLane v former = some l →
        ∃ free, candidate l free ∧ ∀ k free', candidate k free' →
          keysBefore s (v.decl.weight * (s.laneFixed l).y) (v.decl.weight * (s.laneFixed l).xMid) free l
            (v.decl.weight * (s.laneFixed k).y) (v.decl.weight * (s.laneFixed k).xMid) free' k) ∧
    ∀ y : Redirect,
      let candidate (l : Lane) (free : Nat) : Prop := l.val < s.laneCount ∧ RedirectTests s v y l free
      let trim (l : Lane) : Int :=
        y.weightUsed * (s.laneFixed l).xUnit (s.commitOffset l v.decl.length) v.decl.length
      (s.redirectLane v y = none ↔ ∀ l free, ¬ candidate l free) ∧
      ∀ l, s.redirectLane v y = some l →
        ∃ free, candidate l free ∧ ∀ k free', candidate k free' →
          keysBefore s (y.weightUsed * (s.laneFixed l).y) (trim l) free l (y.weightUsed * (s.laneFixed k).y) (trim k)
            free' k

/-- PLACEMENT_SERVED (R63, R73, R74, R12, R82): the front placement item leaves the service input; the unit is reserved in the
chosen lane, or joins the unplaced list with the mark cleared; the request is answered, or a RELOCATED notice queued. With a
walk in progress, or another item or none in front, nothing happens (log entry 1). -/
def Obligations.PlacementIsServed : Prop :=
  ∀ s : State,
    ((s.alc.walk ≠ [] ∨ ∀ ref cause, s.alc.service.head? ≠ some (.placement ref cause)) →
      exec .placementServed s = .next s) ∧
    ∀ (ref : Ref) (cause : Cause) (more : List Item) (v : UnitRecord),
      s.alc.walk = [] → s.alc.service = .placement ref cause :: more → s.unit? ref = some v →
      (∀ l, s.placementLane v cause.former = some l →
        ∃ u, exec .placementServed s = .next u.startTx ∧ Reserved s u v l ∧
          u.alc = { s.alc with service := more } ∧ Told s u ref cause .waiting v.cls.priority (some l) ∧
          OnlyChanges [.link, .units, .lane l, .stb, .ramp (s.laneFixed l).ramp, .alc] s u) ∧
      (s.placementLane v cause.former = none →
        ∃ u, exec .placementServed s = .next u.startTx ∧
          UnitBecomes s u ref { v with status := .unplaced, lane := none, mark := false } ∧
          u.alc = { s.alc with service := more, unplaced := s.alc.unplaced ++ [ref] } ∧
          Told s u ref cause .unplaced v.cls.priority none ∧ u.link.flags = s.link.flags ∧
          OnlyChanges [.link, .units, .alc] s u)

/-- RETRY_WALK and WALK_VISIT (R78): a walk item in front begins a walk over the unplaced list as it stands; a visit takes the
next entry of the extent, which leaves the unplaced list and is reserved where it finds a lane, and stays as it is where it
finds none; no response and no notice. Otherwise nothing happens (log entry 1). -/
def Obligations.RetryWalkVisitsTheExtent : Prop :=
  ∀ s : State,
    ((s.alc.walk ≠ [] ∨ s.alc.service.head? ≠ some .walk) → exec .retryWalk s = .next s) ∧
    (∀ more, s.alc.walk = [] → s.alc.service = .walk :: more →
      ∃ u, exec .retryWalk s = .next u.startTx ∧
        u.alc = { service := more, unplaced := s.alc.unplaced, walk := s.alc.unplaced } ∧ OnlyChanges [.alc] s u) ∧
    (s.alc.walk = [] → exec .walkVisit s = .next s) ∧
    ∀ (ref : Ref) (more : List Ref) (v : UnitRecord),
      s.alc.walk = ref :: more → s.alc.walk.Nodup → s.unit? ref = some v →
      (∀ l, s.placementLane v none = some l →
        ∃ u, exec .walkVisit s = .next u.startTx ∧ Reserved s u v l ∧
          u.alc = { s.alc with unplaced := s.alc.unplaced.erase ref, walk := more } ∧ Notified s u [] ∧ OnlyNews s u ∧
          OnlyChanges [.link, .units, .lane l, .stb, .ramp (s.laneFixed l).ramp, .alc] s u) ∧
      (s.placementLane v none = none →
        ∃ u, exec .walkVisit s = .next u.startTx ∧ u.alc = { s.alc with walk := more } ∧ OnlyChanges [.alc] s u)

/-- REDIRECT_SEARCH (R85, R86, R139, R140): the front search leaves the service input; the unit is committed ABOARD to the
chosen lane at its commit offset, or HELD; its crossing's result is written and the CROSSING_RESULT notice queued. No walk.
With another item in front, or a walk in progress, nothing happens (log entry 1). -/
def Obligations.RedirectSearchCommitsOrHolds : Prop :=
  ∀ s : State,
    ((s.alc.walk ≠ [] ∨ ∀ y, s.alc.service.head? ≠ some (.redirect y)) → exec .redirectSearch s = .next s) ∧
    ∀ (y : Redirect) (more : List Item) (v : UnitRecord),
      s.alc.walk = [] → s.alc.service = .redirect y :: more → s.unit? y.ref = some v →
      (∀ l, s.redirectLane v y = some l →
        let offset := s.commitOffset l v.decl.length
        let d := (s.laneFixed l).deck
        ∃ u, exec .redirectSearch s = .next u.startTx ∧ OnlyNews s u ∧
          UnitBecomes s u y.ref
            { crossingRecord v y.result true with status := .aboard, lane := some l, offset := some offset } ∧
          u.lane l = { s.lane l with occupants := (s.lane l).occupants ++ [{ ref := y.ref, offset := offset }] } ∧
          u.stb = sumsWithAboard s l y.weightUsed offset v.decl.length ∧ Refilled s u d ∧
          u.alc = { s.alc with service := more } ∧
          Notified s u [.crossingResult y.ramp y.ref .redirected true y.reserved (some (l, d, offset)) y.result] ∧
          OnlyChanges [.link, .units, .lane l, .stb, .deck d, .alc] s u) ∧
      (s.redirectLane v y = none →
        ∃ u, exec .redirectSearch s = .next u.startTx ∧ OnlyNews s u ∧ u.link.flags = s.link.flags ∧
          UnitBecomes s u y.ref { crossingRecord v y.result false with status := .held } ∧
          u.alc = { s.alc with service := more } ∧
          Notified s u [.crossingResult y.ramp y.ref .held false y.reserved none y.result] ∧
          OnlyChanges [.link, .units, .alc] s u)

/-! ## The plates (chapters 3 and 7) -/

/-- AXLE_EDGE (R125, R126, R128): ignored at a DISARMED plate; at an IDLE one it opens a crossing, attributed to the called
list's head, which becomes CROSSING and whose call timer stops, or unexpected, with its sticky flag; at a WEIGHING one it is
counted, converted when the converter is idle and the count is at most 12, and a fault otherwise. -/
def Obligations.AxleEdgeOpensOrCounts : Prop :=
  ∀ (s : State) (r : Ramp),
    let p := s.plate r
    let gap := (s.rampFixed r).crossingGap * 100
    let opened (unit : Option Ref) : Plate :=
      { state := .weighing, unit := unit, axleCount := 1, busy := true, axleSum := 0, axleMax := 0, fault := false,
        gapTimer := some gap }
    (p.state = .disarmed → exec (.axleEdge r) s = .next s) ∧
    (p.state = .idle → ∀ ref v, (s.ramp r).called.head? = some ref → s.unit? ref = some v →
      ∃ u, exec (.axleEdge r) s = .next u.startTx ∧ UnitBecomes s u ref { v with status := .crossing } ∧
        u.plate r = opened (some ref) ∧ u.ramp r = { s.ramp r with callTimer := none } ∧
        OnlyChanges [.units, .ramp r, .plate r] s u) ∧
    (p.state = .idle → (s.ramp r).called = [] →
      ∃ u, exec (.axleEdge r) s = .next u.startTx ∧ u.plate r = opened none ∧
        u.link = { s.link with sticky := s.link.sticky ||| stickyBit (.unexpected r) } ∧
        OnlyChanges [.link, .plate r] s u) ∧
    (p.state = .weighing →
      let n := if p.axleCount < 15 then p.axleCount + 1 else 15
      let converts := p.busy = false ∧ n ≤ 12
      ∃ u, exec (.axleEdge r) s = .next u.startTx ∧
        u.plate r =
          { p with
            axleCount := n, busy := decide (p.busy = true ∨ converts)
            fault := decide (p.fault = true ∨ ¬ converts), gapTimer := some gap } ∧
        OnlyChanges [.plate r] s u)

/-- CONVERSION_COMPLETE (R58, with R59 and R129): the code becomes an axle load, 0 at or below the plate zero and
((c - z) * s) div 1024 above it; the load joins the sum, which saturates at 600, and the maximum (R59); the converter is idle. An
idle converter delivers nothing (the model's choice, log entry 1). -/
def Obligations.ConversionAddsTheAxleLoad : Prop :=
  ∀ (s : State) (r : Ramp) (code : BitVec 10),
    let p := s.plate r
    let z := (s.rampFixed r).plateZero
    let load := if code.toNat ≤ z then 0 else ((code.toNat - z) * (s.rampFixed r).plateScale) / 1024
    (p.busy = false → exec (.conversionComplete r code) s = .next s) ∧
    (p.busy = true →
      ∃ u, exec (.conversionComplete r code) s = .next u.startTx ∧
        u.plate r =
          { p with
            busy := false
            axleSum := if 600 < p.axleSum + load then 600 else p.axleSum + load
            axleMax := if p.axleMax < load then load else p.axleMax } ∧
        OnlyChanges [.plate r] s u)

/-- GAP_TIMER_EXPIRY (R132, R133) of an unexpected crossing: the plate record is cleared, the plate is IDLE on an OPEN ramp, and
DISARMED on a CLOSING one, which is CLOSED; the call timer starts for a CALLED head; the UNEXPECTED_CROSSING notice carries the
count and the fault. Nothing expires while no crossing is open or a conversion runs (R129, log entry 6). -/
def Obligations.UnexpectedCrossingCompletes : Prop :=
  ∀ (s : State) (r : Ramp),
    let p := s.plate r
    let closing := (s.ramp r).state = .closing
    (p.state ≠ .weighing ∨ p.gapTimer = none ∨ p.busy = true → exec (.gapTimerExpiry r) s = .next s) ∧
    (p.state = .weighing → p.gapTimer ≠ none → p.busy = false → p.unit = none →
      ∃ u, exec (.gapTimerExpiry r) s = .next u.startTx ∧ OnlyNews s u ∧ u.plate r = plateCleared (s.ramp r).state ∧
        u.ramp r = rampCompleted u r (s.ramp r) none ∧
        Notified s u [.unexpectedCrossing r p.axleCount p.fault] ∧
        u.link.flags = (if closing then flagged [.rampState r] s.link.flags else s.link.flags) ∧
        OnlyChanges [.link, .ramp r, .plate r] s u)

/-- GAP_TIMER_EXPIRY (R132, R134 to R136, R139) of a crossing whose unit holds its reservation and passes the commit tests: the
unit leaves the called list and its lane's reservations and is ABOARD at the commit offset, with the measured figures; its
provisional contribution leaves the sums and the committed one enters; the deck's fill and warning follow; the notice says
COMMITTED; a walk is asked for exactly when a weighed unit is lighter than declared. -/
def Obligations.CrossingCommitsToItsLane : Prop :=
  ∀ (s : State) (r : Ramp) (ref : Ref) (v : UnitRecord) (l : Lane),
    let p := s.plate r
    let f := s.laneFixed l
    let offset := s.commitOffset l v.decl.length
    let used := usedWeight p v
    let kept := (s.lane l).reservations.erase ref
    let closing := (s.ramp r).state = .closing
    p.state = .weighing → p.gapTimer ≠ none → p.busy = false → p.unit = some ref → s.unit? ref = some v →
    v.lane = some l → CommitTests s r p v l →
    ∃ u x, exec (.gapTimerExpiry r) s = .next u.startTx ∧ OnlyNews s u ∧ IsResult p v (Mismatched s r p v) x ∧
      UnitBecomes s u ref { crossingRecord v x false with status := .aboard, lane := some l, offset := some offset } ∧
      u.lane l =
        { s.lane l with
          reservations := kept
          occupants := (s.lane l).occupants ++ [{ ref := ref, offset := offset }]
          state := if (s.lane l).state = .closing ∧ kept = [] then .closed else (s.lane l).state } ∧
      u.stb =
        { s.stb with
          mlC := s.stb.mlC + used * f.y
          mtC := s.stb.mtC + used * (f.xInner + f.dir.sign * ((offset + v.decl.length / 2 : Nat) : Int))
          mlP := s.stb.mlP - v.decl.weight * f.y
          mtP := s.stb.mtP - v.decl.weight * f.xMid
          load := s.stb.load.set f.deck (s.stb.load[f.deck] - v.decl.weight + used) } ∧
      (let w := warningAfter (s.deckFixed f.deck) (s.deck f.deck).warning (u.fillOf f.deck)
       u.deck f.deck = { fill := u.fillOf f.deck, warning := w, lineLow := w } ∧
        u.link.flags =
          flagged ((if closing then [.rampState r] else []) ++
            if w = (s.deck f.deck).warning then [] else [.deck f.deck]) s.link.flags) ∧
      u.plate r = plateCleared (s.ramp r).state ∧ u.ramp r = rampCompleted u r (s.ramp r) (some ref) ∧
      Notified s u [.crossingResult r ref .committed false (some l) (some (l, f.deck, offset)) x] ∧
      (if p.fault = false ∧ p.axleSum < v.decl.weight
        then WalkAsked s u ∧ u.alc.unplaced = s.alc.unplaced ∧ u.alc.walk = s.alc.walk else u.alc = s.alc) ∧
      OnlyChanges [.link, .units, .lane l, .stb, .deck f.deck, .ramp r, .plate r, .alc] s u

/-- GAP_TIMER_EXPIRY (R132, R137, R138) of a crossing whose unit fails a commit test: the reservation is released, and a redirect
search, then a walk, are appended; of one whose unit holds no reservation: the search alone. The unit stays CROSSING without a
lane; no CROSSING_RESULT notice is sent yet. -/
def Obligations.CrossingIsHandedToARedirectSearch : Prop :=
  ∀ (s : State) (r : Ramp) (ref : Ref) (v : UnitRecord),
    let p := s.plate r
    let closing := (s.ramp r).state = .closing
    let item (reserved : Option Lane) (x : CrossingResult) : Item :=
      .redirect { ref := ref, ramp := r, weightUsed := usedWeight p v, axleFigure := usedAxle p v, reserved := reserved, result := x }
    let flags := if closing then flagged [.rampState r] s.link.flags else s.link.flags
    p.state = .weighing → p.gapTimer ≠ none → p.busy = false → p.unit = some ref → s.unit? ref = some v →
    (∀ l, v.lane = some l → (s.laneFixed l).ramp = r → ref ∉ (s.ramp r).prio → ref ∉ (s.ramp r).ord →
      ¬ CommitTests s r p v l →
      ∃ u x, exec (.gapTimerExpiry r) s = .next u.startTx ∧ OnlyNews s u ∧ NoNews { s with link.flags := flags } u ∧
        IsResult p v (Mismatched s r p v) x ∧ UnitBecomes s u ref { v with lane := none } ∧ LaneLeft s u l ref ∧
        SumsLeft s u l v.decl.weight ∧
        u.alc.service =
          (if Item.walk ∈ s.alc.service then s.alc.service ++ [item (some l) x]
            else s.alc.service ++ [item (some l) x] ++ [.walk]) ∧
        u.alc.unplaced = s.alc.unplaced ∧ u.alc.walk = s.alc.walk ∧ u.plate r = plateCleared (s.ramp r).state ∧
        u.ramp r = rampCompleted u r (s.ramp r) (some ref) ∧
        OnlyChanges [.link, .units, .lane l, .stb, .ramp r, .plate r, .alc] s u) ∧
    (v.lane = none →
      ∃ u x, exec (.gapTimerExpiry r) s = .next u.startTx ∧ OnlyNews s u ∧ NoNews { s with link.flags := flags } u ∧
        IsResult p v False x ∧ u.alc = { s.alc with service := s.alc.service ++ [item none x] } ∧
        u.plate r = plateCleared (s.ramp r).state ∧ u.ramp r = rampCompleted u r (s.ramp r) (some ref) ∧
        OnlyChanges [.link, .ramp r, .plate r, .alc] s u)

/-! ## The monitors (chapter 8) -/

/-- SAMPLE_TIMER_EXPIRY (R142 to R145, R147, R148): both comparators and the heel monitor take their readings, and the timer
restarts; a stopped timer does nothing (log entries 1 and 3). -/
def Obligations.SampleIsTaken : Prop :=
  ∀ (s : State) (gradA gradB : BitVec 8) (incl : BitVec 10),
    (s.hlm.sampleTimer = none → exec (.sampleTimerExpiry gradA gradB incl) s = .next s) ∧
    (s.hlm.sampleTimer ≠ none → s.hlm.history.length ≤ 4 →
      ∃ u, exec (.sampleTimerExpiry gradA gradB incl) s = .next u.startTx ∧ Sampled s u gradA gradB incl ∧
        u.hlm.sampleTimer = some s.vessel.samplePeriod ∧ OnlyNews s u ∧
        OnlyChanges [.link, .comp .a, .comp .b, .hlm] s u)

/-! ## The Profile Store (chapter 12) -/

/-- LOAD_END (R182, R183, R123, R187): in LOADING, the load ends in NO_VESSEL when the image gives a profile, and in NO_PROFILE
otherwise; the shadow, the hazard table, the ramp settings, the first sample and the answer to a reload follow. The start-up
state is the one R182's table gives: NO_MEMORY, BAD_SIGNATURE, BAD_HEADER, BAD_SECTION with the first section that fails, or
LOADED. Outside LOADING no load ends (log entry 1); the trace of the memory link is the model's (log entry 21). -/
def Obligations.LoadEndSetsTheSession : Prop :=
  (∀ (s : State) (gradA gradB : BitVec 8) (incl : BitVec 10),
    let x := loadImage s.pst.mem s.freeCount
    let settings (r : Ramp) : Nat × Nat × Nat :=
      match x.profile with
      | some p => ((p.ramps.get r).ratio, (p.ramps.get r).depth, (p.ramps.get r).budget)
      | none => (0, 1, 50)
    (s.session ≠ .loading → exec (.loadEnd gradA gradB incl) s = .next s) ∧
    (s.session = .loading → s.hlm.history.length ≤ 4 →
      ∃ u, exec (.loadEnd gradA gradB incl) s = .next u.startTx ∧
        u.session = (if x.profile = none then .noProfile else .noVessel) ∧
        u.pst =
          { s.pst with
            shadow := x.profile
            hazards := x.hazards.getD (List.replicate 63 { priority := false, seg := 0, decks := 0 })
            hazardDefaults := decide (x.hazards = none), startUp := x.startUp, failSection := x.failSection
            sigPassed := x.sigPassed, writeTable := (match x.table with | some t => some t | none => s.pst.writeTable)
            loadTicket := none, bus := x.bus } ∧
        (∀ r, u.ramp r =
          { s.ramp r with
            ratio := (settings r).1, depth := (settings r).2.1, budget := (settings r).2.2, credit := 0
            remaining := (settings r).2.2 }) ∧
        (x.profile = none → NoNews s u ∧ u.hlm = s.hlm ∧ u.comps = s.comps) ∧
        (∀ p, x.profile = some p → Sampled { s with pst := u.pst } u gradA gradB incl ∧
          u.hlm.sampleTimer = some p.vessel.samplePeriod) ∧
        (match s.pst.loadTicket with
          | none => u.link.reserved = s.link.reserved ∧ u.link.filled = s.link.filled
          | some t =>
            u.link.reserved = s.link.reserved.erase t ∧
              u.link.filled = s.link.filled ++
                [{ ticket := t,
                   reply := .profileReloaded u.session x.startUp x.failSection (decide (x.hazards = none)) }]) ∧
        u.link.rxBuffer = s.link.rxBuffer ∧ u.link.tx = s.link.tx ∧
        OnlyChanges [.session, .link, .ramp .a, .ramp .b, .comp .a, .comp .b, .hlm, .pst, .freeCount] s u)) ∧
  ∀ (m : List Host.Cell) (count : Nat),
    let x := loadImage m count
    let header := headerIn m
    let blank := ∀ b ∈ header, b = 0xFF
    let passes (es : List SectionEntry) : SectionId → Prop
      | .header => True
      | .vessel => (readSection m count es .vessel readVessel).isSome = true
      | .decks => (readSection m count es .decks readDecks).isSome = true
      | .lanes => (readSection m count es .lanes readLanes).isSome = true
      | .ramps => (readSection m count es .ramps readRamps).isSome = true
      | .stations => (readSection m count es .stations readStations).isSome = true
      | .hazards => (readSection m count es .hazards readHazards).isSome = true
    (blank → x.startUp = .noMemory) ∧
    (¬ blank → signed header = false → x.startUp = .badSignature) ∧
    (¬ blank → signed header = true → headerTable m header = none → x.startUp = .badHeader) ∧
    (∀ es, ¬ blank → headerTable m header = some es →
      (∀ pre i post, mandatoryIds = pre ++ i :: post → (∀ j ∈ pre, passes es j) → ¬ passes es i →
        x.startUp = .badSection ∧ x.failSection = i) ∧
      ((∀ j ∈ mandatoryIds, passes es j) → x.startUp = .loaded ∧ (x.profile ≠ none) ∧
        (x.hazards ≠ none ↔ (header.getD 3 0).getLsbD 0 = true ∧ passes es .hazards))) ∧
    (x.profile ≠ none ↔ x.startUp = .loaded) ∧ (x.sigPassed = true ↔ ¬ blank ∧ signed header = true)

/-- PROFILE_WRITE (R184, R185): BUSY while a write is in flight; PROTECTED for HEADER, VESSEL, DECKS, LANES or RAMPS while PROT is
high and the last header read was signed; BAD_FIELD where the target address is not known or the chunk does not fit; otherwise
the write is in flight, with its slot kept. -/
def Obligations.ProfileWriteStartsAWrite : Prop :=
  ∀ (s : State) (f : Frame) (rest : List Frame) (prot : Bool) (q : ChunkRequest),
    Handed .profileWrite none s f rest → readChunk s f.payload = some q →
    let inFlight := s.pst.write ≠ none
    let guarded := prot = true ∧ s.pst.sigPassed = true ∧
      (q.target = .header ∨ q.target = .vessel ∨ q.target = .decks ∨ q.target = .lanes ∨ q.target = .ramps)
    let target (a : Nat) : Prop :=
      (q.target = .header ∧ q.offset + q.bytes.length ≤ 54 ∧ a = q.offset) ∨
        (q.target ≠ .header ∧ ∃ es, s.pst.writeTable = some es ∧
          q.offset + q.bytes.length ≤ (entryOf es q.target).length ∧ a = (entryOf es q.target).start + q.offset)
    let refuses (r : Result) : Prop :=
      ∃ u, exec (.profileWrite prot) s = .next u.startTx ∧ Replied s u f rest (.refused r) ∧ NoNews s u ∧
        OnlyChanges [.link] s u
    (inFlight → refuses .busy) ∧ (¬ inFlight → guarded → refuses .writeProtected) ∧
    (¬ inFlight → ¬ guarded → (∀ a, ¬ target a) → refuses .badField) ∧
    ∀ a, ¬ inFlight → ¬ guarded → target a →
      ∃ u, exec (.profileWrite prot) s = .next u.startTx ∧ Awaited s u f rest ∧ NoNews s u ∧
        u.pst =
          { s.pst with
            write := some { ticket := f.ticket, target := q.target, offset := q.offset, address := a, bytes := q.bytes } } ∧
        OnlyChanges [.link, .pst] s u

/-- PROFILE_WRITE_END and WRITE_TIMEOUT (R185) of a write of 1 to 128 bytes within the memory. At the end every byte of the chunk
is what the memory stored, every other byte is as it was, and the answer is OK exactly when the read-back matches; at the limit
the bytes of the parts done are those carried, each bit of the page in progress is the old one or the new one, all else is as
it was, and WRITE_FAIL counts the bytes done. The shadow is not changed. The model's choices: what the memory does is an operand
of the row (log entry 10); at the limit fewer than all parts are done, and the page in progress is a mixture (log entry 11);
without a write nothing happens (log entry 1). -/
def Obligations.MemoryWriteEnds : Prop :=
  ∀ (s : State),
    (s.pst.write = none → (∀ stored, exec (.profileWriteEnd stored) s = .next s) ∧
      ∀ done mix, exec (.writeTimeout done mix) s = .next s) ∧
    ∀ w, s.pst.write = some w → 1 ≤ w.bytes.length → w.bytes.length ≤ 128 → w.address + w.bytes.length ≤ 16777216 →
      MemoryLaw s →
      let answered (u : State) (r : Reply) : Prop :=
        u.link.reserved = s.link.reserved.erase w.ticket ∧
          u.link.filled = s.link.filled ++ [{ ticket := w.ticket, reply := r }] ∧ NoNews s u ∧
          u.link.rate = s.link.rate ∧ u.link.rx = s.link.rx ∧ u.link.rxBuffer = s.link.rxBuffer ∧ u.link.tx = s.link.tx
      let rest (u : State) : Prop :=
        u.pst.write = none ∧ u.pst.shadow = s.pst.shadow ∧ u.pst.hazards = s.pst.hazards ∧
          u.pst.hazardDefaults = s.pst.hazardDefaults ∧ u.pst.sigPassed = s.pst.sigPassed ∧
          u.pst.startUp = s.pst.startUp ∧ u.pst.failSection = s.pst.failSection ∧ u.pst.loadTicket = s.pst.loadTicket
      (∀ stored : List Byte,
        let now (i : Nat) : Byte := stored.getD i (w.bytes.getD i 0)
        let matched := ∀ i, i < w.bytes.length → now i = w.bytes.getD i 0
        ∃ u, exec (.profileWriteEnd stored) s = .next u.startTx ∧
          (∀ a, memGet u.pst.mem a =
            if w.address ≤ a ∧ a < w.address + w.bytes.length then now (a - w.address) else memGet s.pst.mem a) ∧
          (matched → answered u (.profileWritten w.address w.bytes.length)) ∧
          (¬ matched → answered u (.writeFailed w.bytes.length)) ∧ rest u ∧
          u.pst.writeTable =
            (match headerTable u.pst.mem (headerIn u.pst.mem) with
              | some es =>
                if (∀ i, i < w.bytes.length → now i = w.bytes.getD i 0) ∧ w.target = .header ∧
                  w.offset + w.bytes.length = 54 then some es else s.pst.writeTable
              | none => s.pst.writeTable) ∧
          OnlyChanges [.link, .pst, .freeCount] s u) ∧
      ∀ (done : Nat) (mix : List Byte),
        let n := min done (w.parts.length - 1)
        let k := ((w.parts.take n).map fun p => p.2.length).sum
        ∃ u, exec (.writeTimeout done mix) s = .next u.startTx ∧ answered u (.writeFailed k) ∧ rest u ∧
          u.pst.writeTable = s.pst.writeTable ∧
          (∀ a, w.address ≤ a → a < w.address + k → memGet u.pst.mem a = w.bytes.getD (a - w.address) 0) ∧
          (∀ a, w.address + k ≤ a → a < w.address + w.bytes.length → a / 64 = (w.address + k) / 64 →
            ∀ i : Nat, (memGet u.pst.mem a).getLsbD i = (memGet s.pst.mem a).getLsbD i ∨
              (memGet u.pst.mem a).getLsbD i = (w.bytes.getD (a - w.address) 0).getLsbD i) ∧
          (∀ a, a < w.address ∨ w.address + w.bytes.length ≤ a ∨ (w.address + k) / 64 < a / 64 →
            memGet u.pst.mem a = memGet s.pst.mem a) ∧
          OnlyChanges [.link, .pst] s u

/-- PROFILE_RELOAD (R187, R150, R89): BUSY while a write is in flight; otherwise the session is LOADING with the slot kept, the
receive buffer is emptied, the shadow is emptied and the hazard table takes its defaults, the monitors stop and return to their
reset state, with the pending flags of an asserted heel hold and of a RESTRICTED comparator, and no sticky flag. That each gradient
returns to 0 is the model's reading (log entry 22). -/
def Obligations.ProfileReloadEntersLoading : Prop :=
  ∀ (s : State) (f : Frame) (rest : List Frame),
    Handed .profileReload none s f rest → readEmpty s f.payload = some ⟨⟩ →
    (s.pst.write ≠ none →
      ∃ u, exec .profileReload s = .next u.startTx ∧ Replied s u f rest (.refused .busy) ∧ NoNews s u ∧
        OnlyChanges [.link] s u) ∧
    (s.pst.write = none →
      ∃ u, exec .profileReload s = .next u.startTx ∧ u.session = .loading ∧ u.link.rxBuffer = [] ∧
        u.link.reserved = s.link.reserved ++ [f.ticket] ∧ u.link.filled = s.link.filled ∧ Notified s u [] ∧
        u.link.tx = s.link.tx ∧ u.link.rx = s.link.rx ∧
        u.pst =
          { s.pst with
            shadow := none
            hazards := List.replicate 63 { priority := false, seg := 0, decks := 0 }
            hazardDefaults := true, loadTicket := some f.ticket } ∧
        u.hlm = { history := [], heel := 0, hold := false, lineHigh := false, sampleTimer := none } ∧
        (∀ r, u.comp r = { state := .unsampled, gradient := 0 }) ∧
        (u.isPending .heel = true ↔ s.isPending .heel = true ∨ s.hlm.hold = true) ∧
        (∀ r, u.isPending (.rampState r) = true ↔ s.isPending (.rampState r) = true ∨ (s.comp r).state = .restricted) ∧
        (∀ r, u.isPending (.gateHold r) = s.isPending (.gateHold r)) ∧
        (∀ d, u.isPending (.deck d) = s.isPending (.deck d)) ∧
        OnlyChanges [.session, .link, .hlm, .comp .a, .comp .b, .pst] s u)

/-- HARDWARE_RESET (R161, R169 and each block's reset rule: R24, R40, R52, R87, R123, R124, R150): from any state, every block is in
its reset state at the straps' rate; the memory outside keeps what it holds, but for the chunk of a write in flight, where each
bit is the old one or the new one (R186; an operand of the row, log entry 10). The shadow is empty, the hazard table holds its
defaults with the indicator set (R89), and no request waits for a load or a write. The start-up state, the failing section and
the signature mark, the waiting commands, which stay, and the memory link's trace, which is empty, are the model's (log entries 12,
2 and 21). -/
def Obligations.HardwareResetStartsAfresh : Prop :=
  ∀ (s : State) (b1 b0 : Bool) (done : Nat) (mix : List Byte),
    ∃ u, exec (.hardwareReset b1 b0 done mix) s = .next u ∧ u.session = .loading ∧ u.units = [] ∧ u.checkIn = [] ∧
      u.ageing = none ∧
      (∀ l, u.lane l = { state := .opened, obstructions := [], occupants := [], reservations := [] }) ∧
      (∀ d, u.deck d = { fill := 0, warning := false, lineLow := false } ∧ u.stb.load[d] = 0) ∧
      u.stb.mlC = 0 ∧ u.stb.mtC = 0 ∧ u.stb.mlP = 0 ∧ u.stb.mtP = 0 ∧ u.stb.bl = 0 ∧ u.stb.bt = 0 ∧
      u.alc = { service := [], unplaced := [], walk := [] } ∧
      (∀ r, u.ramp r =
        { state := .closed, ratio := 0, depth := 1, budget := 50, credit := 0, remaining := 50, intervalTimer := none,
          callTimer := none, gateHold := false, lineHigh := false, prio := [], ord := [], called := [] }) ∧
      (∀ r, u.plate r =
        { state := .disarmed, unit := none, axleCount := 0, busy := false, axleSum := 0, axleMax := 0, fault := false,
          gapTimer := none }) ∧
      (∀ r, u.comp r = { state := .unsampled, gradient := 0 }) ∧
      u.hlm = { history := [], heel := 0, hold := false, lineHigh := false, sampleTimer := none } ∧
      u.pst =
        { shadow := none, hazards := List.replicate 63 { priority := false, seg := 0, decks := 0 }, hazardDefaults := true
          startUp := .noMemory, failSection := .header, sigPassed := false, writeTable := none, write := none
          loadTicket := none, mem := u.pst.mem, bus := [] } ∧
      u.link.rate = (if b1 then (if b0 then 921600 else 460800) else if b0 then 230400 else 115200) ∧
      u.link.rx = .hunting ∧ u.link.rxBuffer = [] ∧ u.link.reserved = [] ∧ u.link.filled = [] ∧ u.link.notices = [] ∧
      (∀ x, u.isPending x = false) ∧ u.link.sticky = 0 ∧ u.link.tx = .idle ∧ u.pending = s.pending ∧
      (s.pst.write = none → u.pst.mem = s.pst.mem) ∧
      ∀ w, s.pst.write = some w → 1 ≤ w.bytes.length → w.bytes.length ≤ 128 →
        w.address + w.bytes.length ≤ 16777216 → MemoryLaw s → ∀ a,
          (a < w.address ∨ w.address + w.bytes.length ≤ a → memGet u.pst.mem a = memGet s.pst.mem a) ∧
          (w.address ≤ a → a < w.address + w.bytes.length → ∀ i : Nat,
            (memGet u.pst.mem a).getLsbD i = (memGet s.pst.mem a).getLsbD i ∨
              (memGet u.pst.mem a).getLsbD i = (w.bytes.getD (a - w.address) 0).getLsbD i)

/-! ## Vessel sessions (chapter 10) -/

/-- VESSEL_OPEN (R163, R123, R43): the session is ALONGSIDE and every block takes the value of R163's table; a deck whose warning
state changes at a fill of 0, a ramp that was not CLOSED and a gate hold that was asserted set their pending flags; the response
counts the BOOKED records. Records, monitors, notices and sticky flags stay. -/
def Obligations.VesselOpenClearsTheShip : Prop :=
  ∀ (s : State) (f : Frame) (rest : List Frame),
    Handed .vesselOpen none s f rest → readEmpty s f.payload = some ⟨⟩ →
    ∃ u, exec .vesselOpen s = .next u.startTx ∧
      Replied s u f rest (.vesselOpened (s.units.filter fun v => decide (v.status = .booked)).length) ∧
      Notified s u [] ∧ u.session = .alongside ∧ u.checkIn = [] ∧ u.ageing = some (s.vessel.agePeriod * 1000) ∧
      (∀ l, u.lane l = { state := .opened, obstructions := [], occupants := [], reservations := [] }) ∧
      u.stb.mlC = 0 ∧ u.stb.mtC = 0 ∧ u.stb.mlP = 0 ∧ u.stb.mtP = 0 ∧ u.stb.bl = 0 ∧ u.stb.bt = 0 ∧
      (∀ d,
        let w := warningAfter (s.deckFixed d) (s.deck d).warning 0
        u.stb.load[d] = 0 ∧ u.deck d = { fill := 0, warning := w, lineLow := w } ∧
          (u.isPending (.deck d) = true ↔ s.isPending (.deck d) = true ∨ w ≠ (s.deck d).warning)) ∧
      u.alc = { service := [], unplaced := [], walk := [] } ∧
      (∀ r,
        u.ramp r =
          { state := .closed, ratio := (s.rampFixed r).ratio, depth := (s.rampFixed r).depth
            budget := (s.rampFixed r).budget, credit := 0, remaining := (s.rampFixed r).budget, intervalTimer := none
            callTimer := none, gateHold := false, lineHigh := false, prio := [], ord := [], called := [] } ∧
        u.plate r =
          { state := .disarmed, unit := none, axleCount := 0, busy := false, axleSum := 0, axleMax := 0, fault := false,
            gapTimer := none } ∧
        (u.isPending (.rampState r) = true ↔ s.isPending (.rampState r) = true ∨ (s.ramp r).state ≠ .closed) ∧
        (u.isPending (.gateHold r) = true ↔ s.isPending (.gateHold r) = true ∨ (s.ramp r).gateHold = true)) ∧
      u.isPending .heel = s.isPending .heel ∧ u.units = s.units ∧ u.comps = s.comps ∧ u.hlm = s.hlm ∧ u.pst = s.pst ∧
      u.freeCount = s.freeCount

/-- VESSEL_SECURE (R164 to R166): IN_FLIGHT with the number of units CALLED or CROSSING while there is one or a plate is
WEIGHING; BUSY while the Allocator has work; otherwise every WAITING, UNPLACED, LAPSED or HELD unit is SHUT_OUT without a lane,
every reservation is released, ramps close and plates are DISARMED, timers stop, gate holds are released. No notice, no walk. -/
def Obligations.VesselSecureShutsOut : Prop :=
  ∀ (s : State) (f : Frame) (rest : List Frame),
    Handed .vesselSecure none s f rest → readEmpty s f.payload = some ⟨⟩ →
    let flying := (s.units.filter fun v => decide (v.status = .called) || decide (v.status = .crossing)).length
    let weighing := ∃ r, (s.plate r).state = .weighing
    let ashore (v : UnitRecord) : Bool :=
      decide (v.status = .waiting) || decide (v.status = .unplaced) || decide (v.status = .lapsed) ||
        decide (v.status = .held)
    let gone := s.checkIn.filter fun ref => (s.unit? ref).any ashore
    (0 < flying ∨ weighing →
      ∃ u, exec .vesselSecure s = .next u.startTx ∧ Replied s u f rest (.secureInFlight flying) ∧ NoNews s u ∧
        OnlyChanges [.link] s u) ∧
    (flying = 0 → ¬ weighing → (s.alc.service ≠ [] ∨ s.alc.walk ≠ []) →
      ∃ u, exec .vesselSecure s = .next u.startTx ∧ Replied s u f rest (.refused .busy) ∧ NoNews s u ∧
        OnlyChanges [.link] s u) ∧
    (flying = 0 → ¬ weighing → s.alc.service = [] → s.alc.walk = [] → ReservationLaw s →
      ∃ u, exec .vesselSecure s = .next u.startTx ∧ Replied s u f rest (.vesselSecured gone.length) ∧ Notified s u [] ∧
        u.session = .secured ∧ u.ageing = none ∧ u.checkIn = s.checkIn ∧
        (∀ ref, u.unit? ref = (s.unit? ref).map fun v =>
          if ashore v then { v with status := .shutOut, lane := none } else v) ∧
        u.alc = { service := [], unplaced := [], walk := [] } ∧ LanesReleased s u gone ∧
        (∀ l, (u.lane l).reservations = []) ∧ SumsReleased s u gone ∧
        (∀ r,
          u.ramp r =
            { s.ramp r with
              state := .closed, intervalTimer := none, callTimer := none, gateHold := false, lineHigh := false
              prio := [], ord := [] } ∧
          u.plate r = { s.plate r with state := .disarmed } ∧
          (u.isPending (.rampState r) = true ↔ s.isPending (.rampState r) = true ∨ (s.ramp r).state ≠ .closed) ∧
          (u.isPending (.gateHold r) = true ↔ s.isPending (.gateHold r) = true ∨ (s.ramp r).gateHold = true)) ∧
        u.isPending .heel = s.isPending .heel ∧ (∀ d, u.isPending (.deck d) = s.isPending (.deck d)) ∧
        OnlyChanges ([.session, .link, .units, .ageing, .stb, .alc, .ramp .a, .ramp .b, .plate .a, .plate .b] ++ anyLane)
          s u)

/-- VESSEL_REOPEN (R167): the SHUT_OUT units of the check-in order list become UNPLACED at the end of the unplaced list in that
order, the ageing timer starts, a walk is asked for. VESSEL_RELEASE (R168): every record that is not BOOKED is retired, the
lanes, sums, decks, queues and called lists are emptied, warnings and gate holds released with their pending flags; the ramp
settings stay. -/
def Obligations.VesselReopensAndIsReleased : Prop :=
  (∀ (s : State) (f : Frame) (rest : List Frame),
     Handed .vesselReopen none s f rest → readEmpty s f.payload = some ⟨⟩ →
     let back := s.checkIn.filter fun ref => decide (s.statusOf ref = some .shutOut)
     ∃ u, exec .vesselReopen s = .next u.startTx ∧ Replied s u f rest (.vesselReopened back.length) ∧ NoNews s u ∧
       u.session = .alongside ∧ u.ageing = some (s.vessel.agePeriod * 1000) ∧
       (∀ ref, u.unit? ref = (s.unit? ref).map fun v => if ref ∈ back then { v with status := .unplaced } else v) ∧
       u.alc.unplaced = s.alc.unplaced ++ back ∧ WalkAsked s u ∧ u.alc.walk = s.alc.walk ∧
       OnlyChanges [.session, .link, .units, .ageing, .alc] s u) ∧
  ∀ (s : State) (f : Frame) (rest : List Frame),
    Handed .vesselRelease none s f rest → readEmpty s f.payload = some ⟨⟩ →
    let kept := s.units.filter fun v => decide (v.status = .booked)
    ∃ u, exec .vesselRelease s = .next u.startTx ∧
      Replied s u f rest (.vesselReleased (s.units.length - kept.length) kept.length) ∧ Notified s u [] ∧
      u.session = .noVessel ∧ u.units = kept ∧ u.checkIn = [] ∧
      (∀ l, u.lane l = { state := .opened, obstructions := [], occupants := [], reservations := [] }) ∧
      u.stb.mlC = 0 ∧ u.stb.mtC = 0 ∧ u.stb.mlP = 0 ∧ u.stb.mtP = 0 ∧ u.stb.bl = 0 ∧ u.stb.bt = 0 ∧
      (∀ d, u.stb.load[d] = 0 ∧ u.deck d = { fill := 0, warning := false, lineLow := false } ∧
        (u.isPending (.deck d) = true ↔ s.isPending (.deck d) = true ∨ (s.deck d).warning = true)) ∧
      (∀ r,
        u.ramp r =
          { s.ramp r with
            state := .closed, gateHold := false, lineHigh := false, prio := [], ord := [], called := [] } ∧
        (u.isPending (.rampState r) = true ↔ s.isPending (.rampState r) = true ∨ (s.ramp r).state ≠ .closed) ∧
        (u.isPending (.gateHold r) = true ↔ s.isPending (.gateHold r) = true ∨ (s.ramp r).gateHold = true)) ∧
      u.isPending .heel = s.isPending .heel ∧ u.ageing = s.ageing ∧ u.alc = s.alc ∧ u.plates = s.plates ∧
      u.comps = s.comps ∧ u.hlm = s.hlm ∧ u.pst = s.pst ∧ u.freeCount = s.freeCount

/-! ## Queries (R21, R44, R122, R180) -/

/-- QUERY_UNIT reports the record (R21); QUERY_LANE the lane, its ends, its records and a run of at most twelve of its
occupants and projected reservations (R44); QUERY_QUEUE the ramp and a run of at most twelve of the list named (R122);
QUERY_STATUS the summary (R180). A query changes nothing but its slot. -/
def Obligations.QueriesReportTheState : Prop :=
  ∀ (s : State) (f : Frame) (rest : List Frame),
    (∀ ref v, Handed .queryUnit (deckOfRef s ref) s f rest → readRef s f.payload = some ref → s.unit? ref = some v →
      ∃ u, exec .queryUnit s = .next u.startTx ∧ Replied s u f rest (.unitReport v) ∧ NoNews s u ∧
        OnlyChanges [.link] s u) ∧
    (∀ l start, Handed .queryLane (deckOfLane s l) s f rest → readLaneQuery s f.payload = some (l, start) →
      let entries : List LaneEntry :=
        ((s.lane l).occupants.map fun o => { ref := o.ref, status := .aboard, offset := o.offset }) ++
          (projectFrom (s.lane l).obstructions s.vessel.gap (s.startPoint l)
            ((s.lane l).reservations.map fun r => (r, s.lengthOf r))).map fun p =>
              { ref := p.ref, status := (s.statusOf p.ref).getD .waiting, offset := p.offset }
      ∃ u, exec .queryLane s = .next u.startTx ∧
        Replied s u f rest (.laneReport
          { fixed := s.laneFixed l, state := (s.lane l).state, physicalEnd := s.physicalEnd l
            projectedEnd := s.projectedEnd l, free := (s.laneFixed l).length - s.projectedEnd l
            occupants := (s.lane l).occupants.length, reservations := (s.lane l).reservations.length
            obstructions := (s.lane l).obstructions, more := decide (start + 12 < entries.length)
            run := (entries.drop start).take 12 }) ∧
        NoNews s u ∧ OnlyChanges [.link] s u) ∧
    (∀ q : QueueRequest, Handed .queryQueue none s f rest → readQueueQuery s f.payload = some q →
      (∀ ref ∈ (s.ramp q.ramp).named q.named, s.unit? ref ≠ none) →
      let x := s.ramp q.ramp
      let refs := match q.named with | .priority => x.prio | .ordinary => x.ord | .called => x.called
      ∃ u run, exec .queryQueue s = .next u.startTx ∧
        Replied s u f rest (.queueReport
          { state := x.state, ratio := x.ratio, depth := x.depth, budget := x.budget, credit := x.credit
            remaining := x.remaining, gateHold := x.gateHold, waiting := x.prio.length + x.ord.length
            length := refs.length, more := decide (q.start + 12 < refs.length), run := run }) ∧
        run.map (·.ref) = (refs.drop q.start).take 12 ∧
        (∀ e ∈ run, ∃ v, s.unit? e.ref = some v ∧ e.lane = v.lane ∧ e.weight = v.decl.weight ∧ e.status = v.status ∧
          (e.eligible = true ↔ q.named ≠ .called ∧ Eligible s q.ramp e.ref) ∧
          (e.head = true ↔ q.named = .called ∧ x.called.head? = some e.ref)) ∧
        NoNews s u ∧ OnlyChanges [.link] s u) ∧
    (Handed .queryStatus none s f rest → readEmpty s f.payload = some ⟨⟩ →
      let ramp (r : Ramp) : RampReport :=
        { state := (s.ramp r).state, plate := (s.plate r).state, remaining := (s.ramp r).remaining
          called := (s.ramp r).called.length, waiting := (s.ramp r).prio.length + (s.ramp r).ord.length
          gateHold := (s.ramp r).gateHold, gradient := (s.comp r).gradient, comparator := (s.comp r).state }
      ∃ u, exec .queryStatus s = .next u.startTx ∧
        Replied s u f rest (.statusReport
          { session := s.session, startUp := s.pst.startUp, failSection := s.pst.failSection
            hazardDefaults := s.pst.hazardDefaults, ml := s.stb.mlC + s.stb.mlP + s.stb.bl
            mt := s.stb.mtC + s.stb.mtP + s.stb.bt, bl := s.stb.bl, bt := s.stb.bt, load := s.stb.load
            warnings := Vector.ofFn fun d => (s.deck d).warning, ramps := ⟨ramp .a, ramp .b⟩, heel := s.hlm.heel
            heelHold := s.hlm.hold, units := s.units.length, freeNotices := 16 - s.link.notices.length
            sticky := s.link.sticky }) ∧
        NoNews s u ∧ OnlyChanges [.link] s u)

/-! ## The link (chapter 11) -/

/-- R178, R177, R176, R171: an idle transmitter begins the oldest filled response, else the oldest notice, else the first pending
subject in the order of R178, whose flag is cleared; one that is sending is left alone. FRAME_SENT frees the slot of the frame
that was being sent, and the arbiter chooses again. That the arbiter chooses once, at the end of an event, and that an idle
transmitter ends no frame, is the model's reading (log entries 4 and 1). -/
def Obligations.ArbiterAndFrameSent : Prop :=
  (∀ s : State,
    (s.link.tx ≠ .idle → s.startTx = s) ∧
    (s.link.tx = .idle →
      (∀ x more, s.link.filled = x :: more → s.startTx = { s with link.tx := .response x.bytes }) ∧
      (∀ n more, s.link.filled = [] → s.link.notices = n :: more → s.startTx = { s with link.tx := .notice n.bytes }) ∧
      (s.link.filled = [] → s.link.notices = [] →
        (∀ x : Subject, s.isPending x = true → (∀ y : Subject, y.index < x.index → s.isPending y = false) →
          s.startTx = { s with link.tx := .state x (x.bytes s), link.flags := s.link.flags.set x.index false }) ∧
        ((∀ x, s.isPending x = false) → s.startTx = s)))) ∧
  ∀ s : State,
    (s.link.tx = .idle → exec .frameSent s = .next s) ∧
    (∀ bs, s.link.tx = .response bs →
      exec .frameSent s = .next { s with link.tx := .idle, link.filled := s.link.filled.tail }.startTx) ∧
    (∀ bs, s.link.tx = .notice bs →
      exec .frameSent s = .next { s with link.tx := .idle, link.notices := s.link.notices.tail }.startTx) ∧
    ∀ x bs, s.link.tx = .state x bs → exec .frameSent s = .next { s with link.tx := .idle }.startTx

/-- R170, R169: a hunting receiver given the bytes of a frame with 0 to 196 payload bytes and its CRC takes exactly that frame
into the receive buffer, unless the session is LOADING, the station number is 0 or above 30, or four frames are held; a frame
with another CRC is discarded; a LEN out of range is examined as a start byte; other bytes are dropped; a framing error
abandons the frame being assembled. What bytes the three rows carry is the model's choice (log entry 5). -/
def Obligations.ReceiverTakesWholeFrames : Prop :=
  (∀ (s : State) (stn kind tag : Byte) (payload : List Byte), s.link.rx = .hunting → payload.length ≤ 196 →
    exec (.frameComplete (frameBytes stn kind tag payload)) s = .next
      (if s.session = .loading ∨ stn.toNat = 0 ∨ 31 ≤ stn.toNat ∨ 4 ≤ s.link.rxBuffer.length then s
        else { s with link.rxBuffer := s.link.rxBuffer ++ [{ stn := stn, kind := kind, tag := tag, payload := payload }] })) ∧
  (∀ (s : State) (body : List Byte) (c1 c2 : Byte), s.link.rx = .hunting → 3 ≤ body.length → body.length ≤ 199 →
    c1.toNat * 256 + c2.toNat ≠ (crc16 (byte body.length :: body)).toNat →
    exec (.frameDiscarded (0xD4 :: byte body.length :: body ++ [c1, c2])) s = .next s) ∧
  (∀ (s : State) (len : Byte), s.link.rx = .hunting → (len.toNat < 3 ∨ 199 < len.toNat) →
    exec (.frameDiscarded [0xD4, len]) s =
      .next { s with link.rx := if len = 0xD4 then .awaitLen else .hunting }) ∧
  (∀ (s : State) (b : Byte), s.link.rx = .hunting → b ≠ 0xD4 → exec (.frameDiscarded [b]) s = .next s) ∧
  ∀ (s : State) (bs : List Byte), ∃ u, exec (.frameComplete bs) s = .next u ∧
    exec (.framingError bs) s = .next { u with link.rx := .hunting }

/-- Check 2 of R171 for every kind (R172, R188, 13.4): a payload is read as the fields that it spells exactly when it is those
fields' bytes in the layout of 13.4, nothing shorter or longer, with every code, presence byte, number and lane number in its
range (R1, R11, R33, R36, R122, R152, R185); every other payload is refused. SET_RAMP's and SET_BALLAST's values have no range.
In NO_PROFILE lane numbers and the ranges that rest on a lane are not checked. That a reference which only names a unit has no
range is the model's reading (log entry 14). -/
def Obligations.PayloadsReadBack : Prop :=
  (∀ (s : State) (bs : List Byte),
    (readEmpty s bs = some ⟨⟩ ↔ bs = []) ∧
    (∀ d, readBook s bs = some d ↔ bs = declaredBytes d ∧ DeclaredInRange d) ∧
    (∀ ref d, readAmend s bs = some (ref, d) ↔
      bs = beBytes 4 ref ++ declaredBytes d ∧ ref < 4294967296 ∧ DeclaredInRange d) ∧
    (∀ ref, readRef s bs = some ref ↔ bs = beBytes 4 ref ∧ ref < 4294967296) ∧
    (∀ ref length, readCheckIn s bs = some (ref, length) ↔
      bs = checkInBytes ref length ∧ ref < 4294967296 ∧ ∀ n ∈ length, 20 ≤ n ∧ n ≤ 250) ∧
    (∀ r, readRamp s bs = some r ↔ bs = [rampByte r]) ∧
    (∀ q, readSetRamp s bs = some q ↔ bs = setRampBytes q ∧ q.ratio < 256 ∧ q.depth < 256 ∧ q.budget < 65536) ∧
    (∀ l t, readBallast s bs = some (l, t) ↔
      bs = beInt 4 l ++ beInt 4 t ∧ -2147483648 ≤ l ∧ l ≤ 2147483647 ∧ -2147483648 ≤ t ∧ t ≤ 2147483647) ∧
    (∀ b, readSelection s bs = some b ↔ bs = [b]) ∧
    (∀ q, readChunk s bs = some q ↔
      bs = chunkBytes q ∧ q.offset < 65536 ∧ 1 ≤ q.bytes.length ∧ q.bytes.length ≤ 128) ∧
    ∀ q, readQueueQuery s bs = some q ↔ bs = queueQueryBytes q ∧ q.start ≤ 511) ∧
  (∀ (s : State) (bs : List Byte), s.session ≠ .noProfile →
    (∀ l, readLane s bs = some l ↔ bs = [laneByte l] ∧ l.val < s.laneCount) ∧
    (∀ l start, readLaneQuery s bs = some (l, start) ↔
      bs = [laneByte l, byte start] ∧ l.val < s.laneCount ∧ start < 256) ∧
    (∀ q, readSpan s bs = some q ↔
      bs = spanBytes q ∧ q.lane.val < s.laneCount ∧ q.start < 65536 ∧ q.extent < 65536 ∧
        q.start < (s.laneFixed q.lane).length ∧ 1 ≤ q.extent ∧ q.extent ≤ (s.laneFixed q.lane).length) ∧
    ∀ q, readPlace s bs = some q ↔
      bs = placeBytes q ∧ q.lane.val < s.laneCount ∧ DeclaredInRange q.declared ∧ q.offset ≤ 1999) ∧
  ∀ (s : State) (bs : List Byte), s.session = .noProfile →
    ((readLane s bs).isSome = true ↔ bs.length = 1) ∧ ((readLaneQuery s bs).isSome = true ↔ bs.length = 2) ∧
    ((readSpan s bs).isSome = true ↔ bs.length = 5) ∧
    ((readPlace s bs).isSome = true ↔ ∃ q laneNumber, bs = (placeBytes q).set 11 laneNumber ∧
      DeclaredInRange q.declared ∧ q.offset ≤ 1999)

/-- R181, R182, R189: an image laid out from a profile whose fields lie in their ranges, at the foot of the memory, loads that
profile, and its hazard table when the load-control byte selects it. -/
def Obligations.AnImageLoadsItsProfile : Prop :=
  ∀ (p : Profile) (hazards : List HazardEntry) (selected : Bool) (m : List Host.Cell) (count : Nat),
    ProfileInRange p → hazards.length = 63 → (∀ h ∈ hazards, h.seg ≤ 3) → Memory.wf m = true →
    let x := loadImage (memPuts 0 (imageBytes p hazards selected) m) count
    x.startUp = .loaded ∧ x.sigPassed = true ∧ x.profile = some p ∧
      x.hazards = if selected then some hazards else none

/-! ## Laws of every step -/

/-- The memory keeps its canonical form (log entry 7). R4: the Unit Table never holds more than 512 records nor two under one
reference. R1, R3, R18, R25, R41: declared fields stay in their ranges, ages within the age limit, occupants in rising order of
offset and the vessel gap apart, and deck loads within their caps. -/
def Obligations.TablesKeepTheirForm : Prop :=
  (∀ s u : State, MemoryLaw s → step s = .next u → MemoryLaw u) ∧
    (∀ s u : State, UnitTableLaw s → step s = .next u → UnitTableLaw u) ∧
    ∀ s u : State, ReservationLaw s → SumsLaw s → CargoLaw s → step s = .next u → CargoLaw u

/-- R3, R5, R25, R26, R62, R75, R80, R83, R103, R104: records, reservation lists, occupant lists, queues, called lists, plates and
service items agree, at every step. -/
def Obligations.ReservationsStayConsistent : Prop :=
  ∀ s u : State, RampPlateLaw s → ReservationLaw s → step s = .next u → ReservationLaw u

/-- R26, R104, R109: in each lane's reservation list the units CALLED or CROSSING stay ahead of those that wait, in called
order. -/
def Obligations.LaneOrderIsKept : Prop :=
  ∀ s u : State, RampPlateLaw s → ReservationLaw s → LaneOrderLaw s → step s = .next u → LaneOrderLaw u

/-- R47, R48: the committed and provisional accumulators stay the sums over the units ABOARD and the units that hold a
reservation; and each deck's load stays the sum of their weights. -/
def Obligations.AccumulatorsStayTheSums : Prop :=
  ∀ s u : State, RampPlateLaw s → ReservationLaw s → SumsLaw s → step s = .next u → SumsLaw u

/-- R125, R113, R128: ramp states and plate states stay paired, the interval timer runs exactly while the ramp is OPEN, and a
crossing's count stays within 1 to 15. -/
def Obligations.RampsAndPlatesStayPaired : Prop :=
  ∀ s u : State, RampPlateLaw s → step s = .next u → RampPlateLaw u

/-- R17, R142 (timers and shadow by session); R102, R113 (settings, remaining budget, credit); R43, R121, R148 (output lines);
R32, R147, R170, R176 (bounded lists, and obstruction records in order of start); R171 (no more than eight response slots in use, the reserved ones being those of the
requests being served): each law is kept by every step. -/
def Obligations.TimersBudgetsLinesBoundsAndSlotsAreKept : Prop :=
  (∀ s u : State, ClockLaw s → step s = .next u → ClockLaw u) ∧
    (∀ s u : State, BudgetLaw s → step s = .next u → BudgetLaw u) ∧
    (∀ s u : State, LineLaw s → step s = .next u → LineLaw u) ∧
    (∀ s u : State, BoundLaw s → step s = .next u → BoundLaw u) ∧
    ∀ s u : State, SlotLaw s → step s = .next u → SlotLaw u

/-- The machine after reset meets every law that the statements above say is kept. -/
def Obligations.ResetMeetsTheLaws : Prop :=
  MemoryLaw State.reset ∧ UnitTableLaw State.reset ∧ ReservationLaw State.reset ∧ LaneOrderLaw State.reset ∧
    SumsLaw State.reset ∧ CargoLaw State.reset ∧ SlotLaw State.reset ∧ RampPlateLaw State.reset ∧ ClockLaw State.reset ∧
    BudgetLaw State.reset ∧ LineLaw State.reset ∧ BoundLaw State.reset
end

