-- ==== Sys2Proof/Laws/State.lean ====
section
/-!
SUPPORT. What each update of State does to each field, true by definition; and the readings of lanes, decks, ramps, plates
and comparators after an update.
-/

namespace Sys2Proof.Machine

open Sys2Proof

variable (s : State)


/-! ### State.setPending -/

@[simp] theorem State.setPending_pending (q : List Instr) : (s.setPending q).pending = q := rfl
@[simp] theorem State.setPending_session (q : List Instr) : (s.setPending q).session = s.session := rfl
@[simp] theorem State.setPending_link (q : List Instr) : (s.setPending q).link = s.link := rfl
@[simp] theorem State.setPending_units (q : List Instr) : (s.setPending q).units = s.units := rfl
@[simp] theorem State.setPending_checkIn (q : List Instr) : (s.setPending q).checkIn = s.checkIn := rfl
@[simp] theorem State.setPending_ageing (q : List Instr) : (s.setPending q).ageing = s.ageing := rfl
@[simp] theorem State.setPending_lanes (q : List Instr) : (s.setPending q).lanes = s.lanes := rfl
@[simp] theorem State.setPending_decks (q : List Instr) : (s.setPending q).decks = s.decks := rfl
@[simp] theorem State.setPending_stb (q : List Instr) : (s.setPending q).stb = s.stb := rfl
@[simp] theorem State.setPending_alc (q : List Instr) : (s.setPending q).alc = s.alc := rfl
@[simp] theorem State.setPending_csc (q : List Instr) : (s.setPending q).csc = s.csc := rfl
@[simp] theorem State.setPending_plates (q : List Instr) : (s.setPending q).plates = s.plates := rfl
@[simp] theorem State.setPending_comps (q : List Instr) : (s.setPending q).comps = s.comps := rfl
@[simp] theorem State.setPending_hlm (q : List Instr) : (s.setPending q).hlm = s.hlm := rfl
@[simp] theorem State.setPending_pst (q : List Instr) : (s.setPending q).pst = s.pst := rfl
@[simp] theorem State.setPending_freeCount (q : List Instr) : (s.setPending q).freeCount = s.freeCount := rfl

/-! ### State.setSession -/

@[simp] theorem State.setSession_pending (x : Session) : (s.setSession x).pending = s.pending := rfl
@[simp] theorem State.setSession_session (x : Session) : (s.setSession x).session = x := rfl
@[simp] theorem State.setSession_link (x : Session) : (s.setSession x).link = s.link := rfl
@[simp] theorem State.setSession_units (x : Session) : (s.setSession x).units = s.units := rfl
@[simp] theorem State.setSession_checkIn (x : Session) : (s.setSession x).checkIn = s.checkIn := rfl
@[simp] theorem State.setSession_ageing (x : Session) : (s.setSession x).ageing = s.ageing := rfl
@[simp] theorem State.setSession_lanes (x : Session) : (s.setSession x).lanes = s.lanes := rfl
@[simp] theorem State.setSession_decks (x : Session) : (s.setSession x).decks = s.decks := rfl
@[simp] theorem State.setSession_stb (x : Session) : (s.setSession x).stb = s.stb := rfl
@[simp] theorem State.setSession_alc (x : Session) : (s.setSession x).alc = s.alc := rfl
@[simp] theorem State.setSession_csc (x : Session) : (s.setSession x).csc = s.csc := rfl
@[simp] theorem State.setSession_plates (x : Session) : (s.setSession x).plates = s.plates := rfl
@[simp] theorem State.setSession_comps (x : Session) : (s.setSession x).comps = s.comps := rfl
@[simp] theorem State.setSession_hlm (x : Session) : (s.setSession x).hlm = s.hlm := rfl
@[simp] theorem State.setSession_pst (x : Session) : (s.setSession x).pst = s.pst := rfl
@[simp] theorem State.setSession_freeCount (x : Session) : (s.setSession x).freeCount = s.freeCount := rfl

/-! ### State.modLink -/

@[simp] theorem State.modLink_pending (f : Link → Link) : (s.modLink f).pending = s.pending := rfl
@[simp] theorem State.modLink_session (f : Link → Link) : (s.modLink f).session = s.session := rfl
@[simp] theorem State.modLink_link (f : Link → Link) : (s.modLink f).link = f s.link := rfl
@[simp] theorem State.modLink_units (f : Link → Link) : (s.modLink f).units = s.units := rfl
@[simp] theorem State.modLink_checkIn (f : Link → Link) : (s.modLink f).checkIn = s.checkIn := rfl
@[simp] theorem State.modLink_ageing (f : Link → Link) : (s.modLink f).ageing = s.ageing := rfl
@[simp] theorem State.modLink_lanes (f : Link → Link) : (s.modLink f).lanes = s.lanes := rfl
@[simp] theorem State.modLink_decks (f : Link → Link) : (s.modLink f).decks = s.decks := rfl
@[simp] theorem State.modLink_stb (f : Link → Link) : (s.modLink f).stb = s.stb := rfl
@[simp] theorem State.modLink_alc (f : Link → Link) : (s.modLink f).alc = s.alc := rfl
@[simp] theorem State.modLink_csc (f : Link → Link) : (s.modLink f).csc = s.csc := rfl
@[simp] theorem State.modLink_plates (f : Link → Link) : (s.modLink f).plates = s.plates := rfl
@[simp] theorem State.modLink_comps (f : Link → Link) : (s.modLink f).comps = s.comps := rfl
@[simp] theorem State.modLink_hlm (f : Link → Link) : (s.modLink f).hlm = s.hlm := rfl
@[simp] theorem State.modLink_pst (f : Link → Link) : (s.modLink f).pst = s.pst := rfl
@[simp] theorem State.modLink_freeCount (f : Link → Link) : (s.modLink f).freeCount = s.freeCount := rfl

/-! ### State.setUnits -/

@[simp] theorem State.setUnits_pending (us : List UnitRecord) : (s.setUnits us).pending = s.pending := rfl
@[simp] theorem State.setUnits_session (us : List UnitRecord) : (s.setUnits us).session = s.session := rfl
@[simp] theorem State.setUnits_link (us : List UnitRecord) : (s.setUnits us).link = s.link := rfl
@[simp] theorem State.setUnits_units (us : List UnitRecord) : (s.setUnits us).units = us := rfl
@[simp] theorem State.setUnits_checkIn (us : List UnitRecord) : (s.setUnits us).checkIn = s.checkIn := rfl
@[simp] theorem State.setUnits_ageing (us : List UnitRecord) : (s.setUnits us).ageing = s.ageing := rfl
@[simp] theorem State.setUnits_lanes (us : List UnitRecord) : (s.setUnits us).lanes = s.lanes := rfl
@[simp] theorem State.setUnits_decks (us : List UnitRecord) : (s.setUnits us).decks = s.decks := rfl
@[simp] theorem State.setUnits_stb (us : List UnitRecord) : (s.setUnits us).stb = s.stb := rfl
@[simp] theorem State.setUnits_alc (us : List UnitRecord) : (s.setUnits us).alc = s.alc := rfl
@[simp] theorem State.setUnits_csc (us : List UnitRecord) : (s.setUnits us).csc = s.csc := rfl
@[simp] theorem State.setUnits_plates (us : List UnitRecord) : (s.setUnits us).plates = s.plates := rfl
@[simp] theorem State.setUnits_comps (us : List UnitRecord) : (s.setUnits us).comps = s.comps := rfl
@[simp] theorem State.setUnits_hlm (us : List UnitRecord) : (s.setUnits us).hlm = s.hlm := rfl
@[simp] theorem State.setUnits_pst (us : List UnitRecord) : (s.setUnits us).pst = s.pst := rfl
@[simp] theorem State.setUnits_freeCount (us : List UnitRecord) : (s.setUnits us).freeCount = s.freeCount := rfl

/-! ### State.setCheckIn -/

@[simp] theorem State.setCheckIn_pending (rs : List Ref) : (s.setCheckIn rs).pending = s.pending := rfl
@[simp] theorem State.setCheckIn_session (rs : List Ref) : (s.setCheckIn rs).session = s.session := rfl
@[simp] theorem State.setCheckIn_link (rs : List Ref) : (s.setCheckIn rs).link = s.link := rfl
@[simp] theorem State.setCheckIn_units (rs : List Ref) : (s.setCheckIn rs).units = s.units := rfl
@[simp] theorem State.setCheckIn_checkIn (rs : List Ref) : (s.setCheckIn rs).checkIn = rs := rfl
@[simp] theorem State.setCheckIn_ageing (rs : List Ref) : (s.setCheckIn rs).ageing = s.ageing := rfl
@[simp] theorem State.setCheckIn_lanes (rs : List Ref) : (s.setCheckIn rs).lanes = s.lanes := rfl
@[simp] theorem State.setCheckIn_decks (rs : List Ref) : (s.setCheckIn rs).decks = s.decks := rfl
@[simp] theorem State.setCheckIn_stb (rs : List Ref) : (s.setCheckIn rs).stb = s.stb := rfl
@[simp] theorem State.setCheckIn_alc (rs : List Ref) : (s.setCheckIn rs).alc = s.alc := rfl
@[simp] theorem State.setCheckIn_csc (rs : List Ref) : (s.setCheckIn rs).csc = s.csc := rfl
@[simp] theorem State.setCheckIn_plates (rs : List Ref) : (s.setCheckIn rs).plates = s.plates := rfl
@[simp] theorem State.setCheckIn_comps (rs : List Ref) : (s.setCheckIn rs).comps = s.comps := rfl
@[simp] theorem State.setCheckIn_hlm (rs : List Ref) : (s.setCheckIn rs).hlm = s.hlm := rfl
@[simp] theorem State.setCheckIn_pst (rs : List Ref) : (s.setCheckIn rs).pst = s.pst := rfl
@[simp] theorem State.setCheckIn_freeCount (rs : List Ref) : (s.setCheckIn rs).freeCount = s.freeCount := rfl

/-! ### State.setAgeing -/

@[simp] theorem State.setAgeing_pending (t : Timer) : (s.setAgeing t).pending = s.pending := rfl
@[simp] theorem State.setAgeing_session (t : Timer) : (s.setAgeing t).session = s.session := rfl
@[simp] theorem State.setAgeing_link (t : Timer) : (s.setAgeing t).link = s.link := rfl
@[simp] theorem State.setAgeing_units (t : Timer) : (s.setAgeing t).units = s.units := rfl
@[simp] theorem State.setAgeing_checkIn (t : Timer) : (s.setAgeing t).checkIn = s.checkIn := rfl
@[simp] theorem State.setAgeing_ageing (t : Timer) : (s.setAgeing t).ageing = t := rfl
@[simp] theorem State.setAgeing_lanes (t : Timer) : (s.setAgeing t).lanes = s.lanes := rfl
@[simp] theorem State.setAgeing_decks (t : Timer) : (s.setAgeing t).decks = s.decks := rfl
@[simp] theorem State.setAgeing_stb (t : Timer) : (s.setAgeing t).stb = s.stb := rfl
@[simp] theorem State.setAgeing_alc (t : Timer) : (s.setAgeing t).alc = s.alc := rfl
@[simp] theorem State.setAgeing_csc (t : Timer) : (s.setAgeing t).csc = s.csc := rfl
@[simp] theorem State.setAgeing_plates (t : Timer) : (s.setAgeing t).plates = s.plates := rfl
@[simp] theorem State.setAgeing_comps (t : Timer) : (s.setAgeing t).comps = s.comps := rfl
@[simp] theorem State.setAgeing_hlm (t : Timer) : (s.setAgeing t).hlm = s.hlm := rfl
@[simp] theorem State.setAgeing_pst (t : Timer) : (s.setAgeing t).pst = s.pst := rfl
@[simp] theorem State.setAgeing_freeCount (t : Timer) : (s.setAgeing t).freeCount = s.freeCount := rfl

/-! ### State.setLane -/

@[simp] theorem State.setLane_pending (l : Lane) (v : LaneRun) : (s.setLane l v).pending = s.pending := rfl
@[simp] theorem State.setLane_session (l : Lane) (v : LaneRun) : (s.setLane l v).session = s.session := rfl
@[simp] theorem State.setLane_link (l : Lane) (v : LaneRun) : (s.setLane l v).link = s.link := rfl
@[simp] theorem State.setLane_units (l : Lane) (v : LaneRun) : (s.setLane l v).units = s.units := rfl
@[simp] theorem State.setLane_checkIn (l : Lane) (v : LaneRun) : (s.setLane l v).checkIn = s.checkIn := rfl
@[simp] theorem State.setLane_ageing (l : Lane) (v : LaneRun) : (s.setLane l v).ageing = s.ageing := rfl
@[simp] theorem State.setLane_lanes (l : Lane) (v : LaneRun) : (s.setLane l v).lanes = s.lanes.set l v := rfl
@[simp] theorem State.setLane_decks (l : Lane) (v : LaneRun) : (s.setLane l v).decks = s.decks := rfl
@[simp] theorem State.setLane_stb (l : Lane) (v : LaneRun) : (s.setLane l v).stb = s.stb := rfl
@[simp] theorem State.setLane_alc (l : Lane) (v : LaneRun) : (s.setLane l v).alc = s.alc := rfl
@[simp] theorem State.setLane_csc (l : Lane) (v : LaneRun) : (s.setLane l v).csc = s.csc := rfl
@[simp] theorem State.setLane_plates (l : Lane) (v : LaneRun) : (s.setLane l v).plates = s.plates := rfl
@[simp] theorem State.setLane_comps (l : Lane) (v : LaneRun) : (s.setLane l v).comps = s.comps := rfl
@[simp] theorem State.setLane_hlm (l : Lane) (v : LaneRun) : (s.setLane l v).hlm = s.hlm := rfl
@[simp] theorem State.setLane_pst (l : Lane) (v : LaneRun) : (s.setLane l v).pst = s.pst := rfl
@[simp] theorem State.setLane_freeCount (l : Lane) (v : LaneRun) : (s.setLane l v).freeCount = s.freeCount := rfl

/-! ### State.setLanes -/

@[simp] theorem State.setLanes_pending (v : Vector LaneRun 96) : (s.setLanes v).pending = s.pending := rfl
@[simp] theorem State.setLanes_session (v : Vector LaneRun 96) : (s.setLanes v).session = s.session := rfl
@[simp] theorem State.setLanes_link (v : Vector LaneRun 96) : (s.setLanes v).link = s.link := rfl
@[simp] theorem State.setLanes_units (v : Vector LaneRun 96) : (s.setLanes v).units = s.units := rfl
@[simp] theorem State.setLanes_checkIn (v : Vector LaneRun 96) : (s.setLanes v).checkIn = s.checkIn := rfl
@[simp] theorem State.setLanes_ageing (v : Vector LaneRun 96) : (s.setLanes v).ageing = s.ageing := rfl
@[simp] theorem State.setLanes_lanes (v : Vector LaneRun 96) : (s.setLanes v).lanes = v := rfl
@[simp] theorem State.setLanes_decks (v : Vector LaneRun 96) : (s.setLanes v).decks = s.decks := rfl
@[simp] theorem State.setLanes_stb (v : Vector LaneRun 96) : (s.setLanes v).stb = s.stb := rfl
@[simp] theorem State.setLanes_alc (v : Vector LaneRun 96) : (s.setLanes v).alc = s.alc := rfl
@[simp] theorem State.setLanes_csc (v : Vector LaneRun 96) : (s.setLanes v).csc = s.csc := rfl
@[simp] theorem State.setLanes_plates (v : Vector LaneRun 96) : (s.setLanes v).plates = s.plates := rfl
@[simp] theorem State.setLanes_comps (v : Vector LaneRun 96) : (s.setLanes v).comps = s.comps := rfl
@[simp] theorem State.setLanes_hlm (v : Vector LaneRun 96) : (s.setLanes v).hlm = s.hlm := rfl
@[simp] theorem State.setLanes_pst (v : Vector LaneRun 96) : (s.setLanes v).pst = s.pst := rfl
@[simp] theorem State.setLanes_freeCount (v : Vector LaneRun 96) : (s.setLanes v).freeCount = s.freeCount := rfl

/-! ### State.setDeck -/

@[simp] theorem State.setDeck_pending (d : Deck) (v : DeckRun) : (s.setDeck d v).pending = s.pending := rfl
@[simp] theorem State.setDeck_session (d : Deck) (v : DeckRun) : (s.setDeck d v).session = s.session := rfl
@[simp] theorem State.setDeck_link (d : Deck) (v : DeckRun) : (s.setDeck d v).link = s.link := rfl
@[simp] theorem State.setDeck_units (d : Deck) (v : DeckRun) : (s.setDeck d v).units = s.units := rfl
@[simp] theorem State.setDeck_checkIn (d : Deck) (v : DeckRun) : (s.setDeck d v).checkIn = s.checkIn := rfl
@[simp] theorem State.setDeck_ageing (d : Deck) (v : DeckRun) : (s.setDeck d v).ageing = s.ageing := rfl
@[simp] theorem State.setDeck_lanes (d : Deck) (v : DeckRun) : (s.setDeck d v).lanes = s.lanes := rfl
@[simp] theorem State.setDeck_decks (d : Deck) (v : DeckRun) : (s.setDeck d v).decks = s.decks.set d v := rfl
@[simp] theorem State.setDeck_stb (d : Deck) (v : DeckRun) : (s.setDeck d v).stb = s.stb := rfl
@[simp] theorem State.setDeck_alc (d : Deck) (v : DeckRun) : (s.setDeck d v).alc = s.alc := rfl
@[simp] theorem State.setDeck_csc (d : Deck) (v : DeckRun) : (s.setDeck d v).csc = s.csc := rfl
@[simp] theorem State.setDeck_plates (d : Deck) (v : DeckRun) : (s.setDeck d v).plates = s.plates := rfl
@[simp] theorem State.setDeck_comps (d : Deck) (v : DeckRun) : (s.setDeck d v).comps = s.comps := rfl
@[simp] theorem State.setDeck_hlm (d : Deck) (v : DeckRun) : (s.setDeck d v).hlm = s.hlm := rfl
@[simp] theorem State.setDeck_pst (d : Deck) (v : DeckRun) : (s.setDeck d v).pst = s.pst := rfl
@[simp] theorem State.setDeck_freeCount (d : Deck) (v : DeckRun) : (s.setDeck d v).freeCount = s.freeCount := rfl

/-! ### State.setDecks -/

@[simp] theorem State.setDecks_pending (v : Vector DeckRun 4) : (s.setDecks v).pending = s.pending := rfl
@[simp] theorem State.setDecks_session (v : Vector DeckRun 4) : (s.setDecks v).session = s.session := rfl
@[simp] theorem State.setDecks_link (v : Vector DeckRun 4) : (s.setDecks v).link = s.link := rfl
@[simp] theorem State.setDecks_units (v : Vector DeckRun 4) : (s.setDecks v).units = s.units := rfl
@[simp] theorem State.setDecks_checkIn (v : Vector DeckRun 4) : (s.setDecks v).checkIn = s.checkIn := rfl
@[simp] theorem State.setDecks_ageing (v : Vector DeckRun 4) : (s.setDecks v).ageing = s.ageing := rfl
@[simp] theorem State.setDecks_lanes (v : Vector DeckRun 4) : (s.setDecks v).lanes = s.lanes := rfl
@[simp] theorem State.setDecks_decks (v : Vector DeckRun 4) : (s.setDecks v).decks = v := rfl
@[simp] theorem State.setDecks_stb (v : Vector DeckRun 4) : (s.setDecks v).stb = s.stb := rfl
@[simp] theorem State.setDecks_alc (v : Vector DeckRun 4) : (s.setDecks v).alc = s.alc := rfl
@[simp] theorem State.setDecks_csc (v : Vector DeckRun 4) : (s.setDecks v).csc = s.csc := rfl
@[simp] theorem State.setDecks_plates (v : Vector DeckRun 4) : (s.setDecks v).plates = s.plates := rfl
@[simp] theorem State.setDecks_comps (v : Vector DeckRun 4) : (s.setDecks v).comps = s.comps := rfl
@[simp] theorem State.setDecks_hlm (v : Vector DeckRun 4) : (s.setDecks v).hlm = s.hlm := rfl
@[simp] theorem State.setDecks_pst (v : Vector DeckRun 4) : (s.setDecks v).pst = s.pst := rfl
@[simp] theorem State.setDecks_freeCount (v : Vector DeckRun 4) : (s.setDecks v).freeCount = s.freeCount := rfl

/-! ### State.setStb -/

@[simp] theorem State.setStb_pending (x : Stability) : (s.setStb x).pending = s.pending := rfl
@[simp] theorem State.setStb_session (x : Stability) : (s.setStb x).session = s.session := rfl
@[simp] theorem State.setStb_link (x : Stability) : (s.setStb x).link = s.link := rfl
@[simp] theorem State.setStb_units (x : Stability) : (s.setStb x).units = s.units := rfl
@[simp] theorem State.setStb_checkIn (x : Stability) : (s.setStb x).checkIn = s.checkIn := rfl
@[simp] theorem State.setStb_ageing (x : Stability) : (s.setStb x).ageing = s.ageing := rfl
@[simp] theorem State.setStb_lanes (x : Stability) : (s.setStb x).lanes = s.lanes := rfl
@[simp] theorem State.setStb_decks (x : Stability) : (s.setStb x).decks = s.decks := rfl
@[simp] theorem State.setStb_stb (x : Stability) : (s.setStb x).stb = x := rfl
@[simp] theorem State.setStb_alc (x : Stability) : (s.setStb x).alc = s.alc := rfl
@[simp] theorem State.setStb_csc (x : Stability) : (s.setStb x).csc = s.csc := rfl
@[simp] theorem State.setStb_plates (x : Stability) : (s.setStb x).plates = s.plates := rfl
@[simp] theorem State.setStb_comps (x : Stability) : (s.setStb x).comps = s.comps := rfl
@[simp] theorem State.setStb_hlm (x : Stability) : (s.setStb x).hlm = s.hlm := rfl
@[simp] theorem State.setStb_pst (x : Stability) : (s.setStb x).pst = s.pst := rfl
@[simp] theorem State.setStb_freeCount (x : Stability) : (s.setStb x).freeCount = s.freeCount := rfl

/-! ### State.setAlc -/

@[simp] theorem State.setAlc_pending (x : Allocator) : (s.setAlc x).pending = s.pending := rfl
@[simp] theorem State.setAlc_session (x : Allocator) : (s.setAlc x).session = s.session := rfl
@[simp] theorem State.setAlc_link (x : Allocator) : (s.setAlc x).link = s.link := rfl
@[simp] theorem State.setAlc_units (x : Allocator) : (s.setAlc x).units = s.units := rfl
@[simp] theorem State.setAlc_checkIn (x : Allocator) : (s.setAlc x).checkIn = s.checkIn := rfl
@[simp] theorem State.setAlc_ageing (x : Allocator) : (s.setAlc x).ageing = s.ageing := rfl
@[simp] theorem State.setAlc_lanes (x : Allocator) : (s.setAlc x).lanes = s.lanes := rfl
@[simp] theorem State.setAlc_decks (x : Allocator) : (s.setAlc x).decks = s.decks := rfl
@[simp] theorem State.setAlc_stb (x : Allocator) : (s.setAlc x).stb = s.stb := rfl
@[simp] theorem State.setAlc_alc (x : Allocator) : (s.setAlc x).alc = x := rfl
@[simp] theorem State.setAlc_csc (x : Allocator) : (s.setAlc x).csc = s.csc := rfl
@[simp] theorem State.setAlc_plates (x : Allocator) : (s.setAlc x).plates = s.plates := rfl
@[simp] theorem State.setAlc_comps (x : Allocator) : (s.setAlc x).comps = s.comps := rfl
@[simp] theorem State.setAlc_hlm (x : Allocator) : (s.setAlc x).hlm = s.hlm := rfl
@[simp] theorem State.setAlc_pst (x : Allocator) : (s.setAlc x).pst = s.pst := rfl
@[simp] theorem State.setAlc_freeCount (x : Allocator) : (s.setAlc x).freeCount = s.freeCount := rfl

/-! ### State.setRamp -/

@[simp] theorem State.setRamp_pending (r : Ramp) (x : RampRun) : (s.setRamp r x).pending = s.pending := rfl
@[simp] theorem State.setRamp_session (r : Ramp) (x : RampRun) : (s.setRamp r x).session = s.session := rfl
@[simp] theorem State.setRamp_link (r : Ramp) (x : RampRun) : (s.setRamp r x).link = s.link := rfl
@[simp] theorem State.setRamp_units (r : Ramp) (x : RampRun) : (s.setRamp r x).units = s.units := rfl
@[simp] theorem State.setRamp_checkIn (r : Ramp) (x : RampRun) : (s.setRamp r x).checkIn = s.checkIn := rfl
@[simp] theorem State.setRamp_ageing (r : Ramp) (x : RampRun) : (s.setRamp r x).ageing = s.ageing := rfl
@[simp] theorem State.setRamp_lanes (r : Ramp) (x : RampRun) : (s.setRamp r x).lanes = s.lanes := rfl
@[simp] theorem State.setRamp_decks (r : Ramp) (x : RampRun) : (s.setRamp r x).decks = s.decks := rfl
@[simp] theorem State.setRamp_stb (r : Ramp) (x : RampRun) : (s.setRamp r x).stb = s.stb := rfl
@[simp] theorem State.setRamp_alc (r : Ramp) (x : RampRun) : (s.setRamp r x).alc = s.alc := rfl
@[simp] theorem State.setRamp_csc (r : Ramp) (x : RampRun) : (s.setRamp r x).csc = s.csc.set r x := rfl
@[simp] theorem State.setRamp_plates (r : Ramp) (x : RampRun) : (s.setRamp r x).plates = s.plates := rfl
@[simp] theorem State.setRamp_comps (r : Ramp) (x : RampRun) : (s.setRamp r x).comps = s.comps := rfl
@[simp] theorem State.setRamp_hlm (r : Ramp) (x : RampRun) : (s.setRamp r x).hlm = s.hlm := rfl
@[simp] theorem State.setRamp_pst (r : Ramp) (x : RampRun) : (s.setRamp r x).pst = s.pst := rfl
@[simp] theorem State.setRamp_freeCount (r : Ramp) (x : RampRun) : (s.setRamp r x).freeCount = s.freeCount := rfl

/-! ### State.setPlate -/

@[simp] theorem State.setPlate_pending (r : Ramp) (x : Plate) : (s.setPlate r x).pending = s.pending := rfl
@[simp] theorem State.setPlate_session (r : Ramp) (x : Plate) : (s.setPlate r x).session = s.session := rfl
@[simp] theorem State.setPlate_link (r : Ramp) (x : Plate) : (s.setPlate r x).link = s.link := rfl
@[simp] theorem State.setPlate_units (r : Ramp) (x : Plate) : (s.setPlate r x).units = s.units := rfl
@[simp] theorem State.setPlate_checkIn (r : Ramp) (x : Plate) : (s.setPlate r x).checkIn = s.checkIn := rfl
@[simp] theorem State.setPlate_ageing (r : Ramp) (x : Plate) : (s.setPlate r x).ageing = s.ageing := rfl
@[simp] theorem State.setPlate_lanes (r : Ramp) (x : Plate) : (s.setPlate r x).lanes = s.lanes := rfl
@[simp] theorem State.setPlate_decks (r : Ramp) (x : Plate) : (s.setPlate r x).decks = s.decks := rfl
@[simp] theorem State.setPlate_stb (r : Ramp) (x : Plate) : (s.setPlate r x).stb = s.stb := rfl
@[simp] theorem State.setPlate_alc (r : Ramp) (x : Plate) : (s.setPlate r x).alc = s.alc := rfl
@[simp] theorem State.setPlate_csc (r : Ramp) (x : Plate) : (s.setPlate r x).csc = s.csc := rfl
@[simp] theorem State.setPlate_plates (r : Ramp) (x : Plate) : (s.setPlate r x).plates = s.plates.set r x := rfl
@[simp] theorem State.setPlate_comps (r : Ramp) (x : Plate) : (s.setPlate r x).comps = s.comps := rfl
@[simp] theorem State.setPlate_hlm (r : Ramp) (x : Plate) : (s.setPlate r x).hlm = s.hlm := rfl
@[simp] theorem State.setPlate_pst (r : Ramp) (x : Plate) : (s.setPlate r x).pst = s.pst := rfl
@[simp] theorem State.setPlate_freeCount (r : Ramp) (x : Plate) : (s.setPlate r x).freeCount = s.freeCount := rfl

/-! ### State.setComp -/

@[simp] theorem State.setComp_pending (r : Ramp) (x : Comparator) : (s.setComp r x).pending = s.pending := rfl
@[simp] theorem State.setComp_session (r : Ramp) (x : Comparator) : (s.setComp r x).session = s.session := rfl
@[simp] theorem State.setComp_link (r : Ramp) (x : Comparator) : (s.setComp r x).link = s.link := rfl
@[simp] theorem State.setComp_units (r : Ramp) (x : Comparator) : (s.setComp r x).units = s.units := rfl
@[simp] theorem State.setComp_checkIn (r : Ramp) (x : Comparator) : (s.setComp r x).checkIn = s.checkIn := rfl
@[simp] theorem State.setComp_ageing (r : Ramp) (x : Comparator) : (s.setComp r x).ageing = s.ageing := rfl
@[simp] theorem State.setComp_lanes (r : Ramp) (x : Comparator) : (s.setComp r x).lanes = s.lanes := rfl
@[simp] theorem State.setComp_decks (r : Ramp) (x : Comparator) : (s.setComp r x).decks = s.decks := rfl
@[simp] theorem State.setComp_stb (r : Ramp) (x : Comparator) : (s.setComp r x).stb = s.stb := rfl
@[simp] theorem State.setComp_alc (r : Ramp) (x : Comparator) : (s.setComp r x).alc = s.alc := rfl
@[simp] theorem State.setComp_csc (r : Ramp) (x : Comparator) : (s.setComp r x).csc = s.csc := rfl
@[simp] theorem State.setComp_plates (r : Ramp) (x : Comparator) : (s.setComp r x).plates = s.plates := rfl
@[simp] theorem State.setComp_comps (r : Ramp) (x : Comparator) : (s.setComp r x).comps = s.comps.set r x := rfl
@[simp] theorem State.setComp_hlm (r : Ramp) (x : Comparator) : (s.setComp r x).hlm = s.hlm := rfl
@[simp] theorem State.setComp_pst (r : Ramp) (x : Comparator) : (s.setComp r x).pst = s.pst := rfl
@[simp] theorem State.setComp_freeCount (r : Ramp) (x : Comparator) : (s.setComp r x).freeCount = s.freeCount := rfl

/-! ### State.setHlm -/

@[simp] theorem State.setHlm_pending (x : HeelMonitor) : (s.setHlm x).pending = s.pending := rfl
@[simp] theorem State.setHlm_session (x : HeelMonitor) : (s.setHlm x).session = s.session := rfl
@[simp] theorem State.setHlm_link (x : HeelMonitor) : (s.setHlm x).link = s.link := rfl
@[simp] theorem State.setHlm_units (x : HeelMonitor) : (s.setHlm x).units = s.units := rfl
@[simp] theorem State.setHlm_checkIn (x : HeelMonitor) : (s.setHlm x).checkIn = s.checkIn := rfl
@[simp] theorem State.setHlm_ageing (x : HeelMonitor) : (s.setHlm x).ageing = s.ageing := rfl
@[simp] theorem State.setHlm_lanes (x : HeelMonitor) : (s.setHlm x).lanes = s.lanes := rfl
@[simp] theorem State.setHlm_decks (x : HeelMonitor) : (s.setHlm x).decks = s.decks := rfl
@[simp] theorem State.setHlm_stb (x : HeelMonitor) : (s.setHlm x).stb = s.stb := rfl
@[simp] theorem State.setHlm_alc (x : HeelMonitor) : (s.setHlm x).alc = s.alc := rfl
@[simp] theorem State.setHlm_csc (x : HeelMonitor) : (s.setHlm x).csc = s.csc := rfl
@[simp] theorem State.setHlm_plates (x : HeelMonitor) : (s.setHlm x).plates = s.plates := rfl
@[simp] theorem State.setHlm_comps (x : HeelMonitor) : (s.setHlm x).comps = s.comps := rfl
@[simp] theorem State.setHlm_hlm (x : HeelMonitor) : (s.setHlm x).hlm = x := rfl
@[simp] theorem State.setHlm_pst (x : HeelMonitor) : (s.setHlm x).pst = s.pst := rfl
@[simp] theorem State.setHlm_freeCount (x : HeelMonitor) : (s.setHlm x).freeCount = s.freeCount := rfl

/-! ### State.setPst -/

@[simp] theorem State.setPst_pending (x : ProfileStore) : (s.setPst x).pending = s.pending := rfl
@[simp] theorem State.setPst_session (x : ProfileStore) : (s.setPst x).session = s.session := rfl
@[simp] theorem State.setPst_link (x : ProfileStore) : (s.setPst x).link = s.link := rfl
@[simp] theorem State.setPst_units (x : ProfileStore) : (s.setPst x).units = s.units := rfl
@[simp] theorem State.setPst_checkIn (x : ProfileStore) : (s.setPst x).checkIn = s.checkIn := rfl
@[simp] theorem State.setPst_ageing (x : ProfileStore) : (s.setPst x).ageing = s.ageing := rfl
@[simp] theorem State.setPst_lanes (x : ProfileStore) : (s.setPst x).lanes = s.lanes := rfl
@[simp] theorem State.setPst_decks (x : ProfileStore) : (s.setPst x).decks = s.decks := rfl
@[simp] theorem State.setPst_stb (x : ProfileStore) : (s.setPst x).stb = s.stb := rfl
@[simp] theorem State.setPst_alc (x : ProfileStore) : (s.setPst x).alc = s.alc := rfl
@[simp] theorem State.setPst_csc (x : ProfileStore) : (s.setPst x).csc = s.csc := rfl
@[simp] theorem State.setPst_plates (x : ProfileStore) : (s.setPst x).plates = s.plates := rfl
@[simp] theorem State.setPst_comps (x : ProfileStore) : (s.setPst x).comps = s.comps := rfl
@[simp] theorem State.setPst_hlm (x : ProfileStore) : (s.setPst x).hlm = s.hlm := rfl
@[simp] theorem State.setPst_pst (x : ProfileStore) : (s.setPst x).pst = x := rfl
@[simp] theorem State.setPst_freeCount (x : ProfileStore) : (s.setPst x).freeCount = s.freeCount := rfl

/-! ### State.setFreeCount -/

@[simp] theorem State.setFreeCount_pending (n : Nat) : (s.setFreeCount n).pending = s.pending := rfl
@[simp] theorem State.setFreeCount_session (n : Nat) : (s.setFreeCount n).session = s.session := rfl
@[simp] theorem State.setFreeCount_link (n : Nat) : (s.setFreeCount n).link = s.link := rfl
@[simp] theorem State.setFreeCount_units (n : Nat) : (s.setFreeCount n).units = s.units := rfl
@[simp] theorem State.setFreeCount_checkIn (n : Nat) : (s.setFreeCount n).checkIn = s.checkIn := rfl
@[simp] theorem State.setFreeCount_ageing (n : Nat) : (s.setFreeCount n).ageing = s.ageing := rfl
@[simp] theorem State.setFreeCount_lanes (n : Nat) : (s.setFreeCount n).lanes = s.lanes := rfl
@[simp] theorem State.setFreeCount_decks (n : Nat) : (s.setFreeCount n).decks = s.decks := rfl
@[simp] theorem State.setFreeCount_stb (n : Nat) : (s.setFreeCount n).stb = s.stb := rfl
@[simp] theorem State.setFreeCount_alc (n : Nat) : (s.setFreeCount n).alc = s.alc := rfl
@[simp] theorem State.setFreeCount_csc (n : Nat) : (s.setFreeCount n).csc = s.csc := rfl
@[simp] theorem State.setFreeCount_plates (n : Nat) : (s.setFreeCount n).plates = s.plates := rfl
@[simp] theorem State.setFreeCount_comps (n : Nat) : (s.setFreeCount n).comps = s.comps := rfl
@[simp] theorem State.setFreeCount_hlm (n : Nat) : (s.setFreeCount n).hlm = s.hlm := rfl
@[simp] theorem State.setFreeCount_pst (n : Nat) : (s.setFreeCount n).pst = s.pst := rfl
@[simp] theorem State.setFreeCount_freeCount (n : Nat) : (s.setFreeCount n).freeCount = n := rfl

/-! ## One value for each ramp -/

@[simp] theorem PerRamp.get_set_same {α : Type} (p : PerRamp α) (r : Ramp) (v : α) : (p.set r v).get r = v := by
  cases r <;> rfl

theorem PerRamp.get_set_other {α : Type} (p : PerRamp α) {r q : Ramp} (v : α) (h : q ≠ r) : (p.set r v).get q = p.get q := by
  cases r <;> cases q <;> first | rfl | exact absurd rfl h

@[simp] theorem PerRamp.set_set {α : Type} (p : PerRamp α) (r : Ramp) (v w : α) : (p.set r v).set r w = p.set r w := by
  cases r <;> rfl

@[simp] theorem PerRamp.set_get {α : Type} (p : PerRamp α) (r : Ramp) : p.set r (p.get r) = p := by
  cases r <;> rfl

/-! ## The readings of State after an update -/

@[simp] theorem State.lane_setLane_same (l : Lane) (v : LaneRun) : (s.setLane l v).lane l = v := by
  simp [State.lane]

theorem State.lane_setLane_other {l k : Lane} (v : LaneRun) (h : k ≠ l) : (s.setLane l v).lane k = s.lane k := by
  have h' : l.val ≠ k.val := fun e => h (Fin.ext e.symm)
  simp [State.lane, Vector.getElem_set_ne _ _ h']

@[simp] theorem State.deck_setDeck_same (d : Deck) (v : DeckRun) : (s.setDeck d v).deck d = v := by
  simp [State.deck]

theorem State.deck_setDeck_other {d e : Deck} (v : DeckRun) (h : e ≠ d) : (s.setDeck d v).deck e = s.deck e := by
  have h' : d.val ≠ e.val := fun x => h (Fin.ext x.symm)
  simp [State.deck, Vector.getElem_set_ne _ _ h']

@[simp] theorem State.ramp_setRamp_same (r : Ramp) (x : RampRun) : (s.setRamp r x).ramp r = x := by simp [State.ramp]

theorem State.ramp_setRamp_other {r q : Ramp} (x : RampRun) (h : q ≠ r) : (s.setRamp r x).ramp q = s.ramp q := by
  simp [State.ramp, PerRamp.get_set_other _ _ h]

@[simp] theorem State.plate_setPlate_same (r : Ramp) (x : Plate) : (s.setPlate r x).plate r = x := by simp [State.plate]

theorem State.plate_setPlate_other {r q : Ramp} (x : Plate) (h : q ≠ r) : (s.setPlate r x).plate q = s.plate q := by
  simp [State.plate, PerRamp.get_set_other _ _ h]

@[simp] theorem State.comp_setComp_same (r : Ramp) (x : Comparator) : (s.setComp r x).comp r = x := by simp [State.comp]

theorem State.comp_setComp_other {r q : Ramp} (x : Comparator) (h : q ≠ r) : (s.setComp r x).comp q = s.comp q := by
  simp [State.comp, PerRamp.get_set_other _ _ h]


/-! ### State.lane is untouched by updates elsewhere -/

@[simp] theorem State.lane_setPending (q : List Instr) (k : Lane) : (s.setPending q).lane k = s.lane k := rfl
@[simp] theorem State.lane_setSession (x : Session) (k : Lane) : (s.setSession x).lane k = s.lane k := rfl
@[simp] theorem State.lane_modLink (f : Link → Link) (k : Lane) : (s.modLink f).lane k = s.lane k := rfl
@[simp] theorem State.lane_setUnits (us : List UnitRecord) (k : Lane) : (s.setUnits us).lane k = s.lane k := rfl
@[simp] theorem State.lane_setCheckIn (rs : List Ref) (k : Lane) : (s.setCheckIn rs).lane k = s.lane k := rfl
@[simp] theorem State.lane_setAgeing (t : Timer) (k : Lane) : (s.setAgeing t).lane k = s.lane k := rfl
@[simp] theorem State.lane_setDeck (d : Deck) (v : DeckRun) (k : Lane) : (s.setDeck d v).lane k = s.lane k := rfl
@[simp] theorem State.lane_setDecks (v : Vector DeckRun 4) (k : Lane) : (s.setDecks v).lane k = s.lane k := rfl
@[simp] theorem State.lane_setStb (x : Stability) (k : Lane) : (s.setStb x).lane k = s.lane k := rfl
@[simp] theorem State.lane_setAlc (x : Allocator) (k : Lane) : (s.setAlc x).lane k = s.lane k := rfl
@[simp] theorem State.lane_setRamp (r : Ramp) (x : RampRun) (k : Lane) : (s.setRamp r x).lane k = s.lane k := rfl
@[simp] theorem State.lane_setPlate (r : Ramp) (x : Plate) (k : Lane) : (s.setPlate r x).lane k = s.lane k := rfl
@[simp] theorem State.lane_setComp (r : Ramp) (x : Comparator) (k : Lane) : (s.setComp r x).lane k = s.lane k := rfl
@[simp] theorem State.lane_setHlm (x : HeelMonitor) (k : Lane) : (s.setHlm x).lane k = s.lane k := rfl
@[simp] theorem State.lane_setPst (x : ProfileStore) (k : Lane) : (s.setPst x).lane k = s.lane k := rfl
@[simp] theorem State.lane_setFreeCount (n : Nat) (k : Lane) : (s.setFreeCount n).lane k = s.lane k := rfl

/-! ### State.deck is untouched by updates elsewhere -/

@[simp] theorem State.deck_setPending (q : List Instr) (e : Deck) : (s.setPending q).deck e = s.deck e := rfl
@[simp] theorem State.deck_setSession (x : Session) (e : Deck) : (s.setSession x).deck e = s.deck e := rfl
@[simp] theorem State.deck_modLink (f : Link → Link) (e : Deck) : (s.modLink f).deck e = s.deck e := rfl
@[simp] theorem State.deck_setUnits (us : List UnitRecord) (e : Deck) : (s.setUnits us).deck e = s.deck e := rfl
@[simp] theorem State.deck_setCheckIn (rs : List Ref) (e : Deck) : (s.setCheckIn rs).deck e = s.deck e := rfl
@[simp] theorem State.deck_setAgeing (t : Timer) (e : Deck) : (s.setAgeing t).deck e = s.deck e := rfl
@[simp] theorem State.deck_setLane (l : Lane) (v : LaneRun) (e : Deck) : (s.setLane l v).deck e = s.deck e := rfl
@[simp] theorem State.deck_setLanes (v : Vector LaneRun 96) (e : Deck) : (s.setLanes v).deck e = s.deck e := rfl
@[simp] theorem State.deck_setStb (x : Stability) (e : Deck) : (s.setStb x).deck e = s.deck e := rfl
@[simp] theorem State.deck_setAlc (x : Allocator) (e : Deck) : (s.setAlc x).deck e = s.deck e := rfl
@[simp] theorem State.deck_setRamp (r : Ramp) (x : RampRun) (e : Deck) : (s.setRamp r x).deck e = s.deck e := rfl
@[simp] theorem State.deck_setPlate (r : Ramp) (x : Plate) (e : Deck) : (s.setPlate r x).deck e = s.deck e := rfl
@[simp] theorem State.deck_setComp (r : Ramp) (x : Comparator) (e : Deck) : (s.setComp r x).deck e = s.deck e := rfl
@[simp] theorem State.deck_setHlm (x : HeelMonitor) (e : Deck) : (s.setHlm x).deck e = s.deck e := rfl
@[simp] theorem State.deck_setPst (x : ProfileStore) (e : Deck) : (s.setPst x).deck e = s.deck e := rfl
@[simp] theorem State.deck_setFreeCount (n : Nat) (e : Deck) : (s.setFreeCount n).deck e = s.deck e := rfl

/-! ### State.ramp is untouched by updates elsewhere -/

@[simp] theorem State.ramp_setPending (w : List Instr) (q : Ramp) : (s.setPending w).ramp q = s.ramp q := rfl
@[simp] theorem State.ramp_setSession (x : Session) (q : Ramp) : (s.setSession x).ramp q = s.ramp q := rfl
@[simp] theorem State.ramp_modLink (f : Link → Link) (q : Ramp) : (s.modLink f).ramp q = s.ramp q := rfl
@[simp] theorem State.ramp_setUnits (us : List UnitRecord) (q : Ramp) : (s.setUnits us).ramp q = s.ramp q := rfl
@[simp] theorem State.ramp_setCheckIn (rs : List Ref) (q : Ramp) : (s.setCheckIn rs).ramp q = s.ramp q := rfl
@[simp] theorem State.ramp_setAgeing (t : Timer) (q : Ramp) : (s.setAgeing t).ramp q = s.ramp q := rfl
@[simp] theorem State.ramp_setLane (l : Lane) (v : LaneRun) (q : Ramp) : (s.setLane l v).ramp q = s.ramp q := rfl
@[simp] theorem State.ramp_setLanes (v : Vector LaneRun 96) (q : Ramp) : (s.setLanes v).ramp q = s.ramp q := rfl
@[simp] theorem State.ramp_setDeck (d : Deck) (v : DeckRun) (q : Ramp) : (s.setDeck d v).ramp q = s.ramp q := rfl
@[simp] theorem State.ramp_setDecks (v : Vector DeckRun 4) (q : Ramp) : (s.setDecks v).ramp q = s.ramp q := rfl
@[simp] theorem State.ramp_setStb (x : Stability) (q : Ramp) : (s.setStb x).ramp q = s.ramp q := rfl
@[simp] theorem State.ramp_setAlc (x : Allocator) (q : Ramp) : (s.setAlc x).ramp q = s.ramp q := rfl
@[simp] theorem State.ramp_setPlate (r : Ramp) (x : Plate) (q : Ramp) : (s.setPlate r x).ramp q = s.ramp q := rfl
@[simp] theorem State.ramp_setComp (r : Ramp) (x : Comparator) (q : Ramp) : (s.setComp r x).ramp q = s.ramp q := rfl
@[simp] theorem State.ramp_setHlm (x : HeelMonitor) (q : Ramp) : (s.setHlm x).ramp q = s.ramp q := rfl
@[simp] theorem State.ramp_setPst (x : ProfileStore) (q : Ramp) : (s.setPst x).ramp q = s.ramp q := rfl
@[simp] theorem State.ramp_setFreeCount (n : Nat) (q : Ramp) : (s.setFreeCount n).ramp q = s.ramp q := rfl

/-! ### State.plate is untouched by updates elsewhere -/

@[simp] theorem State.plate_setPending (w : List Instr) (q : Ramp) : (s.setPending w).plate q = s.plate q := rfl
@[simp] theorem State.plate_setSession (x : Session) (q : Ramp) : (s.setSession x).plate q = s.plate q := rfl
@[simp] theorem State.plate_modLink (f : Link → Link) (q : Ramp) : (s.modLink f).plate q = s.plate q := rfl
@[simp] theorem State.plate_setUnits (us : List UnitRecord) (q : Ramp) : (s.setUnits us).plate q = s.plate q := rfl
@[simp] theorem State.plate_setCheckIn (rs : List Ref) (q : Ramp) : (s.setCheckIn rs).plate q = s.plate q := rfl
@[simp] theorem State.plate_setAgeing (t : Timer) (q : Ramp) : (s.setAgeing t).plate q = s.plate q := rfl
@[simp] theorem State.plate_setLane (l : Lane) (v : LaneRun) (q : Ramp) : (s.setLane l v).plate q = s.plate q := rfl
@[simp] theorem State.plate_setLanes (v : Vector LaneRun 96) (q : Ramp) : (s.setLanes v).plate q = s.plate q := rfl
@[simp] theorem State.plate_setDeck (d : Deck) (v : DeckRun) (q : Ramp) : (s.setDeck d v).plate q = s.plate q := rfl
@[simp] theorem State.plate_setDecks (v : Vector DeckRun 4) (q : Ramp) : (s.setDecks v).plate q = s.plate q := rfl
@[simp] theorem State.plate_setStb (x : Stability) (q : Ramp) : (s.setStb x).plate q = s.plate q := rfl
@[simp] theorem State.plate_setAlc (x : Allocator) (q : Ramp) : (s.setAlc x).plate q = s.plate q := rfl
@[simp] theorem State.plate_setRamp (r : Ramp) (x : RampRun) (q : Ramp) : (s.setRamp r x).plate q = s.plate q := rfl
@[simp] theorem State.plate_setComp (r : Ramp) (x : Comparator) (q : Ramp) : (s.setComp r x).plate q = s.plate q := rfl
@[simp] theorem State.plate_setHlm (x : HeelMonitor) (q : Ramp) : (s.setHlm x).plate q = s.plate q := rfl
@[simp] theorem State.plate_setPst (x : ProfileStore) (q : Ramp) : (s.setPst x).plate q = s.plate q := rfl
@[simp] theorem State.plate_setFreeCount (n : Nat) (q : Ramp) : (s.setFreeCount n).plate q = s.plate q := rfl

/-! ### State.comp is untouched by updates elsewhere -/

@[simp] theorem State.comp_setPending (w : List Instr) (q : Ramp) : (s.setPending w).comp q = s.comp q := rfl
@[simp] theorem State.comp_setSession (x : Session) (q : Ramp) : (s.setSession x).comp q = s.comp q := rfl
@[simp] theorem State.comp_modLink (f : Link → Link) (q : Ramp) : (s.modLink f).comp q = s.comp q := rfl
@[simp] theorem State.comp_setUnits (us : List UnitRecord) (q : Ramp) : (s.setUnits us).comp q = s.comp q := rfl
@[simp] theorem State.comp_setCheckIn (rs : List Ref) (q : Ramp) : (s.setCheckIn rs).comp q = s.comp q := rfl
@[simp] theorem State.comp_setAgeing (t : Timer) (q : Ramp) : (s.setAgeing t).comp q = s.comp q := rfl
@[simp] theorem State.comp_setLane (l : Lane) (v : LaneRun) (q : Ramp) : (s.setLane l v).comp q = s.comp q := rfl
@[simp] theorem State.comp_setLanes (v : Vector LaneRun 96) (q : Ramp) : (s.setLanes v).comp q = s.comp q := rfl
@[simp] theorem State.comp_setDeck (d : Deck) (v : DeckRun) (q : Ramp) : (s.setDeck d v).comp q = s.comp q := rfl
@[simp] theorem State.comp_setDecks (v : Vector DeckRun 4) (q : Ramp) : (s.setDecks v).comp q = s.comp q := rfl
@[simp] theorem State.comp_setStb (x : Stability) (q : Ramp) : (s.setStb x).comp q = s.comp q := rfl
@[simp] theorem State.comp_setAlc (x : Allocator) (q : Ramp) : (s.setAlc x).comp q = s.comp q := rfl
@[simp] theorem State.comp_setRamp (r : Ramp) (x : RampRun) (q : Ramp) : (s.setRamp r x).comp q = s.comp q := rfl
@[simp] theorem State.comp_setPlate (r : Ramp) (x : Plate) (q : Ramp) : (s.setPlate r x).comp q = s.comp q := rfl
@[simp] theorem State.comp_setHlm (x : HeelMonitor) (q : Ramp) : (s.setHlm x).comp q = s.comp q := rfl
@[simp] theorem State.comp_setPst (x : ProfileStore) (q : Ramp) : (s.setPst x).comp q = s.comp q := rfl
@[simp] theorem State.comp_setFreeCount (n : Nat) (q : Ramp) : (s.setFreeCount n).comp q = s.comp q := rfl

/-! ### State.profile -/

@[simp] theorem State.profile_setPending (q : List Instr) : (s.setPending q).profile = s.profile := rfl
@[simp] theorem State.profile_setSession (x : Session) : (s.setSession x).profile = s.profile := rfl
@[simp] theorem State.profile_modLink (f : Link → Link) : (s.modLink f).profile = s.profile := rfl
@[simp] theorem State.profile_setUnits (us : List UnitRecord) : (s.setUnits us).profile = s.profile := rfl
@[simp] theorem State.profile_setCheckIn (rs : List Ref) : (s.setCheckIn rs).profile = s.profile := rfl
@[simp] theorem State.profile_setAgeing (t : Timer) : (s.setAgeing t).profile = s.profile := rfl
@[simp] theorem State.profile_setLane (l : Lane) (v : LaneRun) : (s.setLane l v).profile = s.profile := rfl
@[simp] theorem State.profile_setLanes (v : Vector LaneRun 96) : (s.setLanes v).profile = s.profile := rfl
@[simp] theorem State.profile_setDeck (d : Deck) (v : DeckRun) : (s.setDeck d v).profile = s.profile := rfl
@[simp] theorem State.profile_setDecks (v : Vector DeckRun 4) : (s.setDecks v).profile = s.profile := rfl
@[simp] theorem State.profile_setStb (x : Stability) : (s.setStb x).profile = s.profile := rfl
@[simp] theorem State.profile_setAlc (x : Allocator) : (s.setAlc x).profile = s.profile := rfl
@[simp] theorem State.profile_setRamp (r : Ramp) (x : RampRun) : (s.setRamp r x).profile = s.profile := rfl
@[simp] theorem State.profile_setPlate (r : Ramp) (x : Plate) : (s.setPlate r x).profile = s.profile := rfl
@[simp] theorem State.profile_setComp (r : Ramp) (x : Comparator) : (s.setComp r x).profile = s.profile := rfl
@[simp] theorem State.profile_setHlm (x : HeelMonitor) : (s.setHlm x).profile = s.profile := rfl
@[simp] theorem State.profile_setFreeCount (n : Nat) : (s.setFreeCount n).profile = s.profile := rfl

/-! ### State.vessel -/

@[simp] theorem State.vessel_setPending (q : List Instr) : (s.setPending q).vessel = s.vessel := rfl
@[simp] theorem State.vessel_setSession (x : Session) : (s.setSession x).vessel = s.vessel := rfl
@[simp] theorem State.vessel_modLink (f : Link → Link) : (s.modLink f).vessel = s.vessel := rfl
@[simp] theorem State.vessel_setUnits (us : List UnitRecord) : (s.setUnits us).vessel = s.vessel := rfl
@[simp] theorem State.vessel_setCheckIn (rs : List Ref) : (s.setCheckIn rs).vessel = s.vessel := rfl
@[simp] theorem State.vessel_setAgeing (t : Timer) : (s.setAgeing t).vessel = s.vessel := rfl
@[simp] theorem State.vessel_setLane (l : Lane) (v : LaneRun) : (s.setLane l v).vessel = s.vessel := rfl
@[simp] theorem State.vessel_setLanes (v : Vector LaneRun 96) : (s.setLanes v).vessel = s.vessel := rfl
@[simp] theorem State.vessel_setDeck (d : Deck) (v : DeckRun) : (s.setDeck d v).vessel = s.vessel := rfl
@[simp] theorem State.vessel_setDecks (v : Vector DeckRun 4) : (s.setDecks v).vessel = s.vessel := rfl
@[simp] theorem State.vessel_setStb (x : Stability) : (s.setStb x).vessel = s.vessel := rfl
@[simp] theorem State.vessel_setAlc (x : Allocator) : (s.setAlc x).vessel = s.vessel := rfl
@[simp] theorem State.vessel_setRamp (r : Ramp) (x : RampRun) : (s.setRamp r x).vessel = s.vessel := rfl
@[simp] theorem State.vessel_setPlate (r : Ramp) (x : Plate) : (s.setPlate r x).vessel = s.vessel := rfl
@[simp] theorem State.vessel_setComp (r : Ramp) (x : Comparator) : (s.setComp r x).vessel = s.vessel := rfl
@[simp] theorem State.vessel_setHlm (x : HeelMonitor) : (s.setHlm x).vessel = s.vessel := rfl
@[simp] theorem State.vessel_setFreeCount (n : Nat) : (s.setFreeCount n).vessel = s.vessel := rfl

/-! ### State.deckFixed -/

@[simp] theorem State.deckFixed_setPending (q : List Instr) (d₀ : Deck) : (s.setPending q).deckFixed d₀ = s.deckFixed d₀ := rfl
@[simp] theorem State.deckFixed_setSession (x : Session) (d₀ : Deck) : (s.setSession x).deckFixed d₀ = s.deckFixed d₀ := rfl
@[simp] theorem State.deckFixed_modLink (f : Link → Link) (d₀ : Deck) : (s.modLink f).deckFixed d₀ = s.deckFixed d₀ := rfl
@[simp] theorem State.deckFixed_setUnits (us : List UnitRecord) (d₀ : Deck) : (s.setUnits us).deckFixed d₀ = s.deckFixed d₀ := rfl
@[simp] theorem State.deckFixed_setCheckIn (rs : List Ref) (d₀ : Deck) : (s.setCheckIn rs).deckFixed d₀ = s.deckFixed d₀ := rfl
@[simp] theorem State.deckFixed_setAgeing (t : Timer) (d₀ : Deck) : (s.setAgeing t).deckFixed d₀ = s.deckFixed d₀ := rfl
@[simp] theorem State.deckFixed_setLane (l : Lane) (v : LaneRun) (d₀ : Deck) : (s.setLane l v).deckFixed d₀ = s.deckFixed d₀ := rfl
@[simp] theorem State.deckFixed_setLanes (v : Vector LaneRun 96) (d₀ : Deck) : (s.setLanes v).deckFixed d₀ = s.deckFixed d₀ := rfl
@[simp] theorem State.deckFixed_setDeck (d : Deck) (v : DeckRun) (d₀ : Deck) : (s.setDeck d v).deckFixed d₀ = s.deckFixed d₀ := rfl
@[simp] theorem State.deckFixed_setDecks (v : Vector DeckRun 4) (d₀ : Deck) : (s.setDecks v).deckFixed d₀ = s.deckFixed d₀ := rfl
@[simp] theorem State.deckFixed_setStb (x : Stability) (d₀ : Deck) : (s.setStb x).deckFixed d₀ = s.deckFixed d₀ := rfl
@[simp] theorem State.deckFixed_setAlc (x : Allocator) (d₀ : Deck) : (s.setAlc x).deckFixed d₀ = s.deckFixed d₀ := rfl
@[simp] theorem State.deckFixed_setRamp (r : Ramp) (x : RampRun) (d₀ : Deck) : (s.setRamp r x).deckFixed d₀ = s.deckFixed d₀ := rfl
@[simp] theorem State.deckFixed_setPlate (r : Ramp) (x : Plate) (d₀ : Deck) : (s.setPlate r x).deckFixed d₀ = s.deckFixed d₀ := rfl
@[simp] theorem State.deckFixed_setComp (r : Ramp) (x : Comparator) (d₀ : Deck) : (s.setComp r x).deckFixed d₀ = s.deckFixed d₀ := rfl
@[simp] theorem State.deckFixed_setHlm (x : HeelMonitor) (d₀ : Deck) : (s.setHlm x).deckFixed d₀ = s.deckFixed d₀ := rfl
@[simp] theorem State.deckFixed_setFreeCount (n : Nat) (d₀ : Deck) : (s.setFreeCount n).deckFixed d₀ = s.deckFixed d₀ := rfl

/-! ### State.laneFixed -/

@[simp] theorem State.laneFixed_setPending (q : List Instr) (l₀ : Lane) : (s.setPending q).laneFixed l₀ = s.laneFixed l₀ := rfl
@[simp] theorem State.laneFixed_setSession (x : Session) (l₀ : Lane) : (s.setSession x).laneFixed l₀ = s.laneFixed l₀ := rfl
@[simp] theorem State.laneFixed_modLink (f : Link → Link) (l₀ : Lane) : (s.modLink f).laneFixed l₀ = s.laneFixed l₀ := rfl
@[simp] theorem State.laneFixed_setUnits (us : List UnitRecord) (l₀ : Lane) : (s.setUnits us).laneFixed l₀ = s.laneFixed l₀ := rfl
@[simp] theorem State.laneFixed_setCheckIn (rs : List Ref) (l₀ : Lane) : (s.setCheckIn rs).laneFixed l₀ = s.laneFixed l₀ := rfl
@[simp] theorem State.laneFixed_setAgeing (t : Timer) (l₀ : Lane) : (s.setAgeing t).laneFixed l₀ = s.laneFixed l₀ := rfl
@[simp] theorem State.laneFixed_setLane (l : Lane) (v : LaneRun) (l₀ : Lane) : (s.setLane l v).laneFixed l₀ = s.laneFixed l₀ := rfl
@[simp] theorem State.laneFixed_setLanes (v : Vector LaneRun 96) (l₀ : Lane) : (s.setLanes v).laneFixed l₀ = s.laneFixed l₀ := rfl
@[simp] theorem State.laneFixed_setDeck (d : Deck) (v : DeckRun) (l₀ : Lane) : (s.setDeck d v).laneFixed l₀ = s.laneFixed l₀ := rfl
@[simp] theorem State.laneFixed_setDecks (v : Vector DeckRun 4) (l₀ : Lane) : (s.setDecks v).laneFixed l₀ = s.laneFixed l₀ := rfl
@[simp] theorem State.laneFixed_setStb (x : Stability) (l₀ : Lane) : (s.setStb x).laneFixed l₀ = s.laneFixed l₀ := rfl
@[simp] theorem State.laneFixed_setAlc (x : Allocator) (l₀ : Lane) : (s.setAlc x).laneFixed l₀ = s.laneFixed l₀ := rfl
@[simp] theorem State.laneFixed_setRamp (r : Ramp) (x : RampRun) (l₀ : Lane) : (s.setRamp r x).laneFixed l₀ = s.laneFixed l₀ := rfl
@[simp] theorem State.laneFixed_setPlate (r : Ramp) (x : Plate) (l₀ : Lane) : (s.setPlate r x).laneFixed l₀ = s.laneFixed l₀ := rfl
@[simp] theorem State.laneFixed_setComp (r : Ramp) (x : Comparator) (l₀ : Lane) : (s.setComp r x).laneFixed l₀ = s.laneFixed l₀ := rfl
@[simp] theorem State.laneFixed_setHlm (x : HeelMonitor) (l₀ : Lane) : (s.setHlm x).laneFixed l₀ = s.laneFixed l₀ := rfl
@[simp] theorem State.laneFixed_setFreeCount (n : Nat) (l₀ : Lane) : (s.setFreeCount n).laneFixed l₀ = s.laneFixed l₀ := rfl

/-! ### State.rampFixed -/

@[simp] theorem State.rampFixed_setPending (q : List Instr) (r₀ : Ramp) : (s.setPending q).rampFixed r₀ = s.rampFixed r₀ := rfl
@[simp] theorem State.rampFixed_setSession (x : Session) (r₀ : Ramp) : (s.setSession x).rampFixed r₀ = s.rampFixed r₀ := rfl
@[simp] theorem State.rampFixed_modLink (f : Link → Link) (r₀ : Ramp) : (s.modLink f).rampFixed r₀ = s.rampFixed r₀ := rfl
@[simp] theorem State.rampFixed_setUnits (us : List UnitRecord) (r₀ : Ramp) : (s.setUnits us).rampFixed r₀ = s.rampFixed r₀ := rfl
@[simp] theorem State.rampFixed_setCheckIn (rs : List Ref) (r₀ : Ramp) : (s.setCheckIn rs).rampFixed r₀ = s.rampFixed r₀ := rfl
@[simp] theorem State.rampFixed_setAgeing (t : Timer) (r₀ : Ramp) : (s.setAgeing t).rampFixed r₀ = s.rampFixed r₀ := rfl
@[simp] theorem State.rampFixed_setLane (l : Lane) (v : LaneRun) (r₀ : Ramp) : (s.setLane l v).rampFixed r₀ = s.rampFixed r₀ := rfl
@[simp] theorem State.rampFixed_setLanes (v : Vector LaneRun 96) (r₀ : Ramp) : (s.setLanes v).rampFixed r₀ = s.rampFixed r₀ := rfl
@[simp] theorem State.rampFixed_setDeck (d : Deck) (v : DeckRun) (r₀ : Ramp) : (s.setDeck d v).rampFixed r₀ = s.rampFixed r₀ := rfl
@[simp] theorem State.rampFixed_setDecks (v : Vector DeckRun 4) (r₀ : Ramp) : (s.setDecks v).rampFixed r₀ = s.rampFixed r₀ := rfl
@[simp] theorem State.rampFixed_setStb (x : Stability) (r₀ : Ramp) : (s.setStb x).rampFixed r₀ = s.rampFixed r₀ := rfl
@[simp] theorem State.rampFixed_setAlc (x : Allocator) (r₀ : Ramp) : (s.setAlc x).rampFixed r₀ = s.rampFixed r₀ := rfl
@[simp] theorem State.rampFixed_setRamp (r : Ramp) (x : RampRun) (r₀ : Ramp) : (s.setRamp r x).rampFixed r₀ = s.rampFixed r₀ := rfl
@[simp] theorem State.rampFixed_setPlate (r : Ramp) (x : Plate) (r₀ : Ramp) : (s.setPlate r x).rampFixed r₀ = s.rampFixed r₀ := rfl
@[simp] theorem State.rampFixed_setComp (r : Ramp) (x : Comparator) (r₀ : Ramp) : (s.setComp r x).rampFixed r₀ = s.rampFixed r₀ := rfl
@[simp] theorem State.rampFixed_setHlm (x : HeelMonitor) (r₀ : Ramp) : (s.setHlm x).rampFixed r₀ = s.rampFixed r₀ := rfl
@[simp] theorem State.rampFixed_setFreeCount (n : Nat) (r₀ : Ramp) : (s.setFreeCount n).rampFixed r₀ = s.rampFixed r₀ := rfl

/-! ### State.laneCount -/

@[simp] theorem State.laneCount_setPending (q : List Instr) : (s.setPending q).laneCount = s.laneCount := rfl
@[simp] theorem State.laneCount_setSession (x : Session) : (s.setSession x).laneCount = s.laneCount := rfl
@[simp] theorem State.laneCount_modLink (f : Link → Link) : (s.modLink f).laneCount = s.laneCount := rfl
@[simp] theorem State.laneCount_setUnits (us : List UnitRecord) : (s.setUnits us).laneCount = s.laneCount := rfl
@[simp] theorem State.laneCount_setCheckIn (rs : List Ref) : (s.setCheckIn rs).laneCount = s.laneCount := rfl
@[simp] theorem State.laneCount_setAgeing (t : Timer) : (s.setAgeing t).laneCount = s.laneCount := rfl
@[simp] theorem State.laneCount_setLane (l : Lane) (v : LaneRun) : (s.setLane l v).laneCount = s.laneCount := rfl
@[simp] theorem State.laneCount_setLanes (v : Vector LaneRun 96) : (s.setLanes v).laneCount = s.laneCount := rfl
@[simp] theorem State.laneCount_setDeck (d : Deck) (v : DeckRun) : (s.setDeck d v).laneCount = s.laneCount := rfl
@[simp] theorem State.laneCount_setDecks (v : Vector DeckRun 4) : (s.setDecks v).laneCount = s.laneCount := rfl
@[simp] theorem State.laneCount_setStb (x : Stability) : (s.setStb x).laneCount = s.laneCount := rfl
@[simp] theorem State.laneCount_setAlc (x : Allocator) : (s.setAlc x).laneCount = s.laneCount := rfl
@[simp] theorem State.laneCount_setRamp (r : Ramp) (x : RampRun) : (s.setRamp r x).laneCount = s.laneCount := rfl
@[simp] theorem State.laneCount_setPlate (r : Ramp) (x : Plate) : (s.setPlate r x).laneCount = s.laneCount := rfl
@[simp] theorem State.laneCount_setComp (r : Ramp) (x : Comparator) : (s.setComp r x).laneCount = s.laneCount := rfl
@[simp] theorem State.laneCount_setHlm (x : HeelMonitor) : (s.setHlm x).laneCount = s.laneCount := rfl
@[simp] theorem State.laneCount_setFreeCount (n : Nat) : (s.setFreeCount n).laneCount = s.laneCount := rfl

/-! ### State.laneNumbers -/

@[simp] theorem State.laneNumbers_setPending (q : List Instr) : (s.setPending q).laneNumbers = s.laneNumbers := rfl
@[simp] theorem State.laneNumbers_setSession (x : Session) : (s.setSession x).laneNumbers = s.laneNumbers := rfl
@[simp] theorem State.laneNumbers_modLink (f : Link → Link) : (s.modLink f).laneNumbers = s.laneNumbers := rfl
@[simp] theorem State.laneNumbers_setUnits (us : List UnitRecord) : (s.setUnits us).laneNumbers = s.laneNumbers := rfl
@[simp] theorem State.laneNumbers_setCheckIn (rs : List Ref) : (s.setCheckIn rs).laneNumbers = s.laneNumbers := rfl
@[simp] theorem State.laneNumbers_setAgeing (t : Timer) : (s.setAgeing t).laneNumbers = s.laneNumbers := rfl
@[simp] theorem State.laneNumbers_setLane (l : Lane) (v : LaneRun) : (s.setLane l v).laneNumbers = s.laneNumbers := rfl
@[simp] theorem State.laneNumbers_setLanes (v : Vector LaneRun 96) : (s.setLanes v).laneNumbers = s.laneNumbers := rfl
@[simp] theorem State.laneNumbers_setDeck (d : Deck) (v : DeckRun) : (s.setDeck d v).laneNumbers = s.laneNumbers := rfl
@[simp] theorem State.laneNumbers_setDecks (v : Vector DeckRun 4) : (s.setDecks v).laneNumbers = s.laneNumbers := rfl
@[simp] theorem State.laneNumbers_setStb (x : Stability) : (s.setStb x).laneNumbers = s.laneNumbers := rfl
@[simp] theorem State.laneNumbers_setAlc (x : Allocator) : (s.setAlc x).laneNumbers = s.laneNumbers := rfl
@[simp] theorem State.laneNumbers_setRamp (r : Ramp) (x : RampRun) : (s.setRamp r x).laneNumbers = s.laneNumbers := rfl
@[simp] theorem State.laneNumbers_setPlate (r : Ramp) (x : Plate) : (s.setPlate r x).laneNumbers = s.laneNumbers := rfl
@[simp] theorem State.laneNumbers_setComp (r : Ramp) (x : Comparator) : (s.setComp r x).laneNumbers = s.laneNumbers := rfl
@[simp] theorem State.laneNumbers_setHlm (x : HeelMonitor) : (s.setHlm x).laneNumbers = s.laneNumbers := rfl
@[simp] theorem State.laneNumbers_setFreeCount (n : Nat) : (s.setFreeCount n).laneNumbers = s.laneNumbers := rfl

/-! ### State.unit? -/

@[simp] theorem State.unitOf_setPending (q : List Instr) (ref₀ : Ref) : (s.setPending q).unit? ref₀ = s.unit? ref₀ := rfl
@[simp] theorem State.unitOf_setSession (x : Session) (ref₀ : Ref) : (s.setSession x).unit? ref₀ = s.unit? ref₀ := rfl
@[simp] theorem State.unitOf_modLink (f : Link → Link) (ref₀ : Ref) : (s.modLink f).unit? ref₀ = s.unit? ref₀ := rfl
@[simp] theorem State.unitOf_setCheckIn (rs : List Ref) (ref₀ : Ref) : (s.setCheckIn rs).unit? ref₀ = s.unit? ref₀ := rfl
@[simp] theorem State.unitOf_setAgeing (t : Timer) (ref₀ : Ref) : (s.setAgeing t).unit? ref₀ = s.unit? ref₀ := rfl
@[simp] theorem State.unitOf_setLane (l : Lane) (v : LaneRun) (ref₀ : Ref) : (s.setLane l v).unit? ref₀ = s.unit? ref₀ := rfl
@[simp] theorem State.unitOf_setLanes (v : Vector LaneRun 96) (ref₀ : Ref) : (s.setLanes v).unit? ref₀ = s.unit? ref₀ := rfl
@[simp] theorem State.unitOf_setDeck (d : Deck) (v : DeckRun) (ref₀ : Ref) : (s.setDeck d v).unit? ref₀ = s.unit? ref₀ := rfl
@[simp] theorem State.unitOf_setDecks (v : Vector DeckRun 4) (ref₀ : Ref) : (s.setDecks v).unit? ref₀ = s.unit? ref₀ := rfl
@[simp] theorem State.unitOf_setStb (x : Stability) (ref₀ : Ref) : (s.setStb x).unit? ref₀ = s.unit? ref₀ := rfl
@[simp] theorem State.unitOf_setAlc (x : Allocator) (ref₀ : Ref) : (s.setAlc x).unit? ref₀ = s.unit? ref₀ := rfl
@[simp] theorem State.unitOf_setRamp (r : Ramp) (x : RampRun) (ref₀ : Ref) : (s.setRamp r x).unit? ref₀ = s.unit? ref₀ := rfl
@[simp] theorem State.unitOf_setPlate (r : Ramp) (x : Plate) (ref₀ : Ref) : (s.setPlate r x).unit? ref₀ = s.unit? ref₀ := rfl
@[simp] theorem State.unitOf_setComp (r : Ramp) (x : Comparator) (ref₀ : Ref) : (s.setComp r x).unit? ref₀ = s.unit? ref₀ := rfl
@[simp] theorem State.unitOf_setHlm (x : HeelMonitor) (ref₀ : Ref) : (s.setHlm x).unit? ref₀ = s.unit? ref₀ := rfl
@[simp] theorem State.unitOf_setPst (x : ProfileStore) (ref₀ : Ref) : (s.setPst x).unit? ref₀ = s.unit? ref₀ := rfl
@[simp] theorem State.unitOf_setFreeCount (n : Nat) (ref₀ : Ref) : (s.setFreeCount n).unit? ref₀ = s.unit? ref₀ := rfl

/-! ### State.statusOf -/

@[simp] theorem State.statusOf_setPending (q : List Instr) (ref₀ : Ref) : (s.setPending q).statusOf ref₀ = s.statusOf ref₀ := rfl
@[simp] theorem State.statusOf_setSession (x : Session) (ref₀ : Ref) : (s.setSession x).statusOf ref₀ = s.statusOf ref₀ := rfl
@[simp] theorem State.statusOf_modLink (f : Link → Link) (ref₀ : Ref) : (s.modLink f).statusOf ref₀ = s.statusOf ref₀ := rfl
@[simp] theorem State.statusOf_setCheckIn (rs : List Ref) (ref₀ : Ref) : (s.setCheckIn rs).statusOf ref₀ = s.statusOf ref₀ := rfl
@[simp] theorem State.statusOf_setAgeing (t : Timer) (ref₀ : Ref) : (s.setAgeing t).statusOf ref₀ = s.statusOf ref₀ := rfl
@[simp] theorem State.statusOf_setLane (l : Lane) (v : LaneRun) (ref₀ : Ref) : (s.setLane l v).statusOf ref₀ = s.statusOf ref₀ := rfl
@[simp] theorem State.statusOf_setLanes (v : Vector LaneRun 96) (ref₀ : Ref) : (s.setLanes v).statusOf ref₀ = s.statusOf ref₀ := rfl
@[simp] theorem State.statusOf_setDeck (d : Deck) (v : DeckRun) (ref₀ : Ref) : (s.setDeck d v).statusOf ref₀ = s.statusOf ref₀ := rfl
@[simp] theorem State.statusOf_setDecks (v : Vector DeckRun 4) (ref₀ : Ref) : (s.setDecks v).statusOf ref₀ = s.statusOf ref₀ := rfl
@[simp] theorem State.statusOf_setStb (x : Stability) (ref₀ : Ref) : (s.setStb x).statusOf ref₀ = s.statusOf ref₀ := rfl
@[simp] theorem State.statusOf_setAlc (x : Allocator) (ref₀ : Ref) : (s.setAlc x).statusOf ref₀ = s.statusOf ref₀ := rfl
@[simp] theorem State.statusOf_setRamp (r : Ramp) (x : RampRun) (ref₀ : Ref) : (s.setRamp r x).statusOf ref₀ = s.statusOf ref₀ := rfl
@[simp] theorem State.statusOf_setPlate (r : Ramp) (x : Plate) (ref₀ : Ref) : (s.setPlate r x).statusOf ref₀ = s.statusOf ref₀ := rfl
@[simp] theorem State.statusOf_setComp (r : Ramp) (x : Comparator) (ref₀ : Ref) : (s.setComp r x).statusOf ref₀ = s.statusOf ref₀ := rfl
@[simp] theorem State.statusOf_setHlm (x : HeelMonitor) (ref₀ : Ref) : (s.setHlm x).statusOf ref₀ = s.statusOf ref₀ := rfl
@[simp] theorem State.statusOf_setPst (x : ProfileStore) (ref₀ : Ref) : (s.setPst x).statusOf ref₀ = s.statusOf ref₀ := rfl
@[simp] theorem State.statusOf_setFreeCount (n : Nat) (ref₀ : Ref) : (s.setFreeCount n).statusOf ref₀ = s.statusOf ref₀ := rfl

/-! ### State.lengthOf -/

@[simp] theorem State.lengthOf_setPending (q : List Instr) (ref₀ : Ref) : (s.setPending q).lengthOf ref₀ = s.lengthOf ref₀ := rfl
@[simp] theorem State.lengthOf_setSession (x : Session) (ref₀ : Ref) : (s.setSession x).lengthOf ref₀ = s.lengthOf ref₀ := rfl
@[simp] theorem State.lengthOf_modLink (f : Link → Link) (ref₀ : Ref) : (s.modLink f).lengthOf ref₀ = s.lengthOf ref₀ := rfl
@[simp] theorem State.lengthOf_setCheckIn (rs : List Ref) (ref₀ : Ref) : (s.setCheckIn rs).lengthOf ref₀ = s.lengthOf ref₀ := rfl
@[simp] theorem State.lengthOf_setAgeing (t : Timer) (ref₀ : Ref) : (s.setAgeing t).lengthOf ref₀ = s.lengthOf ref₀ := rfl
@[simp] theorem State.lengthOf_setLane (l : Lane) (v : LaneRun) (ref₀ : Ref) : (s.setLane l v).lengthOf ref₀ = s.lengthOf ref₀ := rfl
@[simp] theorem State.lengthOf_setLanes (v : Vector LaneRun 96) (ref₀ : Ref) : (s.setLanes v).lengthOf ref₀ = s.lengthOf ref₀ := rfl
@[simp] theorem State.lengthOf_setDeck (d : Deck) (v : DeckRun) (ref₀ : Ref) : (s.setDeck d v).lengthOf ref₀ = s.lengthOf ref₀ := rfl
@[simp] theorem State.lengthOf_setDecks (v : Vector DeckRun 4) (ref₀ : Ref) : (s.setDecks v).lengthOf ref₀ = s.lengthOf ref₀ := rfl
@[simp] theorem State.lengthOf_setStb (x : Stability) (ref₀ : Ref) : (s.setStb x).lengthOf ref₀ = s.lengthOf ref₀ := rfl
@[simp] theorem State.lengthOf_setAlc (x : Allocator) (ref₀ : Ref) : (s.setAlc x).lengthOf ref₀ = s.lengthOf ref₀ := rfl
@[simp] theorem State.lengthOf_setRamp (r : Ramp) (x : RampRun) (ref₀ : Ref) : (s.setRamp r x).lengthOf ref₀ = s.lengthOf ref₀ := rfl
@[simp] theorem State.lengthOf_setPlate (r : Ramp) (x : Plate) (ref₀ : Ref) : (s.setPlate r x).lengthOf ref₀ = s.lengthOf ref₀ := rfl
@[simp] theorem State.lengthOf_setComp (r : Ramp) (x : Comparator) (ref₀ : Ref) : (s.setComp r x).lengthOf ref₀ = s.lengthOf ref₀ := rfl
@[simp] theorem State.lengthOf_setHlm (x : HeelMonitor) (ref₀ : Ref) : (s.setHlm x).lengthOf ref₀ = s.lengthOf ref₀ := rfl
@[simp] theorem State.lengthOf_setPst (x : ProfileStore) (ref₀ : Ref) : (s.setPst x).lengthOf ref₀ = s.lengthOf ref₀ := rfl
@[simp] theorem State.lengthOf_setFreeCount (n : Nat) (ref₀ : Ref) : (s.setFreeCount n).lengthOf ref₀ = s.lengthOf ref₀ := rfl

end Sys2Proof.Machine
end

