-- ==== Sys2Proof/Laws/Frames.lean ====
section
/-!
SUPPORT. What each shared operation leaves unchanged: one lemma for each field of State, and for each reading of it, that
the operation does not touch.
-/

namespace Sys2Proof.Machine

open Sys2Proof

variable (s : State)


@[simp] theorem State.setFlag_frame (x : Subject) :
    (s.setFlag x).pending = s.pending ∧ (s.setFlag x).session = s.session ∧ (s.setFlag x).units = s.units ∧
    (s.setFlag x).checkIn = s.checkIn ∧ (s.setFlag x).ageing = s.ageing ∧ (s.setFlag x).lanes = s.lanes ∧
    (s.setFlag x).decks = s.decks ∧ (s.setFlag x).stb = s.stb ∧ (s.setFlag x).alc = s.alc ∧
    (s.setFlag x).csc = s.csc ∧ (s.setFlag x).plates = s.plates ∧ (s.setFlag x).comps = s.comps ∧
    (s.setFlag x).hlm = s.hlm ∧ (s.setFlag x).pst = s.pst ∧ (s.setFlag x).freeCount = s.freeCount ∧
    (∀ k : Lane, (s.setFlag x).lane k = s.lane k) ∧ (∀ e : Deck, (s.setFlag x).deck e = s.deck e) ∧
    (∀ q : Ramp, (s.setFlag x).ramp q = s.ramp q) ∧ (∀ q : Ramp, (s.setFlag x).plate q = s.plate q) ∧
    (∀ q : Ramp, (s.setFlag x).comp q = s.comp q) ∧ (∀ ref₀ : Ref, (s.setFlag x).unit? ref₀ = s.unit? ref₀) ∧
    (∀ ref₀ : Ref, (s.setFlag x).statusOf ref₀ = s.statusOf ref₀) ∧
    (∀ ref₀ : Ref, (s.setFlag x).lengthOf ref₀ = s.lengthOf ref₀) ∧ (s.setFlag x).profile = s.profile ∧
    (s.setFlag x).vessel = s.vessel ∧ (∀ l₀ : Lane, (s.setFlag x).laneFixed l₀ = s.laneFixed l₀) ∧
    (∀ r₀ : Ramp, (s.setFlag x).rampFixed r₀ = s.rampFixed r₀) ∧
    (∀ d₀ : Deck, (s.setFlag x).deckFixed d₀ = s.deckFixed d₀) ∧ (s.setFlag x).laneCount = s.laneCount ∧
    (s.setFlag x).laneNumbers = s.laneNumbers :=
  by
    exact ⟨rfl, rfl, rfl, rfl, rfl, rfl, rfl, rfl, rfl, rfl, rfl, rfl, rfl, rfl, rfl, fun _ => rfl, fun _ =>
      rfl, fun _ => rfl, fun _ => rfl, fun _ => rfl, fun _ => rfl, fun _ => rfl, fun _ => rfl, rfl, rfl, fun _
      => rfl, fun _ => rfl, fun _ => rfl, rfl, rfl⟩

@[simp] theorem State.clearFlag_frame (x : Subject) :
    (s.clearFlag x).pending = s.pending ∧ (s.clearFlag x).session = s.session ∧ (s.clearFlag x).units = s.units ∧
    (s.clearFlag x).checkIn = s.checkIn ∧ (s.clearFlag x).ageing = s.ageing ∧ (s.clearFlag x).lanes = s.lanes ∧
    (s.clearFlag x).decks = s.decks ∧ (s.clearFlag x).stb = s.stb ∧ (s.clearFlag x).alc = s.alc ∧
    (s.clearFlag x).csc = s.csc ∧ (s.clearFlag x).plates = s.plates ∧ (s.clearFlag x).comps = s.comps ∧
    (s.clearFlag x).hlm = s.hlm ∧ (s.clearFlag x).pst = s.pst ∧ (s.clearFlag x).freeCount = s.freeCount ∧
    (∀ k : Lane, (s.clearFlag x).lane k = s.lane k) ∧ (∀ e : Deck, (s.clearFlag x).deck e = s.deck e) ∧
    (∀ q : Ramp, (s.clearFlag x).ramp q = s.ramp q) ∧ (∀ q : Ramp, (s.clearFlag x).plate q = s.plate q) ∧
    (∀ q : Ramp, (s.clearFlag x).comp q = s.comp q) ∧ (∀ ref₀ : Ref, (s.clearFlag x).unit? ref₀ = s.unit? ref₀) ∧
    (∀ ref₀ : Ref, (s.clearFlag x).statusOf ref₀ = s.statusOf ref₀) ∧
    (∀ ref₀ : Ref, (s.clearFlag x).lengthOf ref₀ = s.lengthOf ref₀) ∧ (s.clearFlag x).profile = s.profile ∧
    (s.clearFlag x).vessel = s.vessel ∧ (∀ l₀ : Lane, (s.clearFlag x).laneFixed l₀ = s.laneFixed l₀) ∧
    (∀ r₀ : Ramp, (s.clearFlag x).rampFixed r₀ = s.rampFixed r₀) ∧
    (∀ d₀ : Deck, (s.clearFlag x).deckFixed d₀ = s.deckFixed d₀) ∧ (s.clearFlag x).laneCount = s.laneCount ∧
    (s.clearFlag x).laneNumbers = s.laneNumbers :=
  by
    exact ⟨rfl, rfl, rfl, rfl, rfl, rfl, rfl, rfl, rfl, rfl, rfl, rfl, rfl, rfl, rfl, fun _ => rfl, fun _ =>
      rfl, fun _ => rfl, fun _ => rfl, fun _ => rfl, fun _ => rfl, fun _ => rfl, fun _ => rfl, rfl, rfl, fun _
      => rfl, fun _ => rfl, fun _ => rfl, rfl, rfl⟩

@[simp] theorem State.setSticky_frame (x : Sticky) :
    (s.setSticky x).pending = s.pending ∧ (s.setSticky x).session = s.session ∧ (s.setSticky x).units = s.units ∧
    (s.setSticky x).checkIn = s.checkIn ∧ (s.setSticky x).ageing = s.ageing ∧ (s.setSticky x).lanes = s.lanes ∧
    (s.setSticky x).decks = s.decks ∧ (s.setSticky x).stb = s.stb ∧ (s.setSticky x).alc = s.alc ∧
    (s.setSticky x).csc = s.csc ∧ (s.setSticky x).plates = s.plates ∧ (s.setSticky x).comps = s.comps ∧
    (s.setSticky x).hlm = s.hlm ∧ (s.setSticky x).pst = s.pst ∧ (s.setSticky x).freeCount = s.freeCount ∧
    (∀ k : Lane, (s.setSticky x).lane k = s.lane k) ∧ (∀ e : Deck, (s.setSticky x).deck e = s.deck e) ∧
    (∀ q : Ramp, (s.setSticky x).ramp q = s.ramp q) ∧ (∀ q : Ramp, (s.setSticky x).plate q = s.plate q) ∧
    (∀ q : Ramp, (s.setSticky x).comp q = s.comp q) ∧ (∀ ref₀ : Ref, (s.setSticky x).unit? ref₀ = s.unit? ref₀) ∧
    (∀ ref₀ : Ref, (s.setSticky x).statusOf ref₀ = s.statusOf ref₀) ∧
    (∀ ref₀ : Ref, (s.setSticky x).lengthOf ref₀ = s.lengthOf ref₀) ∧ (s.setSticky x).profile = s.profile ∧
    (s.setSticky x).vessel = s.vessel ∧ (∀ l₀ : Lane, (s.setSticky x).laneFixed l₀ = s.laneFixed l₀) ∧
    (∀ r₀ : Ramp, (s.setSticky x).rampFixed r₀ = s.rampFixed r₀) ∧
    (∀ d₀ : Deck, (s.setSticky x).deckFixed d₀ = s.deckFixed d₀) ∧ (s.setSticky x).laneCount = s.laneCount ∧
    (s.setSticky x).laneNumbers = s.laneNumbers :=
  by
    exact ⟨rfl, rfl, rfl, rfl, rfl, rfl, rfl, rfl, rfl, rfl, rfl, rfl, rfl, rfl, rfl, fun _ => rfl, fun _ =>
      rfl, fun _ => rfl, fun _ => rfl, fun _ => rfl, fun _ => rfl, fun _ => rfl, fun _ => rfl, rfl, rfl, fun _
      => rfl, fun _ => rfl, fun _ => rfl, rfl, rfl⟩

@[simp] theorem State.notify_frame (n : Notice) :
    (s.notify n).pending = s.pending ∧ (s.notify n).session = s.session ∧ (s.notify n).units = s.units ∧
    (s.notify n).checkIn = s.checkIn ∧ (s.notify n).ageing = s.ageing ∧ (s.notify n).lanes = s.lanes ∧
    (s.notify n).decks = s.decks ∧ (s.notify n).stb = s.stb ∧ (s.notify n).alc = s.alc ∧ (s.notify n).csc = s.csc ∧
    (s.notify n).plates = s.plates ∧ (s.notify n).comps = s.comps ∧ (s.notify n).hlm = s.hlm ∧
    (s.notify n).pst = s.pst ∧ (s.notify n).freeCount = s.freeCount ∧
    (∀ k : Lane, (s.notify n).lane k = s.lane k) ∧ (∀ e : Deck, (s.notify n).deck e = s.deck e) ∧
    (∀ q : Ramp, (s.notify n).ramp q = s.ramp q) ∧ (∀ q : Ramp, (s.notify n).plate q = s.plate q) ∧
    (∀ q : Ramp, (s.notify n).comp q = s.comp q) ∧ (∀ ref₀ : Ref, (s.notify n).unit? ref₀ = s.unit? ref₀) ∧
    (∀ ref₀ : Ref, (s.notify n).statusOf ref₀ = s.statusOf ref₀) ∧
    (∀ ref₀ : Ref, (s.notify n).lengthOf ref₀ = s.lengthOf ref₀) ∧ (s.notify n).profile = s.profile ∧
    (s.notify n).vessel = s.vessel ∧ (∀ l₀ : Lane, (s.notify n).laneFixed l₀ = s.laneFixed l₀) ∧
    (∀ r₀ : Ramp, (s.notify n).rampFixed r₀ = s.rampFixed r₀) ∧
    (∀ d₀ : Deck, (s.notify n).deckFixed d₀ = s.deckFixed d₀) ∧ (s.notify n).laneCount = s.laneCount ∧
    (s.notify n).laneNumbers = s.laneNumbers :=
  by
    unfold State.notify; split <;> exact ⟨rfl, rfl, rfl, rfl, rfl, rfl, rfl, rfl, rfl, rfl, rfl, rfl, rfl, rfl, rfl, fun _ => rfl, fun _ =>
      rfl, fun _ => rfl, fun _ => rfl, fun _ => rfl, fun _ => rfl, fun _ => rfl, fun _ => rfl, rfl, rfl, fun _
      => rfl, fun _ => rfl, fun _ => rfl, rfl, rfl⟩

@[simp] theorem State.fill_frame (t : Ticket) (r : Reply) :
    (s.fill t r).pending = s.pending ∧ (s.fill t r).session = s.session ∧ (s.fill t r).units = s.units ∧
    (s.fill t r).checkIn = s.checkIn ∧ (s.fill t r).ageing = s.ageing ∧ (s.fill t r).lanes = s.lanes ∧
    (s.fill t r).decks = s.decks ∧ (s.fill t r).stb = s.stb ∧ (s.fill t r).alc = s.alc ∧ (s.fill t r).csc = s.csc ∧
    (s.fill t r).plates = s.plates ∧ (s.fill t r).comps = s.comps ∧ (s.fill t r).hlm = s.hlm ∧
    (s.fill t r).pst = s.pst ∧ (s.fill t r).freeCount = s.freeCount ∧
    (∀ k : Lane, (s.fill t r).lane k = s.lane k) ∧ (∀ e : Deck, (s.fill t r).deck e = s.deck e) ∧
    (∀ q : Ramp, (s.fill t r).ramp q = s.ramp q) ∧ (∀ q : Ramp, (s.fill t r).plate q = s.plate q) ∧
    (∀ q : Ramp, (s.fill t r).comp q = s.comp q) ∧ (∀ ref₀ : Ref, (s.fill t r).unit? ref₀ = s.unit? ref₀) ∧
    (∀ ref₀ : Ref, (s.fill t r).statusOf ref₀ = s.statusOf ref₀) ∧
    (∀ ref₀ : Ref, (s.fill t r).lengthOf ref₀ = s.lengthOf ref₀) ∧ (s.fill t r).profile = s.profile ∧
    (s.fill t r).vessel = s.vessel ∧ (∀ l₀ : Lane, (s.fill t r).laneFixed l₀ = s.laneFixed l₀) ∧
    (∀ r₀ : Ramp, (s.fill t r).rampFixed r₀ = s.rampFixed r₀) ∧
    (∀ d₀ : Deck, (s.fill t r).deckFixed d₀ = s.deckFixed d₀) ∧ (s.fill t r).laneCount = s.laneCount ∧
    (s.fill t r).laneNumbers = s.laneNumbers :=
  by
    exact ⟨rfl, rfl, rfl, rfl, rfl, rfl, rfl, rfl, rfl, rfl, rfl, rfl, rfl, rfl, rfl, fun _ => rfl, fun _ =>
      rfl, fun _ => rfl, fun _ => rfl, fun _ => rfl, fun _ => rfl, fun _ => rfl, fun _ => rfl, rfl, rfl, fun _
      => rfl, fun _ => rfl, fun _ => rfl, rfl, rfl⟩

@[simp] theorem State.refuse_frame (t : Ticket) (r : Result) :
    (s.refuse t r).pending = s.pending ∧ (s.refuse t r).session = s.session ∧ (s.refuse t r).units = s.units ∧
    (s.refuse t r).checkIn = s.checkIn ∧ (s.refuse t r).ageing = s.ageing ∧ (s.refuse t r).lanes = s.lanes ∧
    (s.refuse t r).decks = s.decks ∧ (s.refuse t r).stb = s.stb ∧ (s.refuse t r).alc = s.alc ∧
    (s.refuse t r).csc = s.csc ∧ (s.refuse t r).plates = s.plates ∧ (s.refuse t r).comps = s.comps ∧
    (s.refuse t r).hlm = s.hlm ∧ (s.refuse t r).pst = s.pst ∧ (s.refuse t r).freeCount = s.freeCount ∧
    (∀ k : Lane, (s.refuse t r).lane k = s.lane k) ∧ (∀ e : Deck, (s.refuse t r).deck e = s.deck e) ∧
    (∀ q : Ramp, (s.refuse t r).ramp q = s.ramp q) ∧ (∀ q : Ramp, (s.refuse t r).plate q = s.plate q) ∧
    (∀ q : Ramp, (s.refuse t r).comp q = s.comp q) ∧ (∀ ref₀ : Ref, (s.refuse t r).unit? ref₀ = s.unit? ref₀) ∧
    (∀ ref₀ : Ref, (s.refuse t r).statusOf ref₀ = s.statusOf ref₀) ∧
    (∀ ref₀ : Ref, (s.refuse t r).lengthOf ref₀ = s.lengthOf ref₀) ∧ (s.refuse t r).profile = s.profile ∧
    (s.refuse t r).vessel = s.vessel ∧ (∀ l₀ : Lane, (s.refuse t r).laneFixed l₀ = s.laneFixed l₀) ∧
    (∀ r₀ : Ramp, (s.refuse t r).rampFixed r₀ = s.rampFixed r₀) ∧
    (∀ d₀ : Deck, (s.refuse t r).deckFixed d₀ = s.deckFixed d₀) ∧ (s.refuse t r).laneCount = s.laneCount ∧
    (s.refuse t r).laneNumbers = s.laneNumbers :=
  by
    exact ⟨rfl, rfl, rfl, rfl, rfl, rfl, rfl, rfl, rfl, rfl, rfl, rfl, rfl, rfl, rfl, fun _ => rfl, fun _ =>
      rfl, fun _ => rfl, fun _ => rfl, fun _ => rfl, fun _ => rfl, fun _ => rfl, fun _ => rfl, rfl, rfl, fun _
      => rfl, fun _ => rfl, fun _ => rfl, rfl, rfl⟩

@[simp] theorem State.setWarning_frame (d : Deck) (w : Bool) :
    (s.setWarning d w).pending = s.pending ∧ (s.setWarning d w).session = s.session ∧
    (s.setWarning d w).units = s.units ∧ (s.setWarning d w).checkIn = s.checkIn ∧
    (s.setWarning d w).ageing = s.ageing ∧ (s.setWarning d w).lanes = s.lanes ∧ (s.setWarning d w).stb = s.stb ∧
    (s.setWarning d w).alc = s.alc ∧ (s.setWarning d w).csc = s.csc ∧ (s.setWarning d w).plates = s.plates ∧
    (s.setWarning d w).comps = s.comps ∧ (s.setWarning d w).hlm = s.hlm ∧ (s.setWarning d w).pst = s.pst ∧
    (s.setWarning d w).freeCount = s.freeCount ∧ (∀ k : Lane, (s.setWarning d w).lane k = s.lane k) ∧
    (∀ q : Ramp, (s.setWarning d w).ramp q = s.ramp q) ∧ (∀ q : Ramp, (s.setWarning d w).plate q = s.plate q) ∧
    (∀ q : Ramp, (s.setWarning d w).comp q = s.comp q) ∧
    (∀ ref₀ : Ref, (s.setWarning d w).unit? ref₀ = s.unit? ref₀) ∧
    (∀ ref₀ : Ref, (s.setWarning d w).statusOf ref₀ = s.statusOf ref₀) ∧
    (∀ ref₀ : Ref, (s.setWarning d w).lengthOf ref₀ = s.lengthOf ref₀) ∧ (s.setWarning d w).profile = s.profile ∧
    (s.setWarning d w).vessel = s.vessel ∧ (∀ l₀ : Lane, (s.setWarning d w).laneFixed l₀ = s.laneFixed l₀) ∧
    (∀ r₀ : Ramp, (s.setWarning d w).rampFixed r₀ = s.rampFixed r₀) ∧
    (∀ d₀ : Deck, (s.setWarning d w).deckFixed d₀ = s.deckFixed d₀) ∧ (s.setWarning d w).laneCount = s.laneCount ∧
    (s.setWarning d w).laneNumbers = s.laneNumbers :=
  by
    unfold State.setWarning; split <;> exact ⟨rfl, rfl, rfl, rfl, rfl, rfl, rfl, rfl, rfl, rfl, rfl, rfl, rfl, rfl, fun _ => rfl, fun _ => rfl,
      fun _ => rfl, fun _ => rfl, fun _ => rfl, fun _ => rfl, fun _ => rfl, rfl, rfl, fun _ => rfl, fun _ =>
      rfl, fun _ => rfl, rfl, rfl⟩

@[simp] theorem State.examineWarning_frame (d : Deck) :
    (s.examineWarning d).pending = s.pending ∧ (s.examineWarning d).session = s.session ∧
    (s.examineWarning d).units = s.units ∧ (s.examineWarning d).checkIn = s.checkIn ∧
    (s.examineWarning d).ageing = s.ageing ∧ (s.examineWarning d).lanes = s.lanes ∧
    (s.examineWarning d).stb = s.stb ∧ (s.examineWarning d).alc = s.alc ∧ (s.examineWarning d).csc = s.csc ∧
    (s.examineWarning d).plates = s.plates ∧ (s.examineWarning d).comps = s.comps ∧
    (s.examineWarning d).hlm = s.hlm ∧ (s.examineWarning d).pst = s.pst ∧
    (s.examineWarning d).freeCount = s.freeCount ∧ (∀ k : Lane, (s.examineWarning d).lane k = s.lane k) ∧
    (∀ q : Ramp, (s.examineWarning d).ramp q = s.ramp q) ∧ (∀ q : Ramp, (s.examineWarning d).plate q = s.plate q) ∧
    (∀ q : Ramp, (s.examineWarning d).comp q = s.comp q) ∧
    (∀ ref₀ : Ref, (s.examineWarning d).unit? ref₀ = s.unit? ref₀) ∧
    (∀ ref₀ : Ref, (s.examineWarning d).statusOf ref₀ = s.statusOf ref₀) ∧
    (∀ ref₀ : Ref, (s.examineWarning d).lengthOf ref₀ = s.lengthOf ref₀) ∧
    (s.examineWarning d).profile = s.profile ∧ (s.examineWarning d).vessel = s.vessel ∧
    (∀ l₀ : Lane, (s.examineWarning d).laneFixed l₀ = s.laneFixed l₀) ∧
    (∀ r₀ : Ramp, (s.examineWarning d).rampFixed r₀ = s.rampFixed r₀) ∧
    (∀ d₀ : Deck, (s.examineWarning d).deckFixed d₀ = s.deckFixed d₀) ∧
    (s.examineWarning d).laneCount = s.laneCount ∧ (s.examineWarning d).laneNumbers = s.laneNumbers :=
  by
    unfold State.examineWarning; simp

@[simp] theorem State.setGate_frame (r : Ramp) (g : Bool) :
    (s.setGate r g).pending = s.pending ∧ (s.setGate r g).session = s.session ∧ (s.setGate r g).units = s.units ∧
    (s.setGate r g).checkIn = s.checkIn ∧ (s.setGate r g).ageing = s.ageing ∧ (s.setGate r g).lanes = s.lanes ∧
    (s.setGate r g).decks = s.decks ∧ (s.setGate r g).stb = s.stb ∧ (s.setGate r g).alc = s.alc ∧
    (s.setGate r g).plates = s.plates ∧ (s.setGate r g).comps = s.comps ∧ (s.setGate r g).hlm = s.hlm ∧
    (s.setGate r g).pst = s.pst ∧ (s.setGate r g).freeCount = s.freeCount ∧
    (∀ k : Lane, (s.setGate r g).lane k = s.lane k) ∧ (∀ e : Deck, (s.setGate r g).deck e = s.deck e) ∧
    (∀ q : Ramp, (s.setGate r g).plate q = s.plate q) ∧ (∀ q : Ramp, (s.setGate r g).comp q = s.comp q) ∧
    (∀ ref₀ : Ref, (s.setGate r g).unit? ref₀ = s.unit? ref₀) ∧
    (∀ ref₀ : Ref, (s.setGate r g).statusOf ref₀ = s.statusOf ref₀) ∧
    (∀ ref₀ : Ref, (s.setGate r g).lengthOf ref₀ = s.lengthOf ref₀) ∧ (s.setGate r g).profile = s.profile ∧
    (s.setGate r g).vessel = s.vessel ∧ (∀ l₀ : Lane, (s.setGate r g).laneFixed l₀ = s.laneFixed l₀) ∧
    (∀ r₀ : Ramp, (s.setGate r g).rampFixed r₀ = s.rampFixed r₀) ∧
    (∀ d₀ : Deck, (s.setGate r g).deckFixed d₀ = s.deckFixed d₀) ∧ (s.setGate r g).laneCount = s.laneCount ∧
    (s.setGate r g).laneNumbers = s.laneNumbers :=
  by
    unfold State.setGate; split <;> exact ⟨rfl, rfl, rfl, rfl, rfl, rfl, rfl, rfl, rfl, rfl, rfl, rfl, rfl, rfl, fun _ => rfl, fun _ => rfl,
      fun _ => rfl, fun _ => rfl, fun _ => rfl, fun _ => rfl, fun _ => rfl, rfl, rfl, fun _ => rfl, fun _ =>
      rfl, fun _ => rfl, rfl, rfl⟩

@[simp] theorem State.examineGate_frame (r : Ramp) :
    (s.examineGate r).pending = s.pending ∧ (s.examineGate r).session = s.session ∧
    (s.examineGate r).units = s.units ∧ (s.examineGate r).checkIn = s.checkIn ∧
    (s.examineGate r).ageing = s.ageing ∧ (s.examineGate r).lanes = s.lanes ∧ (s.examineGate r).decks = s.decks ∧
    (s.examineGate r).stb = s.stb ∧ (s.examineGate r).alc = s.alc ∧ (s.examineGate r).plates = s.plates ∧
    (s.examineGate r).comps = s.comps ∧ (s.examineGate r).hlm = s.hlm ∧ (s.examineGate r).pst = s.pst ∧
    (s.examineGate r).freeCount = s.freeCount ∧ (∀ k : Lane, (s.examineGate r).lane k = s.lane k) ∧
    (∀ e : Deck, (s.examineGate r).deck e = s.deck e) ∧ (∀ q : Ramp, (s.examineGate r).plate q = s.plate q) ∧
    (∀ q : Ramp, (s.examineGate r).comp q = s.comp q) ∧
    (∀ ref₀ : Ref, (s.examineGate r).unit? ref₀ = s.unit? ref₀) ∧
    (∀ ref₀ : Ref, (s.examineGate r).statusOf ref₀ = s.statusOf ref₀) ∧
    (∀ ref₀ : Ref, (s.examineGate r).lengthOf ref₀ = s.lengthOf ref₀) ∧ (s.examineGate r).profile = s.profile ∧
    (s.examineGate r).vessel = s.vessel ∧ (∀ l₀ : Lane, (s.examineGate r).laneFixed l₀ = s.laneFixed l₀) ∧
    (∀ r₀ : Ramp, (s.examineGate r).rampFixed r₀ = s.rampFixed r₀) ∧
    (∀ d₀ : Deck, (s.examineGate r).deckFixed d₀ = s.deckFixed d₀) ∧ (s.examineGate r).laneCount = s.laneCount ∧
    (s.examineGate r).laneNumbers = s.laneNumbers :=
  by
    unfold State.examineGate; simp

@[simp] theorem State.setRampState_frame (r : Ramp) (x : RampState) :
    (s.setRampState r x).pending = s.pending ∧ (s.setRampState r x).session = s.session ∧
    (s.setRampState r x).units = s.units ∧ (s.setRampState r x).checkIn = s.checkIn ∧
    (s.setRampState r x).ageing = s.ageing ∧ (s.setRampState r x).lanes = s.lanes ∧
    (s.setRampState r x).decks = s.decks ∧ (s.setRampState r x).stb = s.stb ∧ (s.setRampState r x).alc = s.alc ∧
    (s.setRampState r x).plates = s.plates ∧ (s.setRampState r x).comps = s.comps ∧
    (s.setRampState r x).hlm = s.hlm ∧ (s.setRampState r x).pst = s.pst ∧
    (s.setRampState r x).freeCount = s.freeCount ∧ (∀ k : Lane, (s.setRampState r x).lane k = s.lane k) ∧
    (∀ e : Deck, (s.setRampState r x).deck e = s.deck e) ∧ (∀ q : Ramp, (s.setRampState r x).plate q = s.plate q) ∧
    (∀ q : Ramp, (s.setRampState r x).comp q = s.comp q) ∧
    (∀ ref₀ : Ref, (s.setRampState r x).unit? ref₀ = s.unit? ref₀) ∧
    (∀ ref₀ : Ref, (s.setRampState r x).statusOf ref₀ = s.statusOf ref₀) ∧
    (∀ ref₀ : Ref, (s.setRampState r x).lengthOf ref₀ = s.lengthOf ref₀) ∧
    (s.setRampState r x).profile = s.profile ∧ (s.setRampState r x).vessel = s.vessel ∧
    (∀ l₀ : Lane, (s.setRampState r x).laneFixed l₀ = s.laneFixed l₀) ∧
    (∀ r₀ : Ramp, (s.setRampState r x).rampFixed r₀ = s.rampFixed r₀) ∧
    (∀ d₀ : Deck, (s.setRampState r x).deckFixed d₀ = s.deckFixed d₀) ∧
    (s.setRampState r x).laneCount = s.laneCount ∧ (s.setRampState r x).laneNumbers = s.laneNumbers :=
  by
    unfold State.setRampState; split <;> exact ⟨rfl, rfl, rfl, rfl, rfl, rfl, rfl, rfl, rfl, rfl, rfl, rfl, rfl, rfl, fun _ => rfl, fun _ => rfl,
      fun _ => rfl, fun _ => rfl, fun _ => rfl, fun _ => rfl, fun _ => rfl, rfl, rfl, fun _ => rfl, fun _ =>
      rfl, fun _ => rfl, rfl, rfl⟩

@[simp] theorem State.setHeelHold_frame (h : Bool) :
    (s.setHeelHold h).pending = s.pending ∧ (s.setHeelHold h).session = s.session ∧
    (s.setHeelHold h).units = s.units ∧ (s.setHeelHold h).checkIn = s.checkIn ∧
    (s.setHeelHold h).ageing = s.ageing ∧ (s.setHeelHold h).lanes = s.lanes ∧ (s.setHeelHold h).decks = s.decks ∧
    (s.setHeelHold h).stb = s.stb ∧ (s.setHeelHold h).alc = s.alc ∧ (s.setHeelHold h).csc = s.csc ∧
    (s.setHeelHold h).plates = s.plates ∧ (s.setHeelHold h).comps = s.comps ∧ (s.setHeelHold h).pst = s.pst ∧
    (s.setHeelHold h).freeCount = s.freeCount ∧ (∀ k : Lane, (s.setHeelHold h).lane k = s.lane k) ∧
    (∀ e : Deck, (s.setHeelHold h).deck e = s.deck e) ∧ (∀ q : Ramp, (s.setHeelHold h).ramp q = s.ramp q) ∧
    (∀ q : Ramp, (s.setHeelHold h).plate q = s.plate q) ∧ (∀ q : Ramp, (s.setHeelHold h).comp q = s.comp q) ∧
    (∀ ref₀ : Ref, (s.setHeelHold h).unit? ref₀ = s.unit? ref₀) ∧
    (∀ ref₀ : Ref, (s.setHeelHold h).statusOf ref₀ = s.statusOf ref₀) ∧
    (∀ ref₀ : Ref, (s.setHeelHold h).lengthOf ref₀ = s.lengthOf ref₀) ∧ (s.setHeelHold h).profile = s.profile ∧
    (s.setHeelHold h).vessel = s.vessel ∧ (∀ l₀ : Lane, (s.setHeelHold h).laneFixed l₀ = s.laneFixed l₀) ∧
    (∀ r₀ : Ramp, (s.setHeelHold h).rampFixed r₀ = s.rampFixed r₀) ∧
    (∀ d₀ : Deck, (s.setHeelHold h).deckFixed d₀ = s.deckFixed d₀) ∧ (s.setHeelHold h).laneCount = s.laneCount ∧
    (s.setHeelHold h).laneNumbers = s.laneNumbers :=
  by
    unfold State.setHeelHold; split <;> (try split) <;> exact ⟨rfl, rfl, rfl, rfl, rfl, rfl, rfl, rfl, rfl, rfl, rfl, rfl, rfl, rfl, fun _ => rfl, fun _ => rfl,
      fun _ => rfl, fun _ => rfl, fun _ => rfl, fun _ => rfl, fun _ => rfl, fun _ => rfl, rfl, rfl, fun _ =>
      rfl, fun _ => rfl, fun _ => rfl, rfl, rfl⟩

@[simp] theorem State.sampleGradient_frame (r : Ramp) (g : Nat) :
    (s.sampleGradient r g).pending = s.pending ∧ (s.sampleGradient r g).session = s.session ∧
    (s.sampleGradient r g).units = s.units ∧ (s.sampleGradient r g).checkIn = s.checkIn ∧
    (s.sampleGradient r g).ageing = s.ageing ∧ (s.sampleGradient r g).lanes = s.lanes ∧
    (s.sampleGradient r g).decks = s.decks ∧ (s.sampleGradient r g).stb = s.stb ∧
    (s.sampleGradient r g).alc = s.alc ∧ (s.sampleGradient r g).csc = s.csc ∧
    (s.sampleGradient r g).plates = s.plates ∧ (s.sampleGradient r g).hlm = s.hlm ∧
    (s.sampleGradient r g).pst = s.pst ∧ (s.sampleGradient r g).freeCount = s.freeCount ∧
    (∀ k : Lane, (s.sampleGradient r g).lane k = s.lane k) ∧
    (∀ e : Deck, (s.sampleGradient r g).deck e = s.deck e) ∧
    (∀ q : Ramp, (s.sampleGradient r g).ramp q = s.ramp q) ∧
    (∀ q : Ramp, (s.sampleGradient r g).plate q = s.plate q) ∧
    (∀ ref₀ : Ref, (s.sampleGradient r g).unit? ref₀ = s.unit? ref₀) ∧
    (∀ ref₀ : Ref, (s.sampleGradient r g).statusOf ref₀ = s.statusOf ref₀) ∧
    (∀ ref₀ : Ref, (s.sampleGradient r g).lengthOf ref₀ = s.lengthOf ref₀) ∧
    (s.sampleGradient r g).profile = s.profile ∧ (s.sampleGradient r g).vessel = s.vessel ∧
    (∀ l₀ : Lane, (s.sampleGradient r g).laneFixed l₀ = s.laneFixed l₀) ∧
    (∀ r₀ : Ramp, (s.sampleGradient r g).rampFixed r₀ = s.rampFixed r₀) ∧
    (∀ d₀ : Deck, (s.sampleGradient r g).deckFixed d₀ = s.deckFixed d₀) ∧
    (s.sampleGradient r g).laneCount = s.laneCount ∧ (s.sampleGradient r g).laneNumbers = s.laneNumbers :=
  by
    unfold State.sampleGradient; dsimp only; split <;> exact ⟨rfl, rfl, rfl, rfl, rfl, rfl, rfl, rfl, rfl, rfl, rfl, rfl, rfl, rfl, fun _ => rfl, fun _ => rfl,
      fun _ => rfl, fun _ => rfl, fun _ => rfl, fun _ => rfl, fun _ => rfl, rfl, rfl, fun _ => rfl, fun _ =>
      rfl, fun _ => rfl, rfl, rfl⟩

@[simp] theorem State.startTx_frame :
    (s.startTx).pending = s.pending ∧ (s.startTx).session = s.session ∧ (s.startTx).units = s.units ∧
    (s.startTx).checkIn = s.checkIn ∧ (s.startTx).ageing = s.ageing ∧ (s.startTx).lanes = s.lanes ∧
    (s.startTx).decks = s.decks ∧ (s.startTx).stb = s.stb ∧ (s.startTx).alc = s.alc ∧ (s.startTx).csc = s.csc ∧
    (s.startTx).plates = s.plates ∧ (s.startTx).comps = s.comps ∧ (s.startTx).hlm = s.hlm ∧
    (s.startTx).pst = s.pst ∧ (s.startTx).freeCount = s.freeCount ∧ (∀ k : Lane, (s.startTx).lane k = s.lane k) ∧
    (∀ e : Deck, (s.startTx).deck e = s.deck e) ∧ (∀ q : Ramp, (s.startTx).ramp q = s.ramp q) ∧
    (∀ q : Ramp, (s.startTx).plate q = s.plate q) ∧ (∀ q : Ramp, (s.startTx).comp q = s.comp q) ∧
    (∀ ref₀ : Ref, (s.startTx).unit? ref₀ = s.unit? ref₀) ∧
    (∀ ref₀ : Ref, (s.startTx).statusOf ref₀ = s.statusOf ref₀) ∧
    (∀ ref₀ : Ref, (s.startTx).lengthOf ref₀ = s.lengthOf ref₀) ∧ (s.startTx).profile = s.profile ∧
    (s.startTx).vessel = s.vessel ∧ (∀ l₀ : Lane, (s.startTx).laneFixed l₀ = s.laneFixed l₀) ∧
    (∀ r₀ : Ramp, (s.startTx).rampFixed r₀ = s.rampFixed r₀) ∧
    (∀ d₀ : Deck, (s.startTx).deckFixed d₀ = s.deckFixed d₀) ∧ (s.startTx).laneCount = s.laneCount ∧
    (s.startTx).laneNumbers = s.laneNumbers :=
  by
    unfold State.startTx; (repeat' split) <;> exact ⟨rfl, rfl, rfl, rfl, rfl, rfl, rfl, rfl, rfl, rfl, rfl, rfl, rfl, rfl, rfl, fun _ => rfl, fun _ =>
      rfl, fun _ => rfl, fun _ => rfl, fun _ => rfl, fun _ => rfl, fun _ => rfl, fun _ => rfl, rfl, rfl, fun _
      => rfl, fun _ => rfl, fun _ => rfl, rfl, rfl⟩

@[simp] theorem State.endTx_frame :
    (s.endTx).pending = s.pending ∧ (s.endTx).session = s.session ∧ (s.endTx).units = s.units ∧
    (s.endTx).checkIn = s.checkIn ∧ (s.endTx).ageing = s.ageing ∧ (s.endTx).lanes = s.lanes ∧
    (s.endTx).decks = s.decks ∧ (s.endTx).stb = s.stb ∧ (s.endTx).alc = s.alc ∧ (s.endTx).csc = s.csc ∧
    (s.endTx).plates = s.plates ∧ (s.endTx).comps = s.comps ∧ (s.endTx).hlm = s.hlm ∧ (s.endTx).pst = s.pst ∧
    (s.endTx).freeCount = s.freeCount ∧ (∀ k : Lane, (s.endTx).lane k = s.lane k) ∧
    (∀ e : Deck, (s.endTx).deck e = s.deck e) ∧ (∀ q : Ramp, (s.endTx).ramp q = s.ramp q) ∧
    (∀ q : Ramp, (s.endTx).plate q = s.plate q) ∧ (∀ q : Ramp, (s.endTx).comp q = s.comp q) ∧
    (∀ ref₀ : Ref, (s.endTx).unit? ref₀ = s.unit? ref₀) ∧
    (∀ ref₀ : Ref, (s.endTx).statusOf ref₀ = s.statusOf ref₀) ∧
    (∀ ref₀ : Ref, (s.endTx).lengthOf ref₀ = s.lengthOf ref₀) ∧ (s.endTx).profile = s.profile ∧
    (s.endTx).vessel = s.vessel ∧ (∀ l₀ : Lane, (s.endTx).laneFixed l₀ = s.laneFixed l₀) ∧
    (∀ r₀ : Ramp, (s.endTx).rampFixed r₀ = s.rampFixed r₀) ∧
    (∀ d₀ : Deck, (s.endTx).deckFixed d₀ = s.deckFixed d₀) ∧ (s.endTx).laneCount = s.laneCount ∧
    (s.endTx).laneNumbers = s.laneNumbers :=
  by
    exact ⟨rfl, rfl, rfl, rfl, rfl, rfl, rfl, rfl, rfl, rfl, rfl, rfl, rfl, rfl, rfl, fun _ => rfl, fun _ =>
      rfl, fun _ => rfl, fun _ => rfl, fun _ => rfl, fun _ => rfl, fun _ => rfl, fun _ => rfl, rfl, rfl, fun _
      => rfl, fun _ => rfl, fun _ => rfl, rfl, rfl⟩

@[simp] theorem State.addUnit_frame (v : UnitRecord) :
    (s.addUnit v).pending = s.pending ∧ (s.addUnit v).session = s.session ∧ (s.addUnit v).link = s.link ∧
    (s.addUnit v).checkIn = s.checkIn ∧ (s.addUnit v).ageing = s.ageing ∧ (s.addUnit v).lanes = s.lanes ∧
    (s.addUnit v).decks = s.decks ∧ (s.addUnit v).stb = s.stb ∧ (s.addUnit v).alc = s.alc ∧
    (s.addUnit v).csc = s.csc ∧ (s.addUnit v).plates = s.plates ∧ (s.addUnit v).comps = s.comps ∧
    (s.addUnit v).hlm = s.hlm ∧ (s.addUnit v).pst = s.pst ∧ (s.addUnit v).freeCount = s.freeCount ∧
    (∀ k : Lane, (s.addUnit v).lane k = s.lane k) ∧ (∀ e : Deck, (s.addUnit v).deck e = s.deck e) ∧
    (∀ q : Ramp, (s.addUnit v).ramp q = s.ramp q) ∧ (∀ q : Ramp, (s.addUnit v).plate q = s.plate q) ∧
    (∀ q : Ramp, (s.addUnit v).comp q = s.comp q) ∧ (s.addUnit v).profile = s.profile ∧
    (s.addUnit v).vessel = s.vessel ∧ (∀ l₀ : Lane, (s.addUnit v).laneFixed l₀ = s.laneFixed l₀) ∧
    (∀ r₀ : Ramp, (s.addUnit v).rampFixed r₀ = s.rampFixed r₀) ∧
    (∀ d₀ : Deck, (s.addUnit v).deckFixed d₀ = s.deckFixed d₀) ∧ (s.addUnit v).laneCount = s.laneCount ∧
    (s.addUnit v).laneNumbers = s.laneNumbers :=
  by
    exact ⟨rfl, rfl, rfl, rfl, rfl, rfl, rfl, rfl, rfl, rfl, rfl, rfl, rfl, rfl, rfl, fun _ => rfl, fun _ =>
      rfl, fun _ => rfl, fun _ => rfl, fun _ => rfl, rfl, rfl, fun _ => rfl, fun _ => rfl, fun _ => rfl, rfl,
      rfl⟩

@[simp] theorem State.modUnit_frame (ref : Ref) (f : UnitRecord → UnitRecord) :
    (s.modUnit ref f).pending = s.pending ∧ (s.modUnit ref f).session = s.session ∧
    (s.modUnit ref f).link = s.link ∧ (s.modUnit ref f).checkIn = s.checkIn ∧ (s.modUnit ref f).ageing = s.ageing ∧
    (s.modUnit ref f).lanes = s.lanes ∧ (s.modUnit ref f).decks = s.decks ∧ (s.modUnit ref f).stb = s.stb ∧
    (s.modUnit ref f).alc = s.alc ∧ (s.modUnit ref f).csc = s.csc ∧ (s.modUnit ref f).plates = s.plates ∧
    (s.modUnit ref f).comps = s.comps ∧ (s.modUnit ref f).hlm = s.hlm ∧ (s.modUnit ref f).pst = s.pst ∧
    (s.modUnit ref f).freeCount = s.freeCount ∧ (∀ k : Lane, (s.modUnit ref f).lane k = s.lane k) ∧
    (∀ e : Deck, (s.modUnit ref f).deck e = s.deck e) ∧ (∀ q : Ramp, (s.modUnit ref f).ramp q = s.ramp q) ∧
    (∀ q : Ramp, (s.modUnit ref f).plate q = s.plate q) ∧ (∀ q : Ramp, (s.modUnit ref f).comp q = s.comp q) ∧
    (s.modUnit ref f).profile = s.profile ∧ (s.modUnit ref f).vessel = s.vessel ∧
    (∀ l₀ : Lane, (s.modUnit ref f).laneFixed l₀ = s.laneFixed l₀) ∧
    (∀ r₀ : Ramp, (s.modUnit ref f).rampFixed r₀ = s.rampFixed r₀) ∧
    (∀ d₀ : Deck, (s.modUnit ref f).deckFixed d₀ = s.deckFixed d₀) ∧ (s.modUnit ref f).laneCount = s.laneCount ∧
    (s.modUnit ref f).laneNumbers = s.laneNumbers :=
  by
    exact ⟨rfl, rfl, rfl, rfl, rfl, rfl, rfl, rfl, rfl, rfl, rfl, rfl, rfl, rfl, rfl, fun _ => rfl, fun _ =>
      rfl, fun _ => rfl, fun _ => rfl, fun _ => rfl, rfl, rfl, fun _ => rfl, fun _ => rfl, fun _ => rfl, rfl,
      rfl⟩

@[simp] theorem State.setStatus_frame (ref : Ref) (x : Status) :
    (s.setStatus ref x).pending = s.pending ∧ (s.setStatus ref x).session = s.session ∧
    (s.setStatus ref x).link = s.link ∧ (s.setStatus ref x).checkIn = s.checkIn ∧
    (s.setStatus ref x).ageing = s.ageing ∧ (s.setStatus ref x).lanes = s.lanes ∧
    (s.setStatus ref x).decks = s.decks ∧ (s.setStatus ref x).stb = s.stb ∧ (s.setStatus ref x).alc = s.alc ∧
    (s.setStatus ref x).csc = s.csc ∧ (s.setStatus ref x).plates = s.plates ∧ (s.setStatus ref x).comps = s.comps ∧
    (s.setStatus ref x).hlm = s.hlm ∧ (s.setStatus ref x).pst = s.pst ∧
    (s.setStatus ref x).freeCount = s.freeCount ∧ (∀ k : Lane, (s.setStatus ref x).lane k = s.lane k) ∧
    (∀ e : Deck, (s.setStatus ref x).deck e = s.deck e) ∧ (∀ q : Ramp, (s.setStatus ref x).ramp q = s.ramp q) ∧
    (∀ q : Ramp, (s.setStatus ref x).plate q = s.plate q) ∧ (∀ q : Ramp, (s.setStatus ref x).comp q = s.comp q) ∧
    (s.setStatus ref x).profile = s.profile ∧ (s.setStatus ref x).vessel = s.vessel ∧
    (∀ l₀ : Lane, (s.setStatus ref x).laneFixed l₀ = s.laneFixed l₀) ∧
    (∀ r₀ : Ramp, (s.setStatus ref x).rampFixed r₀ = s.rampFixed r₀) ∧
    (∀ d₀ : Deck, (s.setStatus ref x).deckFixed d₀ = s.deckFixed d₀) ∧
    (s.setStatus ref x).laneCount = s.laneCount ∧ (s.setStatus ref x).laneNumbers = s.laneNumbers :=
  by
    exact ⟨rfl, rfl, rfl, rfl, rfl, rfl, rfl, rfl, rfl, rfl, rfl, rfl, rfl, rfl, rfl, fun _ => rfl, fun _ =>
      rfl, fun _ => rfl, fun _ => rfl, fun _ => rfl, rfl, rfl, fun _ => rfl, fun _ => rfl, fun _ => rfl, rfl,
      rfl⟩

@[simp] theorem State.retire_frame (ref : Ref) :
    (s.retire ref).pending = s.pending ∧ (s.retire ref).session = s.session ∧ (s.retire ref).link = s.link ∧
    (s.retire ref).ageing = s.ageing ∧ (s.retire ref).lanes = s.lanes ∧ (s.retire ref).decks = s.decks ∧
    (s.retire ref).stb = s.stb ∧ (s.retire ref).alc = s.alc ∧ (s.retire ref).csc = s.csc ∧
    (s.retire ref).plates = s.plates ∧ (s.retire ref).comps = s.comps ∧ (s.retire ref).hlm = s.hlm ∧
    (s.retire ref).pst = s.pst ∧ (s.retire ref).freeCount = s.freeCount ∧
    (∀ k : Lane, (s.retire ref).lane k = s.lane k) ∧ (∀ e : Deck, (s.retire ref).deck e = s.deck e) ∧
    (∀ q : Ramp, (s.retire ref).ramp q = s.ramp q) ∧ (∀ q : Ramp, (s.retire ref).plate q = s.plate q) ∧
    (∀ q : Ramp, (s.retire ref).comp q = s.comp q) ∧ (s.retire ref).profile = s.profile ∧
    (s.retire ref).vessel = s.vessel ∧ (∀ l₀ : Lane, (s.retire ref).laneFixed l₀ = s.laneFixed l₀) ∧
    (∀ r₀ : Ramp, (s.retire ref).rampFixed r₀ = s.rampFixed r₀) ∧
    (∀ d₀ : Deck, (s.retire ref).deckFixed d₀ = s.deckFixed d₀) ∧ (s.retire ref).laneCount = s.laneCount ∧
    (s.retire ref).laneNumbers = s.laneNumbers :=
  by
    exact ⟨rfl, rfl, rfl, rfl, rfl, rfl, rfl, rfl, rfl, rfl, rfl, rfl, rfl, rfl, fun _ => rfl, fun _ => rfl,
      fun _ => rfl, fun _ => rfl, fun _ => rfl, rfl, rfl, fun _ => rfl, fun _ => rfl, fun _ => rfl, rfl, rfl⟩

@[simp] theorem State.handItem_frame (x : Item) :
    (s.handItem x).pending = s.pending ∧ (s.handItem x).session = s.session ∧ (s.handItem x).link = s.link ∧
    (s.handItem x).units = s.units ∧ (s.handItem x).checkIn = s.checkIn ∧ (s.handItem x).ageing = s.ageing ∧
    (s.handItem x).lanes = s.lanes ∧ (s.handItem x).decks = s.decks ∧ (s.handItem x).stb = s.stb ∧
    (s.handItem x).csc = s.csc ∧ (s.handItem x).plates = s.plates ∧ (s.handItem x).comps = s.comps ∧
    (s.handItem x).hlm = s.hlm ∧ (s.handItem x).pst = s.pst ∧ (s.handItem x).freeCount = s.freeCount ∧
    (∀ k : Lane, (s.handItem x).lane k = s.lane k) ∧ (∀ e : Deck, (s.handItem x).deck e = s.deck e) ∧
    (∀ q : Ramp, (s.handItem x).ramp q = s.ramp q) ∧ (∀ q : Ramp, (s.handItem x).plate q = s.plate q) ∧
    (∀ q : Ramp, (s.handItem x).comp q = s.comp q) ∧ (∀ ref₀ : Ref, (s.handItem x).unit? ref₀ = s.unit? ref₀) ∧
    (∀ ref₀ : Ref, (s.handItem x).statusOf ref₀ = s.statusOf ref₀) ∧
    (∀ ref₀ : Ref, (s.handItem x).lengthOf ref₀ = s.lengthOf ref₀) ∧ (s.handItem x).profile = s.profile ∧
    (s.handItem x).vessel = s.vessel ∧ (∀ l₀ : Lane, (s.handItem x).laneFixed l₀ = s.laneFixed l₀) ∧
    (∀ r₀ : Ramp, (s.handItem x).rampFixed r₀ = s.rampFixed r₀) ∧
    (∀ d₀ : Deck, (s.handItem x).deckFixed d₀ = s.deckFixed d₀) ∧ (s.handItem x).laneCount = s.laneCount ∧
    (s.handItem x).laneNumbers = s.laneNumbers :=
  by
    exact ⟨rfl, rfl, rfl, rfl, rfl, rfl, rfl, rfl, rfl, rfl, rfl, rfl, rfl, rfl, rfl, fun _ => rfl, fun _ =>
      rfl, fun _ => rfl, fun _ => rfl, fun _ => rfl, fun _ => rfl, fun _ => rfl, fun _ => rfl, rfl, rfl, fun _
      => rfl, fun _ => rfl, fun _ => rfl, rfl, rfl⟩

@[simp] theorem State.triggerWalk_frame :
    (s.triggerWalk).pending = s.pending ∧ (s.triggerWalk).session = s.session ∧ (s.triggerWalk).link = s.link ∧
    (s.triggerWalk).units = s.units ∧ (s.triggerWalk).checkIn = s.checkIn ∧ (s.triggerWalk).ageing = s.ageing ∧
    (s.triggerWalk).lanes = s.lanes ∧ (s.triggerWalk).decks = s.decks ∧ (s.triggerWalk).stb = s.stb ∧
    (s.triggerWalk).csc = s.csc ∧ (s.triggerWalk).plates = s.plates ∧ (s.triggerWalk).comps = s.comps ∧
    (s.triggerWalk).hlm = s.hlm ∧ (s.triggerWalk).pst = s.pst ∧ (s.triggerWalk).freeCount = s.freeCount ∧
    (∀ k : Lane, (s.triggerWalk).lane k = s.lane k) ∧ (∀ e : Deck, (s.triggerWalk).deck e = s.deck e) ∧
    (∀ q : Ramp, (s.triggerWalk).ramp q = s.ramp q) ∧ (∀ q : Ramp, (s.triggerWalk).plate q = s.plate q) ∧
    (∀ q : Ramp, (s.triggerWalk).comp q = s.comp q) ∧ (∀ ref₀ : Ref, (s.triggerWalk).unit? ref₀ = s.unit? ref₀) ∧
    (∀ ref₀ : Ref, (s.triggerWalk).statusOf ref₀ = s.statusOf ref₀) ∧
    (∀ ref₀ : Ref, (s.triggerWalk).lengthOf ref₀ = s.lengthOf ref₀) ∧ (s.triggerWalk).profile = s.profile ∧
    (s.triggerWalk).vessel = s.vessel ∧ (∀ l₀ : Lane, (s.triggerWalk).laneFixed l₀ = s.laneFixed l₀) ∧
    (∀ r₀ : Ramp, (s.triggerWalk).rampFixed r₀ = s.rampFixed r₀) ∧
    (∀ d₀ : Deck, (s.triggerWalk).deckFixed d₀ = s.deckFixed d₀) ∧ (s.triggerWalk).laneCount = s.laneCount ∧
    (s.triggerWalk).laneNumbers = s.laneNumbers :=
  by
    unfold State.triggerWalk; split <;> exact ⟨rfl, rfl, rfl, rfl, rfl, rfl, rfl, rfl, rfl, rfl, rfl, rfl, rfl, rfl, rfl, fun _ => rfl, fun _ =>
      rfl, fun _ => rfl, fun _ => rfl, fun _ => rfl, fun _ => rfl, fun _ => rfl, fun _ => rfl, rfl, rfl, fun _
      => rfl, fun _ => rfl, fun _ => rfl, rfl, rfl⟩

@[simp] theorem State.leaveUnplaced_frame (ref : Ref) :
    (s.leaveUnplaced ref).pending = s.pending ∧ (s.leaveUnplaced ref).session = s.session ∧
    (s.leaveUnplaced ref).link = s.link ∧ (s.leaveUnplaced ref).units = s.units ∧
    (s.leaveUnplaced ref).checkIn = s.checkIn ∧ (s.leaveUnplaced ref).ageing = s.ageing ∧
    (s.leaveUnplaced ref).lanes = s.lanes ∧ (s.leaveUnplaced ref).decks = s.decks ∧
    (s.leaveUnplaced ref).stb = s.stb ∧ (s.leaveUnplaced ref).csc = s.csc ∧
    (s.leaveUnplaced ref).plates = s.plates ∧ (s.leaveUnplaced ref).comps = s.comps ∧
    (s.leaveUnplaced ref).hlm = s.hlm ∧ (s.leaveUnplaced ref).pst = s.pst ∧
    (s.leaveUnplaced ref).freeCount = s.freeCount ∧ (∀ k : Lane, (s.leaveUnplaced ref).lane k = s.lane k) ∧
    (∀ e : Deck, (s.leaveUnplaced ref).deck e = s.deck e) ∧ (∀ q : Ramp, (s.leaveUnplaced ref).ramp q = s.ramp q) ∧
    (∀ q : Ramp, (s.leaveUnplaced ref).plate q = s.plate q) ∧
    (∀ q : Ramp, (s.leaveUnplaced ref).comp q = s.comp q) ∧
    (∀ ref₀ : Ref, (s.leaveUnplaced ref).unit? ref₀ = s.unit? ref₀) ∧
    (∀ ref₀ : Ref, (s.leaveUnplaced ref).statusOf ref₀ = s.statusOf ref₀) ∧
    (∀ ref₀ : Ref, (s.leaveUnplaced ref).lengthOf ref₀ = s.lengthOf ref₀) ∧
    (s.leaveUnplaced ref).profile = s.profile ∧ (s.leaveUnplaced ref).vessel = s.vessel ∧
    (∀ l₀ : Lane, (s.leaveUnplaced ref).laneFixed l₀ = s.laneFixed l₀) ∧
    (∀ r₀ : Ramp, (s.leaveUnplaced ref).rampFixed r₀ = s.rampFixed r₀) ∧
    (∀ d₀ : Deck, (s.leaveUnplaced ref).deckFixed d₀ = s.deckFixed d₀) ∧
    (s.leaveUnplaced ref).laneCount = s.laneCount ∧ (s.leaveUnplaced ref).laneNumbers = s.laneNumbers :=
  by
    exact ⟨rfl, rfl, rfl, rfl, rfl, rfl, rfl, rfl, rfl, rfl, rfl, rfl, rfl, rfl, rfl, fun _ => rfl, fun _ =>
      rfl, fun _ => rfl, fun _ => rfl, fun _ => rfl, fun _ => rfl, fun _ => rfl, fun _ => rfl, rfl, rfl, fun _
      => rfl, fun _ => rfl, fun _ => rfl, rfl, rfl⟩

@[simp] theorem State.joinUnplaced_frame (ref : Ref) :
    (s.joinUnplaced ref).pending = s.pending ∧ (s.joinUnplaced ref).session = s.session ∧
    (s.joinUnplaced ref).link = s.link ∧ (s.joinUnplaced ref).units = s.units ∧
    (s.joinUnplaced ref).checkIn = s.checkIn ∧ (s.joinUnplaced ref).ageing = s.ageing ∧
    (s.joinUnplaced ref).lanes = s.lanes ∧ (s.joinUnplaced ref).decks = s.decks ∧
    (s.joinUnplaced ref).stb = s.stb ∧ (s.joinUnplaced ref).csc = s.csc ∧ (s.joinUnplaced ref).plates = s.plates ∧
    (s.joinUnplaced ref).comps = s.comps ∧ (s.joinUnplaced ref).hlm = s.hlm ∧ (s.joinUnplaced ref).pst = s.pst ∧
    (s.joinUnplaced ref).freeCount = s.freeCount ∧ (∀ k : Lane, (s.joinUnplaced ref).lane k = s.lane k) ∧
    (∀ e : Deck, (s.joinUnplaced ref).deck e = s.deck e) ∧ (∀ q : Ramp, (s.joinUnplaced ref).ramp q = s.ramp q) ∧
    (∀ q : Ramp, (s.joinUnplaced ref).plate q = s.plate q) ∧ (∀ q : Ramp, (s.joinUnplaced ref).comp q = s.comp q) ∧
    (∀ ref₀ : Ref, (s.joinUnplaced ref).unit? ref₀ = s.unit? ref₀) ∧
    (∀ ref₀ : Ref, (s.joinUnplaced ref).statusOf ref₀ = s.statusOf ref₀) ∧
    (∀ ref₀ : Ref, (s.joinUnplaced ref).lengthOf ref₀ = s.lengthOf ref₀) ∧
    (s.joinUnplaced ref).profile = s.profile ∧ (s.joinUnplaced ref).vessel = s.vessel ∧
    (∀ l₀ : Lane, (s.joinUnplaced ref).laneFixed l₀ = s.laneFixed l₀) ∧
    (∀ r₀ : Ramp, (s.joinUnplaced ref).rampFixed r₀ = s.rampFixed r₀) ∧
    (∀ d₀ : Deck, (s.joinUnplaced ref).deckFixed d₀ = s.deckFixed d₀) ∧
    (s.joinUnplaced ref).laneCount = s.laneCount ∧ (s.joinUnplaced ref).laneNumbers = s.laneNumbers :=
  by
    exact ⟨rfl, rfl, rfl, rfl, rfl, rfl, rfl, rfl, rfl, rfl, rfl, rfl, rfl, rfl, rfl, fun _ => rfl, fun _ =>
      rfl, fun _ => rfl, fun _ => rfl, fun _ => rfl, fun _ => rfl, fun _ => rfl, fun _ => rfl, rfl, rfl, fun _
      => rfl, fun _ => rfl, fun _ => rfl, rfl, rfl⟩

@[simp] theorem State.handOver_frame (ref : Ref) (l : Lane) :
    (s.handOver ref l).pending = s.pending ∧ (s.handOver ref l).session = s.session ∧
    (s.handOver ref l).link = s.link ∧ (s.handOver ref l).checkIn = s.checkIn ∧
    (s.handOver ref l).ageing = s.ageing ∧ (s.handOver ref l).lanes = s.lanes ∧
    (s.handOver ref l).decks = s.decks ∧ (s.handOver ref l).stb = s.stb ∧ (s.handOver ref l).csc = s.csc ∧
    (s.handOver ref l).plates = s.plates ∧ (s.handOver ref l).comps = s.comps ∧ (s.handOver ref l).hlm = s.hlm ∧
    (s.handOver ref l).pst = s.pst ∧ (s.handOver ref l).freeCount = s.freeCount ∧
    (∀ k : Lane, (s.handOver ref l).lane k = s.lane k) ∧ (∀ e : Deck, (s.handOver ref l).deck e = s.deck e) ∧
    (∀ q : Ramp, (s.handOver ref l).ramp q = s.ramp q) ∧ (∀ q : Ramp, (s.handOver ref l).plate q = s.plate q) ∧
    (∀ q : Ramp, (s.handOver ref l).comp q = s.comp q) ∧ (s.handOver ref l).profile = s.profile ∧
    (s.handOver ref l).vessel = s.vessel ∧ (∀ l₀ : Lane, (s.handOver ref l).laneFixed l₀ = s.laneFixed l₀) ∧
    (∀ r₀ : Ramp, (s.handOver ref l).rampFixed r₀ = s.rampFixed r₀) ∧
    (∀ d₀ : Deck, (s.handOver ref l).deckFixed d₀ = s.deckFixed d₀) ∧ (s.handOver ref l).laneCount = s.laneCount ∧
    (s.handOver ref l).laneNumbers = s.laneNumbers :=
  by
    exact ⟨rfl, rfl, rfl, rfl, rfl, rfl, rfl, rfl, rfl, rfl, rfl, rfl, rfl, rfl, fun _ => rfl, fun _ => rfl,
      fun _ => rfl, fun _ => rfl, fun _ => rfl, rfl, rfl, fun _ => rfl, fun _ => rfl, fun _ => rfl, rfl, rfl⟩

@[simp] theorem State.joinQueue_frame (r : Ramp) (p b : Bool) (ref : Ref) :
    (s.joinQueue r p b ref).pending = s.pending ∧ (s.joinQueue r p b ref).session = s.session ∧
    (s.joinQueue r p b ref).units = s.units ∧ (s.joinQueue r p b ref).checkIn = s.checkIn ∧
    (s.joinQueue r p b ref).ageing = s.ageing ∧ (s.joinQueue r p b ref).lanes = s.lanes ∧
    (s.joinQueue r p b ref).decks = s.decks ∧ (s.joinQueue r p b ref).stb = s.stb ∧
    (s.joinQueue r p b ref).alc = s.alc ∧ (s.joinQueue r p b ref).plates = s.plates ∧
    (s.joinQueue r p b ref).comps = s.comps ∧ (s.joinQueue r p b ref).hlm = s.hlm ∧
    (s.joinQueue r p b ref).pst = s.pst ∧ (s.joinQueue r p b ref).freeCount = s.freeCount ∧
    (∀ k : Lane, (s.joinQueue r p b ref).lane k = s.lane k) ∧
    (∀ e : Deck, (s.joinQueue r p b ref).deck e = s.deck e) ∧
    (∀ q : Ramp, (s.joinQueue r p b ref).plate q = s.plate q) ∧
    (∀ q : Ramp, (s.joinQueue r p b ref).comp q = s.comp q) ∧
    (∀ ref₀ : Ref, (s.joinQueue r p b ref).unit? ref₀ = s.unit? ref₀) ∧
    (∀ ref₀ : Ref, (s.joinQueue r p b ref).statusOf ref₀ = s.statusOf ref₀) ∧
    (∀ ref₀ : Ref, (s.joinQueue r p b ref).lengthOf ref₀ = s.lengthOf ref₀) ∧
    (s.joinQueue r p b ref).profile = s.profile ∧ (s.joinQueue r p b ref).vessel = s.vessel ∧
    (∀ l₀ : Lane, (s.joinQueue r p b ref).laneFixed l₀ = s.laneFixed l₀) ∧
    (∀ r₀ : Ramp, (s.joinQueue r p b ref).rampFixed r₀ = s.rampFixed r₀) ∧
    (∀ d₀ : Deck, (s.joinQueue r p b ref).deckFixed d₀ = s.deckFixed d₀) ∧
    (s.joinQueue r p b ref).laneCount = s.laneCount ∧ (s.joinQueue r p b ref).laneNumbers = s.laneNumbers :=
  by
    unfold State.joinQueue; simp

@[simp] theorem State.leaveQueue_frame (r : Ramp) (ref : Ref) :
    (s.leaveQueue r ref).pending = s.pending ∧ (s.leaveQueue r ref).session = s.session ∧
    (s.leaveQueue r ref).units = s.units ∧ (s.leaveQueue r ref).checkIn = s.checkIn ∧
    (s.leaveQueue r ref).ageing = s.ageing ∧ (s.leaveQueue r ref).lanes = s.lanes ∧
    (s.leaveQueue r ref).decks = s.decks ∧ (s.leaveQueue r ref).stb = s.stb ∧ (s.leaveQueue r ref).alc = s.alc ∧
    (s.leaveQueue r ref).plates = s.plates ∧ (s.leaveQueue r ref).comps = s.comps ∧
    (s.leaveQueue r ref).hlm = s.hlm ∧ (s.leaveQueue r ref).pst = s.pst ∧
    (s.leaveQueue r ref).freeCount = s.freeCount ∧ (∀ k : Lane, (s.leaveQueue r ref).lane k = s.lane k) ∧
    (∀ e : Deck, (s.leaveQueue r ref).deck e = s.deck e) ∧ (∀ q : Ramp, (s.leaveQueue r ref).plate q = s.plate q) ∧
    (∀ q : Ramp, (s.leaveQueue r ref).comp q = s.comp q) ∧
    (∀ ref₀ : Ref, (s.leaveQueue r ref).unit? ref₀ = s.unit? ref₀) ∧
    (∀ ref₀ : Ref, (s.leaveQueue r ref).statusOf ref₀ = s.statusOf ref₀) ∧
    (∀ ref₀ : Ref, (s.leaveQueue r ref).lengthOf ref₀ = s.lengthOf ref₀) ∧
    (s.leaveQueue r ref).profile = s.profile ∧ (s.leaveQueue r ref).vessel = s.vessel ∧
    (∀ l₀ : Lane, (s.leaveQueue r ref).laneFixed l₀ = s.laneFixed l₀) ∧
    (∀ r₀ : Ramp, (s.leaveQueue r ref).rampFixed r₀ = s.rampFixed r₀) ∧
    (∀ d₀ : Deck, (s.leaveQueue r ref).deckFixed d₀ = s.deckFixed d₀) ∧
    (s.leaveQueue r ref).laneCount = s.laneCount ∧ (s.leaveQueue r ref).laneNumbers = s.laneNumbers :=
  by
    unfold State.leaveQueue; dsimp only; split <;> simp

@[simp] theorem State.timeHead_frame (r : Ramp) :
    (s.timeHead r).pending = s.pending ∧ (s.timeHead r).session = s.session ∧ (s.timeHead r).link = s.link ∧
    (s.timeHead r).units = s.units ∧ (s.timeHead r).checkIn = s.checkIn ∧ (s.timeHead r).ageing = s.ageing ∧
    (s.timeHead r).lanes = s.lanes ∧ (s.timeHead r).decks = s.decks ∧ (s.timeHead r).stb = s.stb ∧
    (s.timeHead r).alc = s.alc ∧ (s.timeHead r).plates = s.plates ∧ (s.timeHead r).comps = s.comps ∧
    (s.timeHead r).hlm = s.hlm ∧ (s.timeHead r).pst = s.pst ∧ (s.timeHead r).freeCount = s.freeCount ∧
    (∀ k : Lane, (s.timeHead r).lane k = s.lane k) ∧ (∀ e : Deck, (s.timeHead r).deck e = s.deck e) ∧
    (∀ q : Ramp, (s.timeHead r).plate q = s.plate q) ∧ (∀ q : Ramp, (s.timeHead r).comp q = s.comp q) ∧
    (∀ ref₀ : Ref, (s.timeHead r).unit? ref₀ = s.unit? ref₀) ∧
    (∀ ref₀ : Ref, (s.timeHead r).statusOf ref₀ = s.statusOf ref₀) ∧
    (∀ ref₀ : Ref, (s.timeHead r).lengthOf ref₀ = s.lengthOf ref₀) ∧ (s.timeHead r).profile = s.profile ∧
    (s.timeHead r).vessel = s.vessel ∧ (∀ l₀ : Lane, (s.timeHead r).laneFixed l₀ = s.laneFixed l₀) ∧
    (∀ r₀ : Ramp, (s.timeHead r).rampFixed r₀ = s.rampFixed r₀) ∧
    (∀ d₀ : Deck, (s.timeHead r).deckFixed d₀ = s.deckFixed d₀) ∧ (s.timeHead r).laneCount = s.laneCount ∧
    (s.timeHead r).laneNumbers = s.laneNumbers :=
  by
    exact ⟨rfl, rfl, rfl, rfl, rfl, rfl, rfl, rfl, rfl, rfl, rfl, rfl, rfl, rfl, rfl, fun _ => rfl, fun _ =>
      rfl, fun _ => rfl, fun _ => rfl, fun _ => rfl, fun _ => rfl, fun _ => rfl, rfl, rfl, fun _ => rfl, fun _
      => rfl, fun _ => rfl, rfl, rfl⟩

@[simp] theorem State.leaveCalled_frame (r : Ramp) (ref : Ref) :
    (s.leaveCalled r ref).pending = s.pending ∧ (s.leaveCalled r ref).session = s.session ∧
    (s.leaveCalled r ref).link = s.link ∧ (s.leaveCalled r ref).units = s.units ∧
    (s.leaveCalled r ref).checkIn = s.checkIn ∧ (s.leaveCalled r ref).ageing = s.ageing ∧
    (s.leaveCalled r ref).lanes = s.lanes ∧ (s.leaveCalled r ref).decks = s.decks ∧
    (s.leaveCalled r ref).stb = s.stb ∧ (s.leaveCalled r ref).alc = s.alc ∧
    (s.leaveCalled r ref).plates = s.plates ∧ (s.leaveCalled r ref).comps = s.comps ∧
    (s.leaveCalled r ref).hlm = s.hlm ∧ (s.leaveCalled r ref).pst = s.pst ∧
    (s.leaveCalled r ref).freeCount = s.freeCount ∧ (∀ k : Lane, (s.leaveCalled r ref).lane k = s.lane k) ∧
    (∀ e : Deck, (s.leaveCalled r ref).deck e = s.deck e) ∧
    (∀ q : Ramp, (s.leaveCalled r ref).plate q = s.plate q) ∧
    (∀ q : Ramp, (s.leaveCalled r ref).comp q = s.comp q) ∧
    (∀ ref₀ : Ref, (s.leaveCalled r ref).unit? ref₀ = s.unit? ref₀) ∧
    (∀ ref₀ : Ref, (s.leaveCalled r ref).statusOf ref₀ = s.statusOf ref₀) ∧
    (∀ ref₀ : Ref, (s.leaveCalled r ref).lengthOf ref₀ = s.lengthOf ref₀) ∧
    (s.leaveCalled r ref).profile = s.profile ∧ (s.leaveCalled r ref).vessel = s.vessel ∧
    (∀ l₀ : Lane, (s.leaveCalled r ref).laneFixed l₀ = s.laneFixed l₀) ∧
    (∀ r₀ : Ramp, (s.leaveCalled r ref).rampFixed r₀ = s.rampFixed r₀) ∧
    (∀ d₀ : Deck, (s.leaveCalled r ref).deckFixed d₀ = s.deckFixed d₀) ∧
    (s.leaveCalled r ref).laneCount = s.laneCount ∧ (s.leaveCalled r ref).laneNumbers = s.laneNumbers :=
  by
    unfold State.leaveCalled; dsimp only; split <;> exact ⟨rfl, rfl, rfl, rfl, rfl, rfl, rfl, rfl, rfl, rfl, rfl, rfl, rfl, rfl, rfl, fun _ => rfl, fun _ =>
      rfl, fun _ => rfl, fun _ => rfl, fun _ => rfl, fun _ => rfl, fun _ => rfl, rfl, rfl, fun _ => rfl, fun _
      => rfl, fun _ => rfl, rfl, rfl⟩

@[simp] theorem State.addProvisional_frame (l : Lane) (w : Nat) :
    (s.addProvisional l w).pending = s.pending ∧ (s.addProvisional l w).session = s.session ∧
    (s.addProvisional l w).link = s.link ∧ (s.addProvisional l w).units = s.units ∧
    (s.addProvisional l w).checkIn = s.checkIn ∧ (s.addProvisional l w).ageing = s.ageing ∧
    (s.addProvisional l w).lanes = s.lanes ∧ (s.addProvisional l w).decks = s.decks ∧
    (s.addProvisional l w).alc = s.alc ∧ (s.addProvisional l w).csc = s.csc ∧
    (s.addProvisional l w).plates = s.plates ∧ (s.addProvisional l w).comps = s.comps ∧
    (s.addProvisional l w).hlm = s.hlm ∧ (s.addProvisional l w).pst = s.pst ∧
    (s.addProvisional l w).freeCount = s.freeCount ∧ (∀ k : Lane, (s.addProvisional l w).lane k = s.lane k) ∧
    (∀ e : Deck, (s.addProvisional l w).deck e = s.deck e) ∧
    (∀ q : Ramp, (s.addProvisional l w).ramp q = s.ramp q) ∧
    (∀ q : Ramp, (s.addProvisional l w).plate q = s.plate q) ∧
    (∀ q : Ramp, (s.addProvisional l w).comp q = s.comp q) ∧
    (∀ ref₀ : Ref, (s.addProvisional l w).unit? ref₀ = s.unit? ref₀) ∧
    (∀ ref₀ : Ref, (s.addProvisional l w).statusOf ref₀ = s.statusOf ref₀) ∧
    (∀ ref₀ : Ref, (s.addProvisional l w).lengthOf ref₀ = s.lengthOf ref₀) ∧
    (s.addProvisional l w).profile = s.profile ∧ (s.addProvisional l w).vessel = s.vessel ∧
    (∀ l₀ : Lane, (s.addProvisional l w).laneFixed l₀ = s.laneFixed l₀) ∧
    (∀ r₀ : Ramp, (s.addProvisional l w).rampFixed r₀ = s.rampFixed r₀) ∧
    (∀ d₀ : Deck, (s.addProvisional l w).deckFixed d₀ = s.deckFixed d₀) ∧
    (s.addProvisional l w).laneCount = s.laneCount ∧ (s.addProvisional l w).laneNumbers = s.laneNumbers :=
  by
    exact ⟨rfl, rfl, rfl, rfl, rfl, rfl, rfl, rfl, rfl, rfl, rfl, rfl, rfl, rfl, rfl, fun _ => rfl, fun _ =>
      rfl, fun _ => rfl, fun _ => rfl, fun _ => rfl, fun _ => rfl, fun _ => rfl, fun _ => rfl, rfl, rfl, fun _
      => rfl, fun _ => rfl, fun _ => rfl, rfl, rfl⟩

@[simp] theorem State.subProvisional_frame (l : Lane) (w : Nat) :
    (s.subProvisional l w).pending = s.pending ∧ (s.subProvisional l w).session = s.session ∧
    (s.subProvisional l w).link = s.link ∧ (s.subProvisional l w).units = s.units ∧
    (s.subProvisional l w).checkIn = s.checkIn ∧ (s.subProvisional l w).ageing = s.ageing ∧
    (s.subProvisional l w).lanes = s.lanes ∧ (s.subProvisional l w).decks = s.decks ∧
    (s.subProvisional l w).alc = s.alc ∧ (s.subProvisional l w).csc = s.csc ∧
    (s.subProvisional l w).plates = s.plates ∧ (s.subProvisional l w).comps = s.comps ∧
    (s.subProvisional l w).hlm = s.hlm ∧ (s.subProvisional l w).pst = s.pst ∧
    (s.subProvisional l w).freeCount = s.freeCount ∧ (∀ k : Lane, (s.subProvisional l w).lane k = s.lane k) ∧
    (∀ e : Deck, (s.subProvisional l w).deck e = s.deck e) ∧
    (∀ q : Ramp, (s.subProvisional l w).ramp q = s.ramp q) ∧
    (∀ q : Ramp, (s.subProvisional l w).plate q = s.plate q) ∧
    (∀ q : Ramp, (s.subProvisional l w).comp q = s.comp q) ∧
    (∀ ref₀ : Ref, (s.subProvisional l w).unit? ref₀ = s.unit? ref₀) ∧
    (∀ ref₀ : Ref, (s.subProvisional l w).statusOf ref₀ = s.statusOf ref₀) ∧
    (∀ ref₀ : Ref, (s.subProvisional l w).lengthOf ref₀ = s.lengthOf ref₀) ∧
    (s.subProvisional l w).profile = s.profile ∧ (s.subProvisional l w).vessel = s.vessel ∧
    (∀ l₀ : Lane, (s.subProvisional l w).laneFixed l₀ = s.laneFixed l₀) ∧
    (∀ r₀ : Ramp, (s.subProvisional l w).rampFixed r₀ = s.rampFixed r₀) ∧
    (∀ d₀ : Deck, (s.subProvisional l w).deckFixed d₀ = s.deckFixed d₀) ∧
    (s.subProvisional l w).laneCount = s.laneCount ∧ (s.subProvisional l w).laneNumbers = s.laneNumbers :=
  by
    exact ⟨rfl, rfl, rfl, rfl, rfl, rfl, rfl, rfl, rfl, rfl, rfl, rfl, rfl, rfl, rfl, fun _ => rfl, fun _ =>
      rfl, fun _ => rfl, fun _ => rfl, fun _ => rfl, fun _ => rfl, fun _ => rfl, fun _ => rfl, rfl, rfl, fun _
      => rfl, fun _ => rfl, fun _ => rfl, rfl, rfl⟩

@[simp] theorem State.addCommitted_frame (l : Lane) (w o n : Nat) :
    (s.addCommitted l w o n).pending = s.pending ∧ (s.addCommitted l w o n).session = s.session ∧
    (s.addCommitted l w o n).link = s.link ∧ (s.addCommitted l w o n).units = s.units ∧
    (s.addCommitted l w o n).checkIn = s.checkIn ∧ (s.addCommitted l w o n).ageing = s.ageing ∧
    (s.addCommitted l w o n).lanes = s.lanes ∧ (s.addCommitted l w o n).decks = s.decks ∧
    (s.addCommitted l w o n).alc = s.alc ∧ (s.addCommitted l w o n).csc = s.csc ∧
    (s.addCommitted l w o n).plates = s.plates ∧ (s.addCommitted l w o n).comps = s.comps ∧
    (s.addCommitted l w o n).hlm = s.hlm ∧ (s.addCommitted l w o n).pst = s.pst ∧
    (s.addCommitted l w o n).freeCount = s.freeCount ∧ (∀ k : Lane, (s.addCommitted l w o n).lane k = s.lane k) ∧
    (∀ e : Deck, (s.addCommitted l w o n).deck e = s.deck e) ∧
    (∀ q : Ramp, (s.addCommitted l w o n).ramp q = s.ramp q) ∧
    (∀ q : Ramp, (s.addCommitted l w o n).plate q = s.plate q) ∧
    (∀ q : Ramp, (s.addCommitted l w o n).comp q = s.comp q) ∧
    (∀ ref₀ : Ref, (s.addCommitted l w o n).unit? ref₀ = s.unit? ref₀) ∧
    (∀ ref₀ : Ref, (s.addCommitted l w o n).statusOf ref₀ = s.statusOf ref₀) ∧
    (∀ ref₀ : Ref, (s.addCommitted l w o n).lengthOf ref₀ = s.lengthOf ref₀) ∧
    (s.addCommitted l w o n).profile = s.profile ∧ (s.addCommitted l w o n).vessel = s.vessel ∧
    (∀ l₀ : Lane, (s.addCommitted l w o n).laneFixed l₀ = s.laneFixed l₀) ∧
    (∀ r₀ : Ramp, (s.addCommitted l w o n).rampFixed r₀ = s.rampFixed r₀) ∧
    (∀ d₀ : Deck, (s.addCommitted l w o n).deckFixed d₀ = s.deckFixed d₀) ∧
    (s.addCommitted l w o n).laneCount = s.laneCount ∧ (s.addCommitted l w o n).laneNumbers = s.laneNumbers :=
  by
    exact ⟨rfl, rfl, rfl, rfl, rfl, rfl, rfl, rfl, rfl, rfl, rfl, rfl, rfl, rfl, rfl, fun _ => rfl, fun _ =>
      rfl, fun _ => rfl, fun _ => rfl, fun _ => rfl, fun _ => rfl, fun _ => rfl, fun _ => rfl, rfl, rfl, fun _
      => rfl, fun _ => rfl, fun _ => rfl, rfl, rfl⟩

@[simp] theorem State.subCommitted_frame (l : Lane) (w o n : Nat) :
    (s.subCommitted l w o n).pending = s.pending ∧ (s.subCommitted l w o n).session = s.session ∧
    (s.subCommitted l w o n).link = s.link ∧ (s.subCommitted l w o n).units = s.units ∧
    (s.subCommitted l w o n).checkIn = s.checkIn ∧ (s.subCommitted l w o n).ageing = s.ageing ∧
    (s.subCommitted l w o n).lanes = s.lanes ∧ (s.subCommitted l w o n).decks = s.decks ∧
    (s.subCommitted l w o n).alc = s.alc ∧ (s.subCommitted l w o n).csc = s.csc ∧
    (s.subCommitted l w o n).plates = s.plates ∧ (s.subCommitted l w o n).comps = s.comps ∧
    (s.subCommitted l w o n).hlm = s.hlm ∧ (s.subCommitted l w o n).pst = s.pst ∧
    (s.subCommitted l w o n).freeCount = s.freeCount ∧ (∀ k : Lane, (s.subCommitted l w o n).lane k = s.lane k) ∧
    (∀ e : Deck, (s.subCommitted l w o n).deck e = s.deck e) ∧
    (∀ q : Ramp, (s.subCommitted l w o n).ramp q = s.ramp q) ∧
    (∀ q : Ramp, (s.subCommitted l w o n).plate q = s.plate q) ∧
    (∀ q : Ramp, (s.subCommitted l w o n).comp q = s.comp q) ∧
    (∀ ref₀ : Ref, (s.subCommitted l w o n).unit? ref₀ = s.unit? ref₀) ∧
    (∀ ref₀ : Ref, (s.subCommitted l w o n).statusOf ref₀ = s.statusOf ref₀) ∧
    (∀ ref₀ : Ref, (s.subCommitted l w o n).lengthOf ref₀ = s.lengthOf ref₀) ∧
    (s.subCommitted l w o n).profile = s.profile ∧ (s.subCommitted l w o n).vessel = s.vessel ∧
    (∀ l₀ : Lane, (s.subCommitted l w o n).laneFixed l₀ = s.laneFixed l₀) ∧
    (∀ r₀ : Ramp, (s.subCommitted l w o n).rampFixed r₀ = s.rampFixed r₀) ∧
    (∀ d₀ : Deck, (s.subCommitted l w o n).deckFixed d₀ = s.deckFixed d₀) ∧
    (s.subCommitted l w o n).laneCount = s.laneCount ∧ (s.subCommitted l w o n).laneNumbers = s.laneNumbers :=
  by
    exact ⟨rfl, rfl, rfl, rfl, rfl, rfl, rfl, rfl, rfl, rfl, rfl, rfl, rfl, rfl, rfl, fun _ => rfl, fun _ =>
      rfl, fun _ => rfl, fun _ => rfl, fun _ => rfl, fun _ => rfl, fun _ => rfl, fun _ => rfl, rfl, rfl, fun _
      => rfl, fun _ => rfl, fun _ => rfl, rfl, rfl⟩

@[simp] theorem State.leaveLane_frame (l : Lane) (ref : Ref) :
    (s.leaveLane l ref).pending = s.pending ∧ (s.leaveLane l ref).session = s.session ∧
    (s.leaveLane l ref).link = s.link ∧ (s.leaveLane l ref).units = s.units ∧
    (s.leaveLane l ref).checkIn = s.checkIn ∧ (s.leaveLane l ref).ageing = s.ageing ∧
    (s.leaveLane l ref).decks = s.decks ∧ (s.leaveLane l ref).stb = s.stb ∧ (s.leaveLane l ref).alc = s.alc ∧
    (s.leaveLane l ref).csc = s.csc ∧ (s.leaveLane l ref).plates = s.plates ∧ (s.leaveLane l ref).comps = s.comps ∧
    (s.leaveLane l ref).hlm = s.hlm ∧ (s.leaveLane l ref).pst = s.pst ∧
    (s.leaveLane l ref).freeCount = s.freeCount ∧ (∀ e : Deck, (s.leaveLane l ref).deck e = s.deck e) ∧
    (∀ q : Ramp, (s.leaveLane l ref).ramp q = s.ramp q) ∧ (∀ q : Ramp, (s.leaveLane l ref).plate q = s.plate q) ∧
    (∀ q : Ramp, (s.leaveLane l ref).comp q = s.comp q) ∧
    (∀ ref₀ : Ref, (s.leaveLane l ref).unit? ref₀ = s.unit? ref₀) ∧
    (∀ ref₀ : Ref, (s.leaveLane l ref).statusOf ref₀ = s.statusOf ref₀) ∧
    (∀ ref₀ : Ref, (s.leaveLane l ref).lengthOf ref₀ = s.lengthOf ref₀) ∧ (s.leaveLane l ref).profile = s.profile ∧
    (s.leaveLane l ref).vessel = s.vessel ∧ (∀ l₀ : Lane, (s.leaveLane l ref).laneFixed l₀ = s.laneFixed l₀) ∧
    (∀ r₀ : Ramp, (s.leaveLane l ref).rampFixed r₀ = s.rampFixed r₀) ∧
    (∀ d₀ : Deck, (s.leaveLane l ref).deckFixed d₀ = s.deckFixed d₀) ∧
    (s.leaveLane l ref).laneCount = s.laneCount ∧ (s.leaveLane l ref).laneNumbers = s.laneNumbers :=
  by
    exact ⟨rfl, rfl, rfl, rfl, rfl, rfl, rfl, rfl, rfl, rfl, rfl, rfl, rfl, rfl, rfl, fun _ => rfl, fun _ =>
      rfl, fun _ => rfl, fun _ => rfl, fun _ => rfl, fun _ => rfl, fun _ => rfl, rfl, rfl, fun _ => rfl, fun _
      => rfl, fun _ => rfl, rfl, rfl⟩

@[simp] theorem State.joinOccupants_frame (l : Lane) (ref : Ref) (o : Nat) :
    (s.joinOccupants l ref o).pending = s.pending ∧ (s.joinOccupants l ref o).session = s.session ∧
    (s.joinOccupants l ref o).link = s.link ∧ (s.joinOccupants l ref o).units = s.units ∧
    (s.joinOccupants l ref o).checkIn = s.checkIn ∧ (s.joinOccupants l ref o).ageing = s.ageing ∧
    (s.joinOccupants l ref o).decks = s.decks ∧ (s.joinOccupants l ref o).stb = s.stb ∧
    (s.joinOccupants l ref o).alc = s.alc ∧ (s.joinOccupants l ref o).csc = s.csc ∧
    (s.joinOccupants l ref o).plates = s.plates ∧ (s.joinOccupants l ref o).comps = s.comps ∧
    (s.joinOccupants l ref o).hlm = s.hlm ∧ (s.joinOccupants l ref o).pst = s.pst ∧
    (s.joinOccupants l ref o).freeCount = s.freeCount ∧ (∀ e : Deck, (s.joinOccupants l ref o).deck e = s.deck e) ∧
    (∀ q : Ramp, (s.joinOccupants l ref o).ramp q = s.ramp q) ∧
    (∀ q : Ramp, (s.joinOccupants l ref o).plate q = s.plate q) ∧
    (∀ q : Ramp, (s.joinOccupants l ref o).comp q = s.comp q) ∧
    (∀ ref₀ : Ref, (s.joinOccupants l ref o).unit? ref₀ = s.unit? ref₀) ∧
    (∀ ref₀ : Ref, (s.joinOccupants l ref o).statusOf ref₀ = s.statusOf ref₀) ∧
    (∀ ref₀ : Ref, (s.joinOccupants l ref o).lengthOf ref₀ = s.lengthOf ref₀) ∧
    (s.joinOccupants l ref o).profile = s.profile ∧ (s.joinOccupants l ref o).vessel = s.vessel ∧
    (∀ l₀ : Lane, (s.joinOccupants l ref o).laneFixed l₀ = s.laneFixed l₀) ∧
    (∀ r₀ : Ramp, (s.joinOccupants l ref o).rampFixed r₀ = s.rampFixed r₀) ∧
    (∀ d₀ : Deck, (s.joinOccupants l ref o).deckFixed d₀ = s.deckFixed d₀) ∧
    (s.joinOccupants l ref o).laneCount = s.laneCount ∧ (s.joinOccupants l ref o).laneNumbers = s.laneNumbers :=
  by
    exact ⟨rfl, rfl, rfl, rfl, rfl, rfl, rfl, rfl, rfl, rfl, rfl, rfl, rfl, rfl, rfl, fun _ => rfl, fun _ =>
      rfl, fun _ => rfl, fun _ => rfl, fun _ => rfl, fun _ => rfl, fun _ => rfl, rfl, rfl, fun _ => rfl, fun _
      => rfl, fun _ => rfl, rfl, rfl⟩

@[simp] theorem State.release_frame (ref : Ref) :
    (s.release ref).pending = s.pending ∧ (s.release ref).session = s.session ∧
    (s.release ref).checkIn = s.checkIn ∧ (s.release ref).ageing = s.ageing ∧ (s.release ref).decks = s.decks ∧
    (s.release ref).alc = s.alc ∧ (s.release ref).plates = s.plates ∧ (s.release ref).comps = s.comps ∧
    (s.release ref).hlm = s.hlm ∧ (s.release ref).pst = s.pst ∧ (s.release ref).freeCount = s.freeCount ∧
    (∀ e : Deck, (s.release ref).deck e = s.deck e) ∧ (∀ q : Ramp, (s.release ref).plate q = s.plate q) ∧
    (∀ q : Ramp, (s.release ref).comp q = s.comp q) ∧ (s.release ref).profile = s.profile ∧
    (s.release ref).vessel = s.vessel ∧ (∀ l₀ : Lane, (s.release ref).laneFixed l₀ = s.laneFixed l₀) ∧
    (∀ r₀ : Ramp, (s.release ref).rampFixed r₀ = s.rampFixed r₀) ∧
    (∀ d₀ : Deck, (s.release ref).deckFixed d₀ = s.deckFixed d₀) ∧ (s.release ref).laneCount = s.laneCount ∧
    (s.release ref).laneNumbers = s.laneNumbers :=
  by
    unfold State.release; split <;> (try split) <;> simp

@[simp] theorem State.uncallNotice_frame (r : Ramp) (x : UncallReason) (l : Option Lane) (ref : Ref) :
    (s.uncallNotice r x l ref).pending = s.pending ∧ (s.uncallNotice r x l ref).session = s.session ∧
    (s.uncallNotice r x l ref).units = s.units ∧ (s.uncallNotice r x l ref).checkIn = s.checkIn ∧
    (s.uncallNotice r x l ref).ageing = s.ageing ∧ (s.uncallNotice r x l ref).lanes = s.lanes ∧
    (s.uncallNotice r x l ref).decks = s.decks ∧ (s.uncallNotice r x l ref).stb = s.stb ∧
    (s.uncallNotice r x l ref).alc = s.alc ∧ (s.uncallNotice r x l ref).csc = s.csc ∧
    (s.uncallNotice r x l ref).plates = s.plates ∧ (s.uncallNotice r x l ref).comps = s.comps ∧
    (s.uncallNotice r x l ref).hlm = s.hlm ∧ (s.uncallNotice r x l ref).pst = s.pst ∧
    (s.uncallNotice r x l ref).freeCount = s.freeCount ∧
    (∀ k : Lane, (s.uncallNotice r x l ref).lane k = s.lane k) ∧
    (∀ e : Deck, (s.uncallNotice r x l ref).deck e = s.deck e) ∧
    (∀ q : Ramp, (s.uncallNotice r x l ref).ramp q = s.ramp q) ∧
    (∀ q : Ramp, (s.uncallNotice r x l ref).plate q = s.plate q) ∧
    (∀ q : Ramp, (s.uncallNotice r x l ref).comp q = s.comp q) ∧
    (∀ ref₀ : Ref, (s.uncallNotice r x l ref).unit? ref₀ = s.unit? ref₀) ∧
    (∀ ref₀ : Ref, (s.uncallNotice r x l ref).statusOf ref₀ = s.statusOf ref₀) ∧
    (∀ ref₀ : Ref, (s.uncallNotice r x l ref).lengthOf ref₀ = s.lengthOf ref₀) ∧
    (s.uncallNotice r x l ref).profile = s.profile ∧ (s.uncallNotice r x l ref).vessel = s.vessel ∧
    (∀ l₀ : Lane, (s.uncallNotice r x l ref).laneFixed l₀ = s.laneFixed l₀) ∧
    (∀ r₀ : Ramp, (s.uncallNotice r x l ref).rampFixed r₀ = s.rampFixed r₀) ∧
    (∀ d₀ : Deck, (s.uncallNotice r x l ref).deckFixed d₀ = s.deckFixed d₀) ∧
    (s.uncallNotice r x l ref).laneCount = s.laneCount ∧ (s.uncallNotice r x l ref).laneNumbers = s.laneNumbers :=
  by
    unfold State.uncallNotice; simp

@[simp] theorem State.returnToWaiting_frame (r : Ramp) (b : Bool) (ref : Ref) :
    (s.returnToWaiting r b ref).pending = s.pending ∧ (s.returnToWaiting r b ref).session = s.session ∧
    (s.returnToWaiting r b ref).checkIn = s.checkIn ∧ (s.returnToWaiting r b ref).ageing = s.ageing ∧
    (s.returnToWaiting r b ref).lanes = s.lanes ∧ (s.returnToWaiting r b ref).decks = s.decks ∧
    (s.returnToWaiting r b ref).stb = s.stb ∧ (s.returnToWaiting r b ref).alc = s.alc ∧
    (s.returnToWaiting r b ref).plates = s.plates ∧ (s.returnToWaiting r b ref).comps = s.comps ∧
    (s.returnToWaiting r b ref).hlm = s.hlm ∧ (s.returnToWaiting r b ref).pst = s.pst ∧
    (s.returnToWaiting r b ref).freeCount = s.freeCount ∧
    (∀ k : Lane, (s.returnToWaiting r b ref).lane k = s.lane k) ∧
    (∀ e : Deck, (s.returnToWaiting r b ref).deck e = s.deck e) ∧
    (∀ q : Ramp, (s.returnToWaiting r b ref).plate q = s.plate q) ∧
    (∀ q : Ramp, (s.returnToWaiting r b ref).comp q = s.comp q) ∧ (s.returnToWaiting r b ref).profile = s.profile ∧
    (s.returnToWaiting r b ref).vessel = s.vessel ∧
    (∀ l₀ : Lane, (s.returnToWaiting r b ref).laneFixed l₀ = s.laneFixed l₀) ∧
    (∀ r₀ : Ramp, (s.returnToWaiting r b ref).rampFixed r₀ = s.rampFixed r₀) ∧
    (∀ d₀ : Deck, (s.returnToWaiting r b ref).deckFixed d₀ = s.deckFixed d₀) ∧
    (s.returnToWaiting r b ref).laneCount = s.laneCount ∧
    (s.returnToWaiting r b ref).laneNumbers = s.laneNumbers :=
  by
    unfold State.returnToWaiting; simp

@[simp] theorem State.refill_frame (d : Deck) :
    (s.refill d).pending = s.pending ∧ (s.refill d).session = s.session ∧ (s.refill d).units = s.units ∧
    (s.refill d).checkIn = s.checkIn ∧ (s.refill d).ageing = s.ageing ∧ (s.refill d).lanes = s.lanes ∧
    (s.refill d).stb = s.stb ∧ (s.refill d).alc = s.alc ∧ (s.refill d).csc = s.csc ∧
    (s.refill d).plates = s.plates ∧ (s.refill d).comps = s.comps ∧ (s.refill d).hlm = s.hlm ∧
    (s.refill d).pst = s.pst ∧ (s.refill d).freeCount = s.freeCount ∧
    (∀ k : Lane, (s.refill d).lane k = s.lane k) ∧ (∀ q : Ramp, (s.refill d).ramp q = s.ramp q) ∧
    (∀ q : Ramp, (s.refill d).plate q = s.plate q) ∧ (∀ q : Ramp, (s.refill d).comp q = s.comp q) ∧
    (∀ ref₀ : Ref, (s.refill d).unit? ref₀ = s.unit? ref₀) ∧
    (∀ ref₀ : Ref, (s.refill d).statusOf ref₀ = s.statusOf ref₀) ∧
    (∀ ref₀ : Ref, (s.refill d).lengthOf ref₀ = s.lengthOf ref₀) ∧ (s.refill d).profile = s.profile ∧
    (s.refill d).vessel = s.vessel ∧ (∀ l₀ : Lane, (s.refill d).laneFixed l₀ = s.laneFixed l₀) ∧
    (∀ r₀ : Ramp, (s.refill d).rampFixed r₀ = s.rampFixed r₀) ∧
    (∀ d₀ : Deck, (s.refill d).deckFixed d₀ = s.deckFixed d₀) ∧ (s.refill d).laneCount = s.laneCount ∧
    (s.refill d).laneNumbers = s.laneNumbers :=
  by
    unfold State.refill; simp

@[simp] theorem State.writeCrossing_frame (ref : Ref) (x : CrossingResult) (b : Bool) :
    (s.writeCrossing ref x b).pending = s.pending ∧ (s.writeCrossing ref x b).session = s.session ∧
    (s.writeCrossing ref x b).link = s.link ∧ (s.writeCrossing ref x b).checkIn = s.checkIn ∧
    (s.writeCrossing ref x b).ageing = s.ageing ∧ (s.writeCrossing ref x b).lanes = s.lanes ∧
    (s.writeCrossing ref x b).decks = s.decks ∧ (s.writeCrossing ref x b).stb = s.stb ∧
    (s.writeCrossing ref x b).alc = s.alc ∧ (s.writeCrossing ref x b).csc = s.csc ∧
    (s.writeCrossing ref x b).plates = s.plates ∧ (s.writeCrossing ref x b).comps = s.comps ∧
    (s.writeCrossing ref x b).hlm = s.hlm ∧ (s.writeCrossing ref x b).pst = s.pst ∧
    (s.writeCrossing ref x b).freeCount = s.freeCount ∧ (∀ k : Lane, (s.writeCrossing ref x b).lane k = s.lane k) ∧
    (∀ e : Deck, (s.writeCrossing ref x b).deck e = s.deck e) ∧
    (∀ q : Ramp, (s.writeCrossing ref x b).ramp q = s.ramp q) ∧
    (∀ q : Ramp, (s.writeCrossing ref x b).plate q = s.plate q) ∧
    (∀ q : Ramp, (s.writeCrossing ref x b).comp q = s.comp q) ∧ (s.writeCrossing ref x b).profile = s.profile ∧
    (s.writeCrossing ref x b).vessel = s.vessel ∧
    (∀ l₀ : Lane, (s.writeCrossing ref x b).laneFixed l₀ = s.laneFixed l₀) ∧
    (∀ r₀ : Ramp, (s.writeCrossing ref x b).rampFixed r₀ = s.rampFixed r₀) ∧
    (∀ d₀ : Deck, (s.writeCrossing ref x b).deckFixed d₀ = s.deckFixed d₀) ∧
    (s.writeCrossing ref x b).laneCount = s.laneCount ∧ (s.writeCrossing ref x b).laneNumbers = s.laneNumbers :=
  by
    exact ⟨rfl, rfl, rfl, rfl, rfl, rfl, rfl, rfl, rfl, rfl, rfl, rfl, rfl, rfl, rfl, fun _ => rfl, fun _ =>
      rfl, fun _ => rfl, fun _ => rfl, fun _ => rfl, rfl, rfl, fun _ => rfl, fun _ => rfl, fun _ => rfl, rfl,
      rfl⟩

@[simp] theorem State.reserve_frame (v : UnitRecord) (l : Lane) :
    (s.reserve v l).pending = s.pending ∧ (s.reserve v l).session = s.session ∧
    (s.reserve v l).checkIn = s.checkIn ∧ (s.reserve v l).ageing = s.ageing ∧ (s.reserve v l).decks = s.decks ∧
    (s.reserve v l).alc = s.alc ∧ (s.reserve v l).plates = s.plates ∧ (s.reserve v l).comps = s.comps ∧
    (s.reserve v l).hlm = s.hlm ∧ (s.reserve v l).pst = s.pst ∧ (s.reserve v l).freeCount = s.freeCount ∧
    (∀ e : Deck, (s.reserve v l).deck e = s.deck e) ∧ (∀ q : Ramp, (s.reserve v l).plate q = s.plate q) ∧
    (∀ q : Ramp, (s.reserve v l).comp q = s.comp q) ∧ (s.reserve v l).profile = s.profile ∧
    (s.reserve v l).vessel = s.vessel ∧ (∀ l₀ : Lane, (s.reserve v l).laneFixed l₀ = s.laneFixed l₀) ∧
    (∀ r₀ : Ramp, (s.reserve v l).rampFixed r₀ = s.rampFixed r₀) ∧
    (∀ d₀ : Deck, (s.reserve v l).deckFixed d₀ = s.deckFixed d₀) ∧ (s.reserve v l).laneCount = s.laneCount ∧
    (s.reserve v l).laneNumbers = s.laneNumbers :=
  by
    unfold State.reserve; simp

@[simp] theorem State.failPlacement_frame (ref : Ref) :
    (s.failPlacement ref).pending = s.pending ∧ (s.failPlacement ref).session = s.session ∧
    (s.failPlacement ref).link = s.link ∧ (s.failPlacement ref).checkIn = s.checkIn ∧
    (s.failPlacement ref).ageing = s.ageing ∧ (s.failPlacement ref).lanes = s.lanes ∧
    (s.failPlacement ref).decks = s.decks ∧ (s.failPlacement ref).stb = s.stb ∧ (s.failPlacement ref).csc = s.csc ∧
    (s.failPlacement ref).plates = s.plates ∧ (s.failPlacement ref).comps = s.comps ∧
    (s.failPlacement ref).hlm = s.hlm ∧ (s.failPlacement ref).pst = s.pst ∧
    (s.failPlacement ref).freeCount = s.freeCount ∧ (∀ k : Lane, (s.failPlacement ref).lane k = s.lane k) ∧
    (∀ e : Deck, (s.failPlacement ref).deck e = s.deck e) ∧ (∀ q : Ramp, (s.failPlacement ref).ramp q = s.ramp q) ∧
    (∀ q : Ramp, (s.failPlacement ref).plate q = s.plate q) ∧
    (∀ q : Ramp, (s.failPlacement ref).comp q = s.comp q) ∧ (s.failPlacement ref).profile = s.profile ∧
    (s.failPlacement ref).vessel = s.vessel ∧ (∀ l₀ : Lane, (s.failPlacement ref).laneFixed l₀ = s.laneFixed l₀) ∧
    (∀ r₀ : Ramp, (s.failPlacement ref).rampFixed r₀ = s.rampFixed r₀) ∧
    (∀ d₀ : Deck, (s.failPlacement ref).deckFixed d₀ = s.deckFixed d₀) ∧
    (s.failPlacement ref).laneCount = s.laneCount ∧ (s.failPlacement ref).laneNumbers = s.laneNumbers :=
  by
    exact ⟨rfl, rfl, rfl, rfl, rfl, rfl, rfl, rfl, rfl, rfl, rfl, rfl, rfl, rfl, fun _ => rfl, fun _ => rfl,
      fun _ => rfl, fun _ => rfl, fun _ => rfl, rfl, rfl, fun _ => rfl, fun _ => rfl, fun _ => rfl, rfl, rfl⟩

@[simp] theorem State.board_frame (v : UnitRecord) (l : Lane) (o w : Nat) (x : CrossingResult) (b : Bool) :
    (s.board v l o w x b).pending = s.pending ∧ (s.board v l o w x b).session = s.session ∧
    (s.board v l o w x b).checkIn = s.checkIn ∧ (s.board v l o w x b).ageing = s.ageing ∧
    (s.board v l o w x b).alc = s.alc ∧ (s.board v l o w x b).csc = s.csc ∧
    (s.board v l o w x b).plates = s.plates ∧ (s.board v l o w x b).comps = s.comps ∧
    (s.board v l o w x b).hlm = s.hlm ∧ (s.board v l o w x b).pst = s.pst ∧
    (s.board v l o w x b).freeCount = s.freeCount ∧ (∀ q : Ramp, (s.board v l o w x b).ramp q = s.ramp q) ∧
    (∀ q : Ramp, (s.board v l o w x b).plate q = s.plate q) ∧
    (∀ q : Ramp, (s.board v l o w x b).comp q = s.comp q) ∧ (s.board v l o w x b).profile = s.profile ∧
    (s.board v l o w x b).vessel = s.vessel ∧ (∀ l₀ : Lane, (s.board v l o w x b).laneFixed l₀ = s.laneFixed l₀) ∧
    (∀ r₀ : Ramp, (s.board v l o w x b).rampFixed r₀ = s.rampFixed r₀) ∧
    (∀ d₀ : Deck, (s.board v l o w x b).deckFixed d₀ = s.deckFixed d₀) ∧
    (s.board v l o w x b).laneCount = s.laneCount ∧ (s.board v l o w x b).laneNumbers = s.laneNumbers :=
  by
    unfold State.board; simp

@[simp] theorem State.closeRamp_frame (r : Ramp) :
    (s.closeRamp r).pending = s.pending ∧ (s.closeRamp r).session = s.session ∧ (s.closeRamp r).units = s.units ∧
    (s.closeRamp r).checkIn = s.checkIn ∧ (s.closeRamp r).ageing = s.ageing ∧ (s.closeRamp r).lanes = s.lanes ∧
    (s.closeRamp r).decks = s.decks ∧ (s.closeRamp r).stb = s.stb ∧ (s.closeRamp r).alc = s.alc ∧
    (s.closeRamp r).comps = s.comps ∧ (s.closeRamp r).hlm = s.hlm ∧ (s.closeRamp r).pst = s.pst ∧
    (s.closeRamp r).freeCount = s.freeCount ∧ (∀ k : Lane, (s.closeRamp r).lane k = s.lane k) ∧
    (∀ e : Deck, (s.closeRamp r).deck e = s.deck e) ∧ (∀ q : Ramp, (s.closeRamp r).comp q = s.comp q) ∧
    (∀ ref₀ : Ref, (s.closeRamp r).unit? ref₀ = s.unit? ref₀) ∧
    (∀ ref₀ : Ref, (s.closeRamp r).statusOf ref₀ = s.statusOf ref₀) ∧
    (∀ ref₀ : Ref, (s.closeRamp r).lengthOf ref₀ = s.lengthOf ref₀) ∧ (s.closeRamp r).profile = s.profile ∧
    (s.closeRamp r).vessel = s.vessel ∧ (∀ l₀ : Lane, (s.closeRamp r).laneFixed l₀ = s.laneFixed l₀) ∧
    (∀ r₀ : Ramp, (s.closeRamp r).rampFixed r₀ = s.rampFixed r₀) ∧
    (∀ d₀ : Deck, (s.closeRamp r).deckFixed d₀ = s.deckFixed d₀) ∧ (s.closeRamp r).laneCount = s.laneCount ∧
    (s.closeRamp r).laneNumbers = s.laneNumbers :=
  by
    unfold State.closeRamp; simp

@[simp] theorem State.releaseFromLane_frame (l : Lane) (ref : Ref) :
    (s.releaseFromLane l ref).pending = s.pending ∧ (s.releaseFromLane l ref).session = s.session ∧
    (s.releaseFromLane l ref).checkIn = s.checkIn ∧ (s.releaseFromLane l ref).ageing = s.ageing ∧
    (s.releaseFromLane l ref).decks = s.decks ∧ (s.releaseFromLane l ref).alc = s.alc ∧
    (s.releaseFromLane l ref).plates = s.plates ∧ (s.releaseFromLane l ref).comps = s.comps ∧
    (s.releaseFromLane l ref).hlm = s.hlm ∧ (s.releaseFromLane l ref).pst = s.pst ∧
    (s.releaseFromLane l ref).freeCount = s.freeCount ∧ (∀ e : Deck, (s.releaseFromLane l ref).deck e = s.deck e) ∧
    (∀ q : Ramp, (s.releaseFromLane l ref).plate q = s.plate q) ∧
    (∀ q : Ramp, (s.releaseFromLane l ref).comp q = s.comp q) ∧ (s.releaseFromLane l ref).profile = s.profile ∧
    (s.releaseFromLane l ref).vessel = s.vessel ∧
    (∀ l₀ : Lane, (s.releaseFromLane l ref).laneFixed l₀ = s.laneFixed l₀) ∧
    (∀ r₀ : Ramp, (s.releaseFromLane l ref).rampFixed r₀ = s.rampFixed r₀) ∧
    (∀ d₀ : Deck, (s.releaseFromLane l ref).deckFixed d₀ = s.deckFixed d₀) ∧
    (s.releaseFromLane l ref).laneCount = s.laneCount ∧ (s.releaseFromLane l ref).laneNumbers = s.laneNumbers :=
  by
    unfold State.releaseFromLane; dsimp only; split <;> simp

@[simp] theorem State.readHeel_frame (c : BitVec 10) :
    (s.readHeel c).pending = s.pending ∧ (s.readHeel c).session = s.session ∧ (s.readHeel c).units = s.units ∧
    (s.readHeel c).checkIn = s.checkIn ∧ (s.readHeel c).ageing = s.ageing ∧ (s.readHeel c).lanes = s.lanes ∧
    (s.readHeel c).decks = s.decks ∧ (s.readHeel c).stb = s.stb ∧ (s.readHeel c).alc = s.alc ∧
    (s.readHeel c).csc = s.csc ∧ (s.readHeel c).plates = s.plates ∧ (s.readHeel c).comps = s.comps ∧
    (s.readHeel c).pst = s.pst ∧ (s.readHeel c).freeCount = s.freeCount ∧
    (∀ k : Lane, (s.readHeel c).lane k = s.lane k) ∧ (∀ e : Deck, (s.readHeel c).deck e = s.deck e) ∧
    (∀ q : Ramp, (s.readHeel c).ramp q = s.ramp q) ∧ (∀ q : Ramp, (s.readHeel c).plate q = s.plate q) ∧
    (∀ q : Ramp, (s.readHeel c).comp q = s.comp q) ∧ (∀ ref₀ : Ref, (s.readHeel c).unit? ref₀ = s.unit? ref₀) ∧
    (∀ ref₀ : Ref, (s.readHeel c).statusOf ref₀ = s.statusOf ref₀) ∧
    (∀ ref₀ : Ref, (s.readHeel c).lengthOf ref₀ = s.lengthOf ref₀) ∧ (s.readHeel c).profile = s.profile ∧
    (s.readHeel c).vessel = s.vessel ∧ (∀ l₀ : Lane, (s.readHeel c).laneFixed l₀ = s.laneFixed l₀) ∧
    (∀ r₀ : Ramp, (s.readHeel c).rampFixed r₀ = s.rampFixed r₀) ∧
    (∀ d₀ : Deck, (s.readHeel c).deckFixed d₀ = s.deckFixed d₀) ∧ (s.readHeel c).laneCount = s.laneCount ∧
    (s.readHeel c).laneNumbers = s.laneNumbers :=
  by
    unfold State.readHeel; simp

@[simp] theorem State.takeSample_frame (a b : BitVec 8) (c : BitVec 10) :
    (s.takeSample a b c).pending = s.pending ∧ (s.takeSample a b c).session = s.session ∧
    (s.takeSample a b c).units = s.units ∧ (s.takeSample a b c).checkIn = s.checkIn ∧
    (s.takeSample a b c).ageing = s.ageing ∧ (s.takeSample a b c).lanes = s.lanes ∧
    (s.takeSample a b c).decks = s.decks ∧ (s.takeSample a b c).stb = s.stb ∧ (s.takeSample a b c).alc = s.alc ∧
    (s.takeSample a b c).csc = s.csc ∧ (s.takeSample a b c).plates = s.plates ∧ (s.takeSample a b c).pst = s.pst ∧
    (s.takeSample a b c).freeCount = s.freeCount ∧ (∀ k : Lane, (s.takeSample a b c).lane k = s.lane k) ∧
    (∀ e : Deck, (s.takeSample a b c).deck e = s.deck e) ∧ (∀ q : Ramp, (s.takeSample a b c).ramp q = s.ramp q) ∧
    (∀ q : Ramp, (s.takeSample a b c).plate q = s.plate q) ∧
    (∀ ref₀ : Ref, (s.takeSample a b c).unit? ref₀ = s.unit? ref₀) ∧
    (∀ ref₀ : Ref, (s.takeSample a b c).statusOf ref₀ = s.statusOf ref₀) ∧
    (∀ ref₀ : Ref, (s.takeSample a b c).lengthOf ref₀ = s.lengthOf ref₀) ∧
    (s.takeSample a b c).profile = s.profile ∧ (s.takeSample a b c).vessel = s.vessel ∧
    (∀ l₀ : Lane, (s.takeSample a b c).laneFixed l₀ = s.laneFixed l₀) ∧
    (∀ r₀ : Ramp, (s.takeSample a b c).rampFixed r₀ = s.rampFixed r₀) ∧
    (∀ d₀ : Deck, (s.takeSample a b c).deckFixed d₀ = s.deckFixed d₀) ∧
    (s.takeSample a b c).laneCount = s.laneCount ∧ (s.takeSample a b c).laneNumbers = s.laneNumbers :=
  by
    unfold State.takeSample; simp

@[simp] theorem State.unsample_frame (r : Ramp) :
    (s.unsample r).pending = s.pending ∧ (s.unsample r).session = s.session ∧ (s.unsample r).units = s.units ∧
    (s.unsample r).checkIn = s.checkIn ∧ (s.unsample r).ageing = s.ageing ∧ (s.unsample r).lanes = s.lanes ∧
    (s.unsample r).decks = s.decks ∧ (s.unsample r).stb = s.stb ∧ (s.unsample r).alc = s.alc ∧
    (s.unsample r).csc = s.csc ∧ (s.unsample r).plates = s.plates ∧ (s.unsample r).hlm = s.hlm ∧
    (s.unsample r).pst = s.pst ∧ (s.unsample r).freeCount = s.freeCount ∧
    (∀ k : Lane, (s.unsample r).lane k = s.lane k) ∧ (∀ e : Deck, (s.unsample r).deck e = s.deck e) ∧
    (∀ q : Ramp, (s.unsample r).ramp q = s.ramp q) ∧ (∀ q : Ramp, (s.unsample r).plate q = s.plate q) ∧
    (∀ ref₀ : Ref, (s.unsample r).unit? ref₀ = s.unit? ref₀) ∧
    (∀ ref₀ : Ref, (s.unsample r).statusOf ref₀ = s.statusOf ref₀) ∧
    (∀ ref₀ : Ref, (s.unsample r).lengthOf ref₀ = s.lengthOf ref₀) ∧ (s.unsample r).profile = s.profile ∧
    (s.unsample r).vessel = s.vessel ∧ (∀ l₀ : Lane, (s.unsample r).laneFixed l₀ = s.laneFixed l₀) ∧
    (∀ r₀ : Ramp, (s.unsample r).rampFixed r₀ = s.rampFixed r₀) ∧
    (∀ d₀ : Deck, (s.unsample r).deckFixed d₀ = s.deckFixed d₀) ∧ (s.unsample r).laneCount = s.laneCount ∧
    (s.unsample r).laneNumbers = s.laneNumbers :=
  by
    unfold State.unsample; dsimp only; split <;> exact ⟨rfl, rfl, rfl, rfl, rfl, rfl, rfl, rfl, rfl, rfl, rfl, rfl, rfl, rfl, fun _ => rfl, fun _ => rfl,
      fun _ => rfl, fun _ => rfl, fun _ => rfl, fun _ => rfl, fun _ => rfl, rfl, rfl, fun _ => rfl, fun _ =>
      rfl, fun _ => rfl, rfl, rfl⟩

@[simp] theorem State.stopMonitors_frame :
    (s.stopMonitors).pending = s.pending ∧ (s.stopMonitors).session = s.session ∧
    (s.stopMonitors).units = s.units ∧ (s.stopMonitors).checkIn = s.checkIn ∧ (s.stopMonitors).ageing = s.ageing ∧
    (s.stopMonitors).lanes = s.lanes ∧ (s.stopMonitors).decks = s.decks ∧ (s.stopMonitors).stb = s.stb ∧
    (s.stopMonitors).alc = s.alc ∧ (s.stopMonitors).csc = s.csc ∧ (s.stopMonitors).plates = s.plates ∧
    (s.stopMonitors).pst = s.pst ∧ (s.stopMonitors).freeCount = s.freeCount ∧
    (∀ k : Lane, (s.stopMonitors).lane k = s.lane k) ∧ (∀ e : Deck, (s.stopMonitors).deck e = s.deck e) ∧
    (∀ q : Ramp, (s.stopMonitors).ramp q = s.ramp q) ∧ (∀ q : Ramp, (s.stopMonitors).plate q = s.plate q) ∧
    (∀ ref₀ : Ref, (s.stopMonitors).unit? ref₀ = s.unit? ref₀) ∧
    (∀ ref₀ : Ref, (s.stopMonitors).statusOf ref₀ = s.statusOf ref₀) ∧
    (∀ ref₀ : Ref, (s.stopMonitors).lengthOf ref₀ = s.lengthOf ref₀) ∧ (s.stopMonitors).profile = s.profile ∧
    (s.stopMonitors).vessel = s.vessel ∧ (∀ l₀ : Lane, (s.stopMonitors).laneFixed l₀ = s.laneFixed l₀) ∧
    (∀ r₀ : Ramp, (s.stopMonitors).rampFixed r₀ = s.rampFixed r₀) ∧
    (∀ d₀ : Deck, (s.stopMonitors).deckFixed d₀ = s.deckFixed d₀) ∧ (s.stopMonitors).laneCount = s.laneCount ∧
    (s.stopMonitors).laneNumbers = s.laneNumbers :=
  by
    unfold State.stopMonitors; simp

@[simp] theorem State.startSampling_frame :
    (s.startSampling).pending = s.pending ∧ (s.startSampling).session = s.session ∧
    (s.startSampling).link = s.link ∧ (s.startSampling).units = s.units ∧ (s.startSampling).checkIn = s.checkIn ∧
    (s.startSampling).ageing = s.ageing ∧ (s.startSampling).lanes = s.lanes ∧ (s.startSampling).decks = s.decks ∧
    (s.startSampling).stb = s.stb ∧ (s.startSampling).alc = s.alc ∧ (s.startSampling).csc = s.csc ∧
    (s.startSampling).plates = s.plates ∧ (s.startSampling).comps = s.comps ∧ (s.startSampling).pst = s.pst ∧
    (s.startSampling).freeCount = s.freeCount ∧ (∀ k : Lane, (s.startSampling).lane k = s.lane k) ∧
    (∀ e : Deck, (s.startSampling).deck e = s.deck e) ∧ (∀ q : Ramp, (s.startSampling).ramp q = s.ramp q) ∧
    (∀ q : Ramp, (s.startSampling).plate q = s.plate q) ∧ (∀ q : Ramp, (s.startSampling).comp q = s.comp q) ∧
    (∀ ref₀ : Ref, (s.startSampling).unit? ref₀ = s.unit? ref₀) ∧
    (∀ ref₀ : Ref, (s.startSampling).statusOf ref₀ = s.statusOf ref₀) ∧
    (∀ ref₀ : Ref, (s.startSampling).lengthOf ref₀ = s.lengthOf ref₀) ∧ (s.startSampling).profile = s.profile ∧
    (s.startSampling).vessel = s.vessel ∧ (∀ l₀ : Lane, (s.startSampling).laneFixed l₀ = s.laneFixed l₀) ∧
    (∀ r₀ : Ramp, (s.startSampling).rampFixed r₀ = s.rampFixed r₀) ∧
    (∀ d₀ : Deck, (s.startSampling).deckFixed d₀ = s.deckFixed d₀) ∧ (s.startSampling).laneCount = s.laneCount ∧
    (s.startSampling).laneNumbers = s.laneNumbers :=
  by
    exact ⟨rfl, rfl, rfl, rfl, rfl, rfl, rfl, rfl, rfl, rfl, rfl, rfl, rfl, rfl, rfl, fun _ => rfl, fun _ =>
      rfl, fun _ => rfl, fun _ => rfl, fun _ => rfl, fun _ => rfl, fun _ => rfl, fun _ => rfl, rfl, rfl, fun _
      => rfl, fun _ => rfl, fun _ => rfl, rfl, rfl⟩

end Sys2Proof.Machine
end

