-- ==== Sys2Proof/Laws/Lists.lean ====
section
/-!
SUPPORT. The orders that the lane lists keep: obstruction records in order of start (R32), occupants in rising order of
offset (R25); and that a feasible placement never lies below its start point (R27).
-/

namespace Sys2Proof.Machine

open Sys2Proof

/-- A new record joins the others and displaces none (R32). -/
theorem insertObstruction_perm (x : Obstruction) (xs : List Obstruction) : (insertObstruction x xs).Perm (x :: xs) := by
  induction xs with
  | nil => exact .refl _
  | cons y rest ih =>
    simp only [insertObstruction]
    split
    · exact .refl _
    · exact (ih.cons y).trans (.swap x y rest)

theorem mem_insertObstruction {x z : Obstruction} {xs : List Obstruction} :
    z ∈ insertObstruction x xs ↔ z = x ∨ z ∈ xs := by
  rw [(insertObstruction_perm x xs).mem_iff, List.mem_cons]

/-- Records stay in order of start (R32). -/
theorem insertObstruction_pairwise {x : Obstruction} {xs : List Obstruction}
    (h : xs.Pairwise fun y z => y.start ≤ z.start) :
    (insertObstruction x xs).Pairwise fun y z => y.start ≤ z.start := by
  induction xs with
  | nil => simp [insertObstruction]
  | cons y rest ih =>
    obtain ⟨hy, hr⟩ := List.pairwise_cons.mp h
    simp only [insertObstruction]
    split
    · rename_i hx
      refine List.pairwise_cons.mpr ⟨fun z hz => ?_, h⟩
      obtain rfl | hz := List.mem_cons.mp hz
      · exact hx.le
      · exact hx.le.trans (hy z hz)
    · rename_i hx
      refine List.pairwise_cons.mpr ⟨fun z hz => ?_, ih hr⟩
      obtain rfl | hz := mem_insertObstruction.mp hz
      · omega
      · exact hy z hz

/-- A new occupant stands between those of smaller and those of larger offset (R25, R156). -/
theorem insertOccupant_eq {x : Occupant} {os : List Occupant} (h : os.Pairwise fun o p => o.offset < p.offset)
    (hx : ∀ o ∈ os, o.offset ≠ x.offset) :
    insertOccupant x os =
      os.filter (fun o => decide (o.offset < x.offset)) ++ x :: os.filter fun o => decide (x.offset < o.offset) := by
  induction os with
  | nil => rfl
  | cons y rest ih =>
    obtain ⟨hy, hr⟩ := List.pairwise_cons.mp h
    have hne := hx y (.head _)
    simp only [insertOccupant]
    split
    · rename_i hlt
      have below : ∀ o ∈ y :: rest, ¬ o.offset < x.offset := fun o ho => by
        obtain rfl | ho := List.mem_cons.mp ho
        · omega
        · have := hy o ho; omega
      have above : ∀ o ∈ y :: rest, x.offset < o.offset := fun o ho => by
        have := below o ho; have := hx o ho; omega
      rw [List.filter_eq_nil_iff.mpr (by simpa using below), List.filter_eq_self.mpr (by simpa using above)]
      rfl
    · rename_i hge
      have hlt : y.offset < x.offset := by omega
      rw [ih hr fun o ho => hx o (.tail _ ho), List.filter_cons_of_pos (by simpa using hlt),
        List.filter_cons_of_neg (by simp; omega)]
      rfl

theorem le_slide (obs : List Obstruction) (length fuel o : Nat) : o ≤ slide obs length fuel o := by
  induction fuel generalizing o with
  | zero => exact le_refl o
  | succ fuel ih =>
    simp only [slide]
    split
    · rename_i x hx
      have h := List.find?_some hx
      simp only [meets, Bool.and_eq_true, decide_eq_true_eq] at h
      exact h.1.le.trans (ih _)
    · exact le_refl o

/-- A feasible placement starts at or beyond its start point (R27). -/
theorem start_le_feasible (obs : List Obstruction) (length start : Nat) : start ≤ feasible obs length start :=
  le_slide obs length obs.length start

/-- A commit offset lies at or beyond the point where the first unit beyond the occupants may start (R28, R29). -/
theorem startPoint_le_commitOffset (s : State) (l : Lane) (length : Nat) : s.startPoint l ≤ s.commitOffset l length :=
  start_le_feasible _ _ _

end Sys2Proof.Machine
end

