-- ==== Sys2Proof/Laws/Memory.lean ====
section
/-!
SUPPORT. The profile memory's operations: each keeps the canonical form, a read after a write gives the byte written,
and a write leaves every other address alone.
-/

namespace Sys2Proof.Machine

open Sys2Proof

theorem memWfFrom_mono {lo hi : Nat} (h : lo ≤ hi) {m : List Host.Cell} (w : memWfFrom hi m = true) :
    memWfFrom lo m = true := by
  cases m with
  | nil => rfl
  | cons c rest =>
    obtain ⟨a, b⟩ := c
    simp only [memWfFrom, Bool.and_eq_true, decide_eq_true_eq] at w ⊢
    exact ⟨⟨⟨by omega, w.1.1.2⟩, w.1.2⟩, w.2⟩

/-- A write at or above the floor keeps the canonical form. -/
theorem memPut_wfFrom {lo addr : Nat} {v : Byte} {m : List Host.Cell} (w : memWfFrom lo m = true) (h : lo ≤ addr)
    (t : addr < Config.memSize) : memWfFrom lo (memPut addr v m) = true := by
  induction m generalizing lo with
  | nil => unfold memPut; split <;> simp [memWfFrom, *]
  | cons c rest ih =>
    obtain ⟨a, b⟩ := c
    have w' := w
    simp only [memWfFrom, Bool.and_eq_true, decide_eq_true_eq] at w
    obtain ⟨⟨⟨h1, h2⟩, h3⟩, h4⟩ := w
    unfold memPut
    by_cases lt : addr < a
    · by_cases hv : v = Config.blankByte
      · simpa [lt, hv] using w'
      · simp only [lt, hv, if_true, if_false, memWfFrom, Bool.and_eq_true, decide_eq_true_eq, ne_eq, not_false_eq_true]
        exact ⟨⟨⟨h, t⟩, trivial⟩, ⟨⟨by omega, h2⟩, h3⟩, h4⟩
    · by_cases eq : addr = a
      · by_cases hv : v = Config.blankByte
        · simpa [lt, eq, hv] using memWfFrom_mono (by omega) h4
        · simp only [eq, hv, if_true, if_false, memWfFrom, Bool.and_eq_true, decide_eq_true_eq, ne_eq,
            not_false_eq_true, Nat.lt_irrefl]
          exact ⟨⟨⟨h1, h2⟩, trivial⟩, h4⟩
      · simp only [lt, eq, if_false, memWfFrom, Bool.and_eq_true, decide_eq_true_eq]
        exact ⟨⟨⟨h1, h2⟩, h3⟩, ih h4 (by omega)⟩

/-- A write of one byte keeps the canonical form. -/
theorem memPut_wf {addr : Nat} (v : Byte) {m : List Host.Cell} (w : Memory.wf m = true) (t : addr < Config.memSize) :
    Memory.wf (memPut addr v m) = true := memPut_wfFrom w (Nat.zero_le _) t

/-- A write of several bytes that ends within the memory keeps it. -/
theorem memPuts_wf {addr : Nat} (bs : List Byte) {m : List Host.Cell} (w : Memory.wf m = true)
    (t : addr + bs.length ≤ Config.memSize) : Memory.wf (memPuts addr bs m) = true := by
  induction bs generalizing addr m with
  | nil => exact w
  | cons b bs ih =>
    simp only [List.length_cons] at t
    exact ih (memPut_wf b w (by omega)) (by omega)

theorem memPut_nil_get (addr x : Nat) (v : Byte) :
    memGet (memPut addr v []) x = if x = addr then v else Config.blankByte := by
  unfold memPut
  by_cases hv : v = Config.blankByte
  · simp [hv, memGet]
  · simp only [hv, if_false, memGet]
    by_cases h : addr = x
    · simp [h]
    · simp [h, Ne.symm h]

/-- An address below a canonical memory's floor reads as an unlisted one. -/
theorem memGet_below {lo x : Nat} {m : List Host.Cell} (w : memWfFrom lo m = true) (h : x < lo) :
    memGet m x = Config.blankByte := by
  induction m generalizing lo with
  | nil => rfl
  | cons c rest ih =>
    obtain ⟨a, b⟩ := c
    simp only [memWfFrom, Bool.and_eq_true, decide_eq_true_eq] at w
    have : a ≠ x := by omega
    simp only [memGet, this, if_false]
    exact ih w.2 (by omega)

theorem memGet_memPut_from {lo addr : Nat} {v : Byte} {m : List Host.Cell} (w : memWfFrom lo m = true) (x : Nat) :
    memGet (memPut addr v m) x = if x = addr then v else memGet m x := by
  induction m generalizing lo with
  | nil => simpa [memGet] using memPut_nil_get addr x v
  | cons c rest ih =>
    obtain ⟨a, b⟩ := c
    simp only [memWfFrom, Bool.and_eq_true, decide_eq_true_eq] at w
    obtain ⟨⟨⟨h1, h2⟩, h3⟩, h4⟩ := w
    unfold memPut
    by_cases lt : addr < a
    · by_cases hv : v = Config.blankByte
      · simp only [lt, hv, if_true]
        by_cases hx : x = addr
        · subst hx
          have : a ≠ x := by omega
          simp [memGet, this, memGet_below h4 (show x < a + 1 by omega)]
        · simp [hx]
      · simp only [lt, hv, if_true, if_false]
        by_cases hx : x = addr
        · simp [memGet, hx]
        · simp [memGet, hx, Ne.symm hx]
    · by_cases eq : addr = a
      · subst eq
        by_cases hv : v = Config.blankByte
        · simp only [Nat.lt_irrefl, hv, if_true, if_false]
          by_cases hx : x = addr
          · simp [hx, memGet_below h4 (Nat.lt_succ_self addr)]
          · simp [memGet, hx, Ne.symm hx]
        · simp only [Nat.lt_irrefl, hv, if_true, if_false]
          by_cases hx : x = addr
          · simp [memGet, hx]
          · simp [memGet, hx, Ne.symm hx]
      · simp only [lt, eq, if_false, memGet, ih h4]
        by_cases hx : a = x
        · subst hx; simp [Ne.symm eq]
        · simp [hx]

/-- A read after a write: the byte written at its address, the byte that was there at every other. -/
theorem memGet_memPut {addr : Nat} {v : Byte} {m : List Host.Cell} (w : Memory.wf m = true) (x : Nat) :
    memGet (memPut addr v m) x = if x = addr then v else memGet m x := memGet_memPut_from w x

/-- A read after a write of several bytes. -/
theorem memGet_memPuts {addr : Nat} (bs : List Byte) {m : List Host.Cell} (w : Memory.wf m = true)
    (t : addr + bs.length ≤ Config.memSize) (x : Nat) :
    memGet (memPuts addr bs m) x =
      if addr ≤ x ∧ x < addr + bs.length then bs.getD (x - addr) 0 else memGet m x := by
  induction bs generalizing addr m with
  | nil => simp only [memPuts, List.length_nil]; rw [if_neg (by omega)]
  | cons b bs ih =>
    simp only [List.length_cons] at t ⊢
    rw [memPuts, ih (memPut_wf b w (by omega)) (by omega), memGet_memPut w]
    by_cases hx : x = addr
    · subst hx
      rw [if_neg (by omega), if_pos rfl, if_pos (by omega)]
      simp
    · rw [if_neg hx]
      by_cases hi : addr + 1 ≤ x ∧ x < addr + 1 + bs.length
      · rw [if_pos hi, if_pos (by omega), show x - addr = (x - (addr + 1)) + 1 by omega]
        rfl
      · rw [if_neg hi, if_neg (by omega)]

/-- Whole parts that end within the memory keep the canonical form. -/
theorem storeParts_wf (ps : List (Nat × List Byte)) {m : List Host.Cell} (w : Memory.wf m = true)
    (t : ∀ p ∈ ps, p.1 + p.2.length ≤ Config.memSize) : Memory.wf (storeParts ps m) = true := by
  unfold storeParts
  induction ps generalizing m with
  | nil => exact w
  | cons p ps ih =>
    exact ih (memPuts_wf p.2 w (t p List.mem_cons_self)) fun q h => t q (List.mem_cons_of_mem _ h)

/-- A torn part has as many bytes as the part. -/
@[simp] theorem tornBytes_length (m : List Host.Cell) (addr : Nat) (new mix : List Byte) :
    (tornBytes m addr new mix).length = new.length := by simp [tornBytes]

/-- A write that stopped keeps the canonical form. -/
theorem storePartly_wf (done : Nat) (mix : List Byte) (ps : List (Nat × List Byte)) {m : List Host.Cell}
    (w : Memory.wf m = true) (t : ∀ p ∈ ps, p.1 + p.2.length ≤ Config.memSize) :
    Memory.wf (storePartly done mix ps m) = true := by
  have h1 := storeParts_wf (ps.take done) w fun p h => t p (List.mem_of_mem_take h)
  unfold storePartly
  dsimp only
  split
  · exact h1
  · rename_i p rest e
    have : p ∈ ps := List.mem_of_mem_drop (e ▸ List.mem_cons_self)
    exact memPuts_wf _ h1 (by simpa using t p this)

/-- The parts of a chunk lie within the memory: each is sent to the low three bytes of its address and stays in a page. -/
theorem pageParts_bound (fuel addr : Nat) (bs : List Byte) :
    ∀ p ∈ pageParts fuel addr bs, p.1 + p.2.length ≤ Config.memSize := by
  induction fuel generalizing addr bs with
  | zero => intro p h; cases h
  | succ n ih =>
    intro p h
    unfold pageParts at h
    split at h
    · cases h
    · dsimp only at h
      rcases List.mem_cons.1 h with e | e
      · subst e
        have := List.length_take_le (Config.pageBytes - addr % Config.pageBytes) bs
        simp only [Config.pageBytes, Config.memSize] at *
        omega
      · exact ih _ _ p e

theorem reset_memory_wf : Memory.wf State.reset.pst.mem = true := rfl

end Sys2Proof.Machine
end

