-- ==== Sys2Proof/Laws/Payload.lean ====
section
/-!
SUPPORT. What the byte readers answer: a number off the front of a payload is what its bytes spell, and back (R188);
and the ranges of the declared part as a proposition (R1).
-/

namespace Sys2Proof.Machine

open Sys2Proof

theorem beNat_append (xs : List Byte) (b : Byte) : beNat (xs ++ [b]) = beNat xs * 256 + b.toNat := by
  simp [beNat, List.foldl_append]

theorem foldl_beNat (bs : List Byte) (n : Nat) :
    bs.foldl (fun n b => n * 256 + b.toNat) n = n * 256 ^ bs.length + beNat bs := by
  induction bs generalizing n with
  | nil => simp [beNat]
  | cons b bs ih =>
    have h : beNat (b :: bs) = b.toNat * 256 ^ bs.length + beNat bs := by
      rw [← ih b.toNat]
      simp [beNat]
    rw [List.foldl_cons, ih, h, List.length_cons]
    ring

theorem beNat_cons (b : Byte) (bs : List Byte) : beNat (b :: bs) = b.toNat * 256 ^ bs.length + beNat bs := by
  have h := foldl_beNat bs b.toNat
  simpa [beNat] using h

@[simp] theorem length_beBytes (n v : Nat) : (beBytes n v).length = n := by
  induction n with
  | zero => rfl
  | succ n ih => simp [beBytes, ih]

theorem beNat_lt (bs : List Byte) : beNat bs < 256 ^ bs.length := by
  induction bs with
  | nil => simp [beNat]
  | cons b bs ih =>
    rw [beNat_cons, List.length_cons, Nat.pow_succ]
    have hb : b.toNat < 256 := b.isLt
    nlinarith [Nat.pow_pos (n := bs.length) (show 0 < 256 by decide)]

/-- The bytes of a number spell it, when it fits. -/
theorem beNat_beBytes (n : Nat) {v : Nat} (h : v < 256 ^ n) : beNat (beBytes n v) = v := by
  suffices h' : ∀ v, beNat (beBytes n v) = v % 256 ^ n by rw [h', Nat.mod_eq_of_lt h]
  clear h
  induction n with
  | zero => intro v; simp [beBytes, beNat, Nat.mod_one]
  | succ n ih =>
    intro v
    rw [beBytes, beNat_cons, ih, length_beBytes, Nat.pow_succ, Nat.mod_mul]
    simp only [BitVec.toNat_ofNat]
    ring

theorem beBytes_add (n a v : Nat) : beBytes n (a * 256 ^ n + v) = beBytes n v := by
  induction n generalizing a with
  | zero => rfl
  | succ n ih =>
    have e : a * 256 ^ (n + 1) + v = a * 256 * 256 ^ n + v := by rw [Nat.pow_succ]; ring
    simp only [beBytes]
    rw [e, ih (a * 256)]
    congr 1
    apply BitVec.eq_of_toNat_eq
    have hp : 0 < 256 ^ n := Nat.pow_pos (by decide)
    rw [BitVec.toNat_ofNat, BitVec.toNat_ofNat, Nat.add_comm, Nat.add_mul_div_right _ _ hp]
    omega

/-- Bytes are the bytes of the number they spell. -/
theorem beBytes_beNat (bs : List Byte) : beBytes bs.length (beNat bs) = bs := by
  induction bs with
  | nil => rfl
  | cons b bs ih =>
    rw [beNat_cons, List.length_cons, beBytes, beBytes_add, ih]
    congr 1
    have h := beNat_lt bs
    rw [Nat.add_comm, Nat.add_mul_div_right _ _ (Nat.pow_pos (by decide)), Nat.div_eq_of_lt h]
    simp

/-- All that taking a number off the front of a payload can do (R188). -/
theorem getN_eq_some {n : Nat} {bs rest : List Byte} {v : Nat} :
    getN n bs = some (v, rest) ↔ bs = beBytes n v ++ rest ∧ v < 256 ^ n := by
  constructor
  · intro h
    simp only [getN] at h
    split at h
    · cases h
    · rename_i hn
      cases h
      have hl : (bs.take n).length = n := by simp; omega
      refine ⟨?_, by simpa [hl] using beNat_lt (bs.take n)⟩
      conv_lhs => rw [← List.take_append_drop n bs]
      congr 1
      conv_lhs => rw [← beBytes_beNat (bs.take n), hl]
  · rintro ⟨rfl, hv⟩
    have hn : ¬ (beBytes n v ++ rest).length < n := by simp
    rw [getN, if_neg hn, List.take_left' (length_beBytes n v), List.drop_left' (length_beBytes n v), beNat_beBytes n hv]

theorem inRange_iff {lo hi v : Nat} : inRange lo hi v = true ↔ lo ≤ v ∧ v ≤ hi := by simp [inRange]

theorem optInRange_iff {lo hi : Nat} {v : Option Nat} : optInRange lo hi v = true ↔ ∀ n ∈ v, lo ≤ n ∧ n ≤ hi := by
  cases v <;> simp [optInRange, inRange_iff]

/-- The range check of the declared part is R1's table. -/
theorem declared_inRanges_iff {d : Declared} : d.inRanges = true ↔ DeclaredInRange d := by
  simp only [Declared.inRanges, DeclaredInRange, Bool.and_eq_true, inRange_iff, optInRange_iff, Nat.zero_le, true_and,
    and_assoc]

end Sys2Proof.Machine
end

