-- ==== Sys2Proof/WellFormed.lean ====
section
/-!
DEFINITION. What a command's operands must be to stand for something that can happen outside the part.
The machine gives every command a meaning, well-formed or not; the ranges below are the outside world's.
-/

namespace Sys2Proof

/-- The operands are ones the outside world can give:
- bytes that end a frame are at least the last one (R170);
- a memory write done has at most 128 bytes (R185), a page at most 64 bytes (12_profile_memory_and_start_up.md);
- at a time-out at least one part is not done (R185), at a reset any number may be (R186). -/
def Instr.wellFormed : Instr → Bool
  | .hardwareReset _ _ done mix => decide (done ≤ Config.maxParts) && decide (mix.length ≤ 64)
  | .frameComplete bytes => !bytes.isEmpty
  | .frameDiscarded bytes => !bytes.isEmpty
  | .profileWriteEnd stored => decide (stored.length ≤ 128)
  | .writeTimeout done mix => decide (done < Config.maxParts) && decide (mix.length ≤ 64)
  | .loadEnd _ _ _ | .framingError _ | .badKindRequest | .vesselOpen | .vesselSecure | .vesselReopen
  | .vesselRelease | .book | .amend | .cancel | .checkIn | .present | .holdUnit | .releaseHold | .place
  | .discharge | .rampOpen | .rampClose | .setRamp | .skip | .laneClose | .laneOpen | .obstructionAdd
  | .obstructionClear | .setBallast | .clearFlags | .profileWrite _ | .profileReload | .queryUnit
  | .queryLane | .queryQueue | .queryStatus | .placementServed | .retryWalk | .walkVisit | .redirectSearch
  | .ageingExpiry | .call _ | .intervalTimerExpiry _ | .callTimerExpiry _ | .axleEdge _
  | .conversionComplete _ _ | .gapTimerExpiry _ | .sampleTimerExpiry _ _ _ | .frameSent => true

end Sys2Proof
end

