-- ==== Sys2Proof/Laws/PerInstr.lean ====
section
/-!
SUPPORT. One lemma per command: a request's command is well-formed with every operand it can have, for the fields of a
request are read from its frame (R171) and checked there (R172), not by well-formedness.
-/

namespace Sys2Proof.Laws

open Sys2Proof Sys2Proof.Machine

/-- A command that takes a request is well-formed. -/
def Operands.Statement (i : Instr) : Prop := (requestOf i).isSome = true → i.wellFormed = true

theorem Operands.hardwareReset (baud1 baud0 : Bool) (partsDone : Nat) (mix : List Byte) : Operands.Statement (.hardwareReset baud1 baud0 partsDone mix) := fun h => by cases h
theorem Operands.loadEnd (gradA gradB : BitVec 8) (incl : BitVec 10) : Operands.Statement (.loadEnd gradA gradB incl) := fun h => by cases h
theorem Operands.frameComplete (bytes : List Byte) : Operands.Statement (.frameComplete bytes) := fun h => by cases h
theorem Operands.framingError (bytes : List Byte) : Operands.Statement (.framingError bytes) := fun h => by cases h
theorem Operands.badKindRequest : Operands.Statement .badKindRequest := fun h => by cases h
theorem Operands.vesselOpen : Operands.Statement .vesselOpen := fun _ => rfl
theorem Operands.vesselSecure : Operands.Statement .vesselSecure := fun _ => rfl
theorem Operands.vesselReopen : Operands.Statement .vesselReopen := fun _ => rfl
theorem Operands.vesselRelease : Operands.Statement .vesselRelease := fun _ => rfl
theorem Operands.book : Operands.Statement .book := fun _ => rfl
theorem Operands.amend : Operands.Statement .amend := fun _ => rfl
theorem Operands.cancel : Operands.Statement .cancel := fun _ => rfl
theorem Operands.checkIn : Operands.Statement .checkIn := fun _ => rfl
theorem Operands.present : Operands.Statement .present := fun _ => rfl
theorem Operands.holdUnit : Operands.Statement .holdUnit := fun _ => rfl
theorem Operands.releaseHold : Operands.Statement .releaseHold := fun _ => rfl
theorem Operands.place : Operands.Statement .place := fun _ => rfl
theorem Operands.discharge : Operands.Statement .discharge := fun _ => rfl
theorem Operands.rampOpen : Operands.Statement .rampOpen := fun _ => rfl
theorem Operands.rampClose : Operands.Statement .rampClose := fun _ => rfl
theorem Operands.setRamp : Operands.Statement .setRamp := fun _ => rfl
theorem Operands.skip : Operands.Statement .skip := fun _ => rfl
theorem Operands.laneClose : Operands.Statement .laneClose := fun _ => rfl
theorem Operands.laneOpen : Operands.Statement .laneOpen := fun _ => rfl
theorem Operands.obstructionAdd : Operands.Statement .obstructionAdd := fun _ => rfl
theorem Operands.obstructionClear : Operands.Statement .obstructionClear := fun _ => rfl
theorem Operands.setBallast : Operands.Statement .setBallast := fun _ => rfl
theorem Operands.clearFlags : Operands.Statement .clearFlags := fun _ => rfl
theorem Operands.profileWrite (prot : Bool) : Operands.Statement (.profileWrite prot) := fun _ => rfl
theorem Operands.profileWriteEnd (stored : List Byte) : Operands.Statement (.profileWriteEnd stored) := fun h => by cases h
theorem Operands.writeTimeout (partsDone : Nat) (mix : List Byte) : Operands.Statement (.writeTimeout partsDone mix) := fun h => by cases h
theorem Operands.profileReload : Operands.Statement .profileReload := fun _ => rfl
theorem Operands.queryUnit : Operands.Statement .queryUnit := fun _ => rfl
theorem Operands.queryLane : Operands.Statement .queryLane := fun _ => rfl
theorem Operands.queryQueue : Operands.Statement .queryQueue := fun _ => rfl
theorem Operands.queryStatus : Operands.Statement .queryStatus := fun _ => rfl
theorem Operands.placementServed : Operands.Statement .placementServed := fun h => by cases h
theorem Operands.retryWalk : Operands.Statement .retryWalk := fun h => by cases h
theorem Operands.walkVisit : Operands.Statement .walkVisit := fun h => by cases h
theorem Operands.redirectSearch : Operands.Statement .redirectSearch := fun h => by cases h
theorem Operands.ageingExpiry : Operands.Statement .ageingExpiry := fun h => by cases h
theorem Operands.call (r : Ramp) : Operands.Statement (.call r) := fun h => by cases h
theorem Operands.intervalTimerExpiry (r : Ramp) : Operands.Statement (.intervalTimerExpiry r) := fun h => by cases h
theorem Operands.callTimerExpiry (r : Ramp) : Operands.Statement (.callTimerExpiry r) := fun h => by cases h
theorem Operands.axleEdge (r : Ramp) : Operands.Statement (.axleEdge r) := fun h => by cases h
theorem Operands.conversionComplete (r : Ramp) (code : BitVec 10) : Operands.Statement (.conversionComplete r code) := fun h => by cases h
theorem Operands.gapTimerExpiry (r : Ramp) : Operands.Statement (.gapTimerExpiry r) := fun h => by cases h
theorem Operands.sampleTimerExpiry (gradA gradB : BitVec 8) (incl : BitVec 10) : Operands.Statement (.sampleTimerExpiry gradA gradB incl) := fun h => by cases h
theorem Operands.frameSent : Operands.Statement .frameSent := fun h => by cases h
theorem Operands.frameDiscarded (bytes : List Byte) : Operands.Statement (.frameDiscarded bytes) := fun h => by cases h

end Sys2Proof.Laws
end

