-- ==== Sys2Proof/Laws/Requests.lean ====
section
/-!
SUPPORT. The request handler said once: what a frame handed over leads to, and what a filled or reserved slot leaves.
-/

namespace Sys2Proof.Machine

open Sys2Proof

/-- The state in which a request's owner finds the machine: the frame taken, its slot reserved (R171). -/
def State.taken (f : Frame) (rest : List Frame) (s : State) : State :=
  s.modLink fun k => { k with rxBuffer := rest, reserved := k.reserved ++ [f.ticket] }

/-- Taking a frame touches the link alone. -/
@[simp] theorem State.taken_frame (f : Frame) (rest : List Frame) (s : State) :
    (s.taken f rest).pending = s.pending ∧ (s.taken f rest).session = s.session ∧ (s.taken f rest).units = s.units ∧
      (s.taken f rest).checkIn = s.checkIn ∧ (s.taken f rest).ageing = s.ageing ∧ (s.taken f rest).lanes = s.lanes ∧
      (s.taken f rest).decks = s.decks ∧ (s.taken f rest).stb = s.stb ∧ (s.taken f rest).alc = s.alc ∧
      (s.taken f rest).csc = s.csc ∧ (s.taken f rest).plates = s.plates ∧ (s.taken f rest).comps = s.comps ∧
      (s.taken f rest).hlm = s.hlm ∧ (s.taken f rest).pst = s.pst ∧ (s.taken f rest).freeCount = s.freeCount :=
  ⟨rfl, rfl, rfl, rfl, rfl, rfl, rfl, rfl, rfl, rfl, rfl, rfl, rfl, rfl, rfl⟩

/-- Taking a frame leaves what every block reads of the others. -/
@[simp] theorem State.taken_reads (f : Frame) (rest : List Frame) (s : State) :
    (∀ ref, (s.taken f rest).unit? ref = s.unit? ref) ∧ (∀ l, (s.taken f rest).lane l = s.lane l) ∧
      (∀ d, (s.taken f rest).deck d = s.deck d) ∧ (∀ r, (s.taken f rest).ramp r = s.ramp r) ∧
      (∀ r, (s.taken f rest).plate r = s.plate r) ∧ (∀ r, (s.taken f rest).comp r = s.comp r) ∧
      (s.taken f rest).vessel = s.vessel ∧ (∀ l, (s.taken f rest).laneFixed l = s.laneFixed l) ∧
      (∀ d, (s.taken f rest).deckFixed d = s.deckFixed d) ∧ ∀ r, (s.taken f rest).rampFixed r = s.rampFixed r :=
  ⟨fun _ => rfl, fun _ => rfl, fun _ => rfl, fun _ => rfl, fun _ => rfl, fun _ => rfl, rfl, fun _ => rfl, fun _ => rfl,
    fun _ => rfl⟩

theorem admits_loading (k : RequestKind) : admits .loading k = false := rfl

theorem takeFrame_of_front {s : State} {f : Frame} {rest : List Frame} (h : s.link.rxBuffer = f :: rest)
    (hs : s.session ≠ .loading) (hl : s.link.reserved.length + s.link.filled.length < Config.responseSlots) :
    s.takeFrame = some (f, s.taken f rest) := by
  simp [State.takeFrame, h, hs, hl, State.taken, Frame.ticket]

/-- A request that passes the four checks is its owner's (R171). -/
theorem handle_of_handed {α : Type} {k : RequestKind} {parse : State → List Byte → Option α}
    {deckOf : State → α → Option Deck} {owner : Ticket → α → State → State} {s : State} {f : Frame}
    {rest : List Frame} {req : α} {deck : Option Deck} (h : Handed k deck s f rest)
    (hp : parse (s.taken f rest) f.payload = some req) (hd : deckOf (s.taken f rest) req = deck) :
    handle k parse deckOf owner s = .next (owner f.ticket req (s.taken f rest)).startTx := by
  have hs : s.session ≠ .loading := fun e => by have := h.session; rw [e, admits_loading] at this; cases this
  have hr : (s.taken f rest).permits f.stn k deck = true := h.role
  have ha : admits s.session k = true := h.session
  simp [handle, takeFrame_of_front h.front hs h.slot, h.kind, examine, hp, hd, hr, ha, finish]

/-- Filling the slot that was reserved last leaves the other slots. -/
theorem erase_last_perm (xs : List Ticket) (t : Ticket) : ((xs ++ [t]).erase t).Perm xs := by
  have h : (xs ++ [t]).Perm (t :: xs) := List.perm_append_comm
  simpa using h.erase t

/-- What a fill at the end of a request's event leaves on the link, when the owner before it touched nothing of the link
but the notices and flags. -/
theorem replied_of_fill {s v : State} {f : Frame} {rest : List Frame} (r : Reply) (h : OnlyNews (s.taken f rest) v) :
    Replied s (v.fill f.ticket r) f rest r := by
  obtain ⟨h1, h2, h3, h4, h5, h6⟩ := h
  refine ⟨?_, ?_, ?_, ?_, ?_, ?_⟩ <;>
    simp_all [State.fill, State.taken, erase_last_perm]

end Sys2Proof.Machine
end

