-- ==== Sys2Proof/Laws/Units.lean ====
section
/-!
SUPPORT. The Unit Table's operations said once: what the lookup gives after a record is entered, changed or retired; and
that the order of the table is kept.
-/

namespace Sys2Proof.Machine

open Sys2Proof

/-- A change of a record that keeps its reference. -/
def KeepsRef (f : UnitRecord → UnitRecord) : Prop := ∀ u, (f u).decl.ref = u.decl.ref

/-! ## The lookup (R4, R7) -/

theorem find_insertUnit_self (u : UnitRecord) {us : List UnitRecord} (h : us.find? (·.decl.ref == u.decl.ref) = none) :
    (insertUnit u us).find? (·.decl.ref == u.decl.ref) = some u := by
  induction us with
  | nil => simp [insertUnit]
  | cons v rest ih =>
    simp only [List.find?_cons] at h
    split at h
    · cases h
    · simp only [insertUnit]; split <;> simp_all

theorem find_insertUnit_other (u : UnitRecord) (us : List UnitRecord) {r : Ref} (h : r ≠ u.decl.ref) :
    (insertUnit u us).find? (·.decl.ref == r) = us.find? (·.decl.ref == r) := by
  have hb : (u.decl.ref == r) = false := beq_false_of_ne h.symm
  induction us with
  | nil => simp [insertUnit, h.symm]
  | cons v rest ih => simp only [insertUnit]; split <;> simp [List.find?_cons, *]

theorem length_insertUnit (u : UnitRecord) (us : List UnitRecord) : (insertUnit u us).length = us.length + 1 := by
  induction us with
  | nil => rfl
  | cons v rest ih => simp only [insertUnit]; split <;> simp [*]

/-- BOOK and PLACE enter a record under a reference that none held. -/
theorem unitOf_addUnit_self (s : State) (u : UnitRecord) (h : s.unit? u.decl.ref = none) :
    (s.addUnit u).unit? u.decl.ref = some u := find_insertUnit_self u h

theorem unitOf_addUnit_other (s : State) (u : UnitRecord) {r : Ref} (h : r ≠ u.decl.ref) :
    (s.addUnit u).unit? r = s.unit? r := find_insertUnit_other u s.units h

theorem find_modUnit (us : List UnitRecord) (ref r : Ref) (f : UnitRecord → UnitRecord) (hf : KeepsRef f) :
    (us.map fun u => if u.decl.ref == ref then f u else u).find? (·.decl.ref == r) =
      (us.find? (·.decl.ref == r)).map fun u => if r = ref then f u else u := by
  induction us with
  | nil => rfl
  | cons v rest ih =>
    by_cases hv : v.decl.ref = r
    · by_cases hr : r = ref <;> simp [hv, hr, hf v]
    · by_cases hr : v.decl.ref = ref
      · have : ((f v).decl.ref == r) = false := by rw [hf v]; exact beq_false_of_ne hv
        simp_all
      · simp_all

/-- A change of one record, read through the lookup. -/
theorem unitOf_modUnit (s : State) (ref r : Ref) (f : UnitRecord → UnitRecord) (hf : KeepsRef f) :
    (s.modUnit ref f).unit? r = (s.unit? r).map fun u => if r = ref then f u else u :=
  find_modUnit s.units ref r f hf

theorem unitOf_modUnit_self (s : State) (ref : Ref) (f : UnitRecord → UnitRecord) (hf : KeepsRef f) :
    (s.modUnit ref f).unit? ref = (s.unit? ref).map f := by simp [unitOf_modUnit s ref ref f hf]

theorem unitOf_modUnit_other (s : State) {ref r : Ref} (f : UnitRecord → UnitRecord) (hf : KeepsRef f) (h : r ≠ ref) :
    (s.modUnit ref f).unit? r = s.unit? r := by simp [unitOf_modUnit s ref r f hf, h]

theorem find_filter_ne (us : List UnitRecord) (ref r : Ref) :
    (us.filter fun u => u.decl.ref != ref).find? (·.decl.ref == r) =
      if r = ref then none else us.find? (·.decl.ref == r) := by
  induction us with
  | nil => simp
  | cons v rest ih =>
    by_cases hv : v.decl.ref = ref
    · by_cases hr : r = ref
      · simp_all
      · have : (v.decl.ref == r) = false := by rw [hv]; exact beq_false_of_ne (Ne.symm hr)
        simp_all
    · by_cases hr : v.decl.ref = r
      · have : r ≠ ref := fun e => hv (hr.trans e)
        simp_all
      · simp_all

/-- Retirement frees the reference and no other (R20). -/
theorem unitOf_retire (s : State) (ref r : Ref) : (s.retire ref).unit? r = if r = ref then none else s.unit? r :=
  find_filter_ne s.units ref r

theorem retired_retire (s : State) (ref : Ref) : Retired s (s.retire ref) ref :=
  ⟨by simp [unitOf_retire], fun r hr => by simp [unitOf_retire, hr], rfl⟩

/-! ## The table's order (R4) -/

/-- The references rise strictly, so no two records carry the same one. -/
def UnitsRise (us : List UnitRecord) : Prop := us.Pairwise fun u v => u.decl.ref < v.decl.ref

theorem mem_insertUnit {u v : UnitRecord} {us : List UnitRecord} : v ∈ insertUnit u us ↔ v = u ∨ v ∈ us := by
  induction us with
  | nil => simp [insertUnit]
  | cons w rest ih =>
    simp only [insertUnit]; split
    · simp
    · simp only [List.mem_cons, ih]; tauto

theorem unitsRise_insertUnit {u : UnitRecord} {us : List UnitRecord} (h : UnitsRise us)
    (hn : us.find? (·.decl.ref == u.decl.ref) = none) : UnitsRise (insertUnit u us) := by
  induction us with
  | nil => simp [insertUnit, UnitsRise]
  | cons v rest ih =>
    have hv : v.decl.ref ≠ u.decl.ref := fun e => by simp [e] at hn
    have hr : rest.find? (·.decl.ref == u.decl.ref) = none := by simpa [List.find?_cons, hv] using hn
    obtain ⟨h1, h2⟩ := List.pairwise_cons.1 h
    simp only [insertUnit]
    split
    · next hlt =>
      refine List.pairwise_cons.2 ⟨fun w hw => ?_, h⟩
      rcases List.mem_cons.1 hw with rfl | hw
      · exact hlt
      · exact hlt.trans (h1 w hw)
    · next hlt =>
      refine List.pairwise_cons.2 ⟨fun w hw => ?_, ih h2 hr⟩
      rcases mem_insertUnit.1 hw with rfl | hw
      · exact lt_of_le_of_ne (not_lt.1 hlt) hv
      · exact h1 w hw

theorem unitsRise_map {us : List UnitRecord} (f : UnitRecord → UnitRecord) (hf : KeepsRef f) (h : UnitsRise us) :
    UnitsRise (us.map f) := by
  refine List.pairwise_map.2 (h.imp fun {a b} hab => ?_)
  rw [hf a, hf b]; exact hab

theorem unitsRise_filter {us : List UnitRecord} (p : UnitRecord → Bool) (h : UnitsRise us) : UnitsRise (us.filter p) :=
  h.filter p

end Sys2Proof.Machine
end

