-- ==== Sys2Proof/Laws/Reservations.lean ====
section
/-!
SUPPORT. What the shared operations over flags, queues, called lists and reservations do, said once each.
-/

namespace Sys2Proof.Machine

open Sys2Proof

/-! ## The link (R176, R177, R179) -/

@[simp] theorem onlyNews_refl (s : State) : OnlyNews s s := ⟨rfl, rfl, rfl, rfl, rfl, rfl⟩

theorem OnlyNews.trans {s t u : State} (h : OnlyNews s t) (k : OnlyNews t u) : OnlyNews s u := by
  obtain ⟨h1, h2, h3, h4, h5, h6⟩ := h
  obtain ⟨k1, k2, k3, k4, k5, k6⟩ := k
  exact ⟨k1.trans h1, k2.trans h2, k3.trans h3, k4.trans h4, k5.trans h5, k6.trans h6⟩

/-- An operation that leaves the link alone brings no news. -/
theorem onlyNews_of_link {s u : State} (h : u.link = s.link) : OnlyNews s u := by
  rw [OnlyNews, h]; exact ⟨rfl, rfl, rfl, rfl, rfl, rfl⟩

theorem onlyNews_setFlag (s : State) (x : Subject) : OnlyNews s (s.setFlag x) := ⟨rfl, rfl, rfl, rfl, rfl, rfl⟩

theorem onlyNews_setSticky (s : State) (x : Sticky) : OnlyNews s (s.setSticky x) := ⟨rfl, rfl, rfl, rfl, rfl, rfl⟩

theorem onlyNews_notify (s : State) (n : Notice) : OnlyNews s (s.notify n) := by
  unfold State.notify
  split
  · exact ⟨rfl, rfl, rfl, rfl, rfl, rfl⟩
  · exact onlyNews_setSticky s _

/-- A notice joins the queue or sets NOTICE_LOST (R176). -/
theorem notified_notify (s : State) (n : Notice) : Notified s (s.notify n) [n] := by
  unfold Notified State.notify queued
  split <;> simp_all [State.setSticky, stickyBit, queued]

theorem queued_append (xs ys : List Notice) (q : List Notice × Byte) :
    queued (xs ++ ys) q = queued ys (queued xs q) := by
  induction xs generalizing q with
  | nil => rfl
  | cons x xs ih => exact ih _

theorem Notified.trans {s t u : State} {xs ys : List Notice} (h : Notified s t xs) (k : Notified t u ys) :
    Notified s u (xs ++ ys) := by
  rw [Notified] at *; rw [k, h, queued_append]

theorem notified_nil {s u : State} (h : u.link.notices = s.link.notices) (k : u.link.sticky = s.link.sticky) :
    Notified s u [] := by rw [Notified, h, k]; rfl

/-! ## Gate hold and call queues (R103, R121) -/

theorem setGate_ramp (s : State) (r : Ramp) (g : Bool) :
    (s.setGate r g).ramp r = { s.ramp r with gateHold := g, lineHigh := g } := by
  unfold State.setGate; dsimp only; split <;> simp

theorem setGate_flags (s : State) (r : Ramp) (g : Bool) :
    (s.setGate r g).link.flags =
      if g = (s.ramp r).gateHold then s.link.flags else flagged [.gateHold r] s.link.flags := by
  unfold State.setGate; dsimp only
  by_cases h : (s.ramp r).gateHold = g
  · simp [h]
  · simp [h, Ne.symm h, State.setFlag, flagged]

theorem setGate_other (s : State) {r q : Ramp} (g : Bool) (h : q ≠ r) : (s.setGate r g).ramp q = s.ramp q := by
  unfold State.setGate; dsimp only; split <;> simp [State.ramp_setRamp_other _ _ h]

theorem setGate_link (s : State) (r : Ramp) (g : Bool) :
    (s.setGate r g).link = { s.link with flags := (s.setGate r g).link.flags } := by
  unfold State.setGate; dsimp only; split <;> rfl

/-- The queues are changed, and then the gate hold is re-examined (R121). -/
theorem requeued_examineGate (s : State) (r : Ramp) (prio ord : List Ref) :
    Requeued s ((s.setRamp r { s.ramp r with prio := prio, ord := ord }).examineGate r) r prio ord := by
  unfold Requeued State.examineGate
  rw [setGate_ramp, setGate_flags]
  simp [RampRun.waiting]

theorem requeued_joinQueue (s : State) (r : Ramp) (priority back : Bool) (ref : Ref) :
    Requeued s (s.joinQueue r priority back ref) r
      (if priority then (if back then (s.ramp r).prio ++ [ref] else ref :: (s.ramp r).prio) else (s.ramp r).prio)
      (if priority then (s.ramp r).ord else (if back then (s.ramp r).ord ++ [ref] else ref :: (s.ramp r).ord)) := by
  cases priority <;> exact requeued_examineGate s r _ _

theorem queueLeft_leaveQueue (s : State) (r : Ramp) (ref : Ref) (h : ref ∈ (s.ramp r).prio ∨ ref ∈ (s.ramp r).ord) :
    QueueLeft s (s.leaveQueue r ref) r ref := by
  have e : s.leaveQueue r ref =
      (s.setRamp r { s.ramp r with prio := (s.ramp r).prio.erase ref, ord := (s.ramp r).ord.erase ref }).examineGate r := by
    simp [State.leaveQueue, h]
  rw [e]; exact requeued_examineGate s r _ _

theorem leaveQueue_absent (s : State) (r : Ramp) (ref : Ref) (h : ref ∉ (s.ramp r).prio) (h' : ref ∉ (s.ramp r).ord) :
    s.leaveQueue r ref = s := by simp [State.leaveQueue, h, h']

theorem setGate_onlyNews (s : State) (r : Ramp) (g : Bool) : OnlyNews s (s.setGate r g) := by
  rw [OnlyNews, setGate_link]; exact ⟨rfl, rfl, rfl, rfl, rfl, rfl⟩

theorem setGate_notices (s : State) (r : Ramp) (g : Bool) :
    (s.setGate r g).link.notices = s.link.notices ∧ (s.setGate r g).link.sticky = s.link.sticky := by
  rw [setGate_link]; exact ⟨rfl, rfl⟩

theorem examineGate_onlyNews (s : State) (r : Ramp) : OnlyNews s (s.examineGate r) := setGate_onlyNews s r _

theorem joinQueue_onlyNews (s : State) (r : Ramp) (p b : Bool) (ref : Ref) : OnlyNews s (s.joinQueue r p b ref) := by
  refine OnlyNews.trans (t := s.setRamp r _) (onlyNews_of_link rfl) (examineGate_onlyNews _ r)

theorem joinQueue_notices (s : State) (r : Ramp) (p b : Bool) (ref : Ref) :
    (s.joinQueue r p b ref).link.notices = s.link.notices ∧ (s.joinQueue r p b ref).link.sticky = s.link.sticky :=
  setGate_notices _ r _

theorem joinQueue_other (s : State) {r q : Ramp} (p b : Bool) (ref : Ref) (h : q ≠ r) :
    (s.joinQueue r p b ref).ramp q = s.ramp q := by
  unfold State.joinQueue State.examineGate
  rw [setGate_other _ _ h, State.ramp_setRamp_other _ _ h]

theorem leaveQueue_onlyNews (s : State) (r : Ramp) (ref : Ref) : OnlyNews s (s.leaveQueue r ref) := by
  unfold State.leaveQueue; dsimp only; split
  · exact OnlyNews.trans (onlyNews_of_link rfl) (examineGate_onlyNews _ r)
  · exact onlyNews_refl s

theorem leaveQueue_notices (s : State) (r : Ramp) (ref : Ref) :
    (s.leaveQueue r ref).link.notices = s.link.notices ∧ (s.leaveQueue r ref).link.sticky = s.link.sticky := by
  unfold State.leaveQueue; dsimp only; split
  · exact setGate_notices _ r _
  · exact ⟨rfl, rfl⟩

theorem leaveQueue_other (s : State) {r q : Ramp} (ref : Ref) (h : q ≠ r) : (s.leaveQueue r ref).ramp q = s.ramp q := by
  unfold State.leaveQueue; dsimp only; split
  · unfold State.examineGate; rw [setGate_other _ _ h, State.ramp_setRamp_other _ _ h]
  · rfl

/-! ## The called list and its timer (R104, R114) -/

theorem timeHead_ramp (s : State) (r : Ramp) :
    (s.timeHead r).ramp r = { s.ramp r with callTimer := headTimer s r } := by
  unfold State.timeHead headTimer
  cases h : (s.ramp r).called.head? <;> simp [h]

theorem timeHead_other (s : State) {r q : Ramp} (h : q ≠ r) : (s.timeHead r).ramp q = s.ramp q := by
  unfold State.timeHead; exact State.ramp_setRamp_other _ _ h

theorem leaveCalled_ramp (s : State) (r : Ramp) (ref : Ref) :
    (s.leaveCalled r ref).ramp r =
      { s.ramp r with
        called := (s.ramp r).called.erase ref
        callTimer := if (s.ramp r).called.head? = some ref then headTimer (s.leaveCalled r ref) r
          else (s.ramp r).callTimer } := by
  unfold State.leaveCalled; dsimp only
  split
  · next h =>
    rw [timeHead_ramp]
    simp only [State.ramp_setRamp_same]
    congr 1
    unfold headTimer
    simp only [timeHead_ramp, State.ramp_setRamp_same, State.timeHead_frame, State.statusOf_setRamp,
      State.plate_setRamp, State.rampFixed_setRamp]
    rfl
  · next h => simp

theorem leaveCalled_other (s : State) {r q : Ramp} (ref : Ref) (h : q ≠ r) : (s.leaveCalled r ref).ramp q = s.ramp q := by
  unfold State.leaveCalled; dsimp only
  split
  · rw [timeHead_other _ h, State.ramp_setRamp_other _ _ h]
  · rw [State.ramp_setRamp_other _ _ h]

/-! ## The release of a reservation (R10) -/

theorem laneLeft_leaveLane (s : State) (l : Lane) (ref : Ref) : LaneLeft s (s.leaveLane l ref) l ref := by
  unfold LaneLeft State.leaveLane; simp

theorem leaveLane_other (s : State) {l k : Lane} (ref : Ref) (h : k ≠ l) : (s.leaveLane l ref).lane k = s.lane k := by
  unfold State.leaveLane; exact State.lane_setLane_other _ _ h

theorem sumsLeft_subProvisional (s : State) (l : Lane) (w : Nat) : SumsLeft s (s.subProvisional l w) l w := by
  unfold SumsLeft State.subProvisional Stability.addLoad; simp [sub_eq_add_neg]

/-- What a release is, for a record that holds a lane. -/
theorem release_eq {s : State} {ref : Ref} {v : UnitRecord} {l : Lane} (h : s.unit? ref = some v) (hl : v.lane = some l) :
    s.release ref =
      (((s.leaveLane l ref).subProvisional l v.decl.weight).leaveQueue (s.laneFixed l).ramp ref).modUnit ref
        fun u => { u with lane := none } := by
  simp [State.release, h, hl]

/-- A record without a lane holds no reservation. -/
theorem release_noLane {s : State} {ref : Ref} {v : UnitRecord} (h : s.unit? ref = some v) (hl : v.lane = none) :
    s.release ref = s := by simp [State.release, h, hl]

theorem release_onlyNews (s : State) (ref : Ref) : OnlyNews s (s.release ref) := by
  unfold State.release
  split
  · exact onlyNews_refl s
  · split
    · exact onlyNews_refl s
    · exact OnlyNews.trans (onlyNews_of_link rfl) (leaveQueue_onlyNews _ _ _)

theorem release_notices (s : State) (ref : Ref) :
    (s.release ref).link.notices = s.link.notices ∧ (s.release ref).link.sticky = s.link.sticky := by
  unfold State.release
  split
  · exact ⟨rfl, rfl⟩
  · split
    · exact ⟨rfl, rfl⟩
    · exact leaveQueue_notices _ _ _

/-- All that a release does to a unit that waits in a queue (R10). -/
theorem release_waiting {s : State} {ref : Ref} {v : UnitRecord} {l : Lane} (h : s.unit? ref = some v)
    (hl : v.lane = some l)
    (hq : ref ∈ (s.ramp (s.laneFixed l).ramp).prio ∨ ref ∈ (s.ramp (s.laneFixed l).ramp).ord) :
    LaneLeft s (s.release ref) l ref ∧ SumsLeft s (s.release ref) l v.decl.weight ∧
      QueueLeft s (s.release ref) (s.laneFixed l).ramp ref ∧ UnitBecomes s (s.release ref) ref { v with lane := none } ∧
      OnlyChanges [.link, .units, .lane l, .stb, .ramp (s.laneFixed l).ramp] s (s.release ref) := by
  rw [release_eq h hl]
  have hk : KeepsRef fun u => { u with lane := none } := fun _ => rfl
  have hq' := queueLeft_leaveQueue ((s.leaveLane l ref).subProvisional l v.decl.weight) (s.laneFixed l).ramp ref (by simpa using hq)
  refine ⟨?_, ?_, ?_, ⟨?_, ?_⟩, ?_⟩
  · have := laneLeft_leaveLane s l ref
    simpa [LaneLeft] using this
  · have := sumsLeft_subProvisional (s.leaveLane l ref) l v.decl.weight
    simpa [SumsLeft] using this
  · simpa [QueueLeft, Requeued] using hq'
  · rw [unitOf_modUnit_self _ _ _ hk]; simp [h]
  · intro r hr; rw [unitOf_modUnit_other _ _ hk hr]; simp
  · intro b hb
    cases b with
    | lane k => simp at hb; simp [sameBlock, leaveLane_other _ _ hb]
    | ramp q => simp at hb; simp [sameBlock, leaveQueue_other _ _ hb]
    | _ => first | (simp [sameBlock]; done) | (simp at hb)

end Sys2Proof.Machine
end

