-- ==== Sys2Proof/Laws/Sums.lean ====
section
/-!
SUPPORT. What the shared operations over decks, sums, ramp states, timers and the service input do, said once each.
-/

namespace Sys2Proof.Machine

open Sys2Proof

/-! ## Sums (R41, R49) -/

theorem addCommitted_stb (s : State) (l : Lane) (w o n : Nat) :
    (s.addCommitted l w o n).stb = sumsWithAboard s l w o n := rfl

theorem subCommitted_stb (s : State) (l : Lane) (w o n : Nat) :
    (s.subCommitted l w o n).stb = sumsWithoutAboard s l w o n := by
  simp [State.subCommitted, Stability.addLoad, sumsWithoutAboard, LaneFixed.xUnit, sub_eq_add_neg]

theorem addProvisional_stb (s : State) (l : Lane) (w : Nat) :
    (s.addProvisional l w).stb =
      { s.stb with
        mlP := s.stb.mlP + w * (s.laneFixed l).y
        mtP := s.stb.mtP + w * (s.laneFixed l).xMid
        load := s.stb.load.set (s.laneFixed l).deck (s.stb.load[(s.laneFixed l).deck] + w) } := rfl

/-! ## Deck fill and warning (R42, R43) -/

theorem setWarning_deck (s : State) (d : Deck) (w : Bool) :
    (s.setWarning d w).deck d = { s.deck d with warning := w, lineLow := w } := by
  unfold State.setWarning; dsimp only; split <;> simp

theorem setWarning_flags (s : State) (d : Deck) (w : Bool) :
    (s.setWarning d w).link.flags = if w = (s.deck d).warning then s.link.flags else flagged [.deck d] s.link.flags := by
  unfold State.setWarning; dsimp only
  by_cases h : (s.deck d).warning = w
  · simp [h]
  · simp [h, Ne.symm h, State.setFlag, flagged]

/-- A deck's fill is the one its occupants give, and its warning state follows by the table of R43. -/
theorem refilled_refill (s : State) (d : Deck) : Refilled s (s.refill d) d := by
  have e : (s.refill d).fillOf d = s.fillOf d := by
    simp [State.refill, State.examineWarning, State.setWarning]
    split <;> rfl
  unfold Refilled
  rw [e]
  unfold State.refill State.examineWarning
  rw [setWarning_deck, setWarning_flags]
  simp

/-! ## Ramp states (R105 to R107) -/

theorem setRampState_ramp (s : State) (r : Ramp) (x : RampState) :
    (s.setRampState r x).ramp r = { s.ramp r with state := x } := by
  unfold State.setRampState; dsimp only; split <;> simp

theorem setRampState_flags (s : State) (r : Ramp) (x : RampState) :
    (s.setRampState r x).link.flags =
      if x = (s.ramp r).state then s.link.flags else flagged [.rampState r] s.link.flags := by
  unfold State.setRampState; dsimp only
  by_cases h : (s.ramp r).state = x
  · simp [h]
  · simp [h, Ne.symm h, State.setFlag, flagged]

/-! ## The service input (R61, R77) -/

theorem walkAsked_triggerWalk (s : State) : WalkAsked s s.triggerWalk := by
  unfold WalkAsked State.triggerWalk
  by_cases h : Item.walk ∈ s.alc.service <;> simp [h, State.handItem]

/-! ## Slots (R171) -/

theorem fill_link (s : State) (t : Ticket) (r : Reply) :
    (s.fill t r).link =
      { s.link with reserved := s.link.reserved.erase t, filled := s.link.filled ++ [{ ticket := t, reply := r }] } := rfl

end Sys2Proof.Machine
end

