-- ==== Sys2Proof/Tests/Slice0.lean ====
section
/-!
SUPPORT. Our own tests: the checks of well-formedness, the spec's worked figures, and for every statement a state and
operands that meet its hypotheses.
-/

namespace Sys2Proof.Tests

set_option Elab.async false

open Sys2Proof Sys2Proof.Machine

/-! ## A small ship and a yard -/

/-- Four lanes: two on deck 0, one on deck 1, one on deck 2 at ramp B. -/
def lanes : List LaneFixed :=
  [{ deck := 0, ramp := .a, length := 300, dir := .fore, xInner := 0, y := -60, widthClass := 2, heightClass := 3,
     axleLimit := 200 },
   { deck := 0, ramp := .a, length := 200, dir := .aft, xInner := 0, y := 60, widthClass := 1, heightClass := 2,
     axleLimit := 100 },
   { deck := 1, ramp := .a, length := 300, dir := .fore, xInner := 100, y := 20, widthClass := 2, heightClass := 3,
     axleLimit := 200 },
   { deck := 2, ramp := .b, length := 2000, dir := .fore, xInner := -1000, y := 40, widthClass := 2, heightClass := 3,
     axleLimit := 400 }]

/-- Both ramps; scale 256 and zero 40 are R58's figures. -/
def rampRecord : RampFixed :=
  { budget := 800, intervalPeriod := 60, ratio := 2, depth := 3, callTimeout := 60, crossingGap := 10, plateZero := 40,
    plateScale := 256, tolerance := 10, gradLimit := 120, gradRise := 5, gradFall := 8, gateOn := 3, gateOff := 1 }

def deckRecord : DeckFixed := { cap := 500, reserve := 50, warnOn := 60, warnOff := 40 }

/-- Station 1 plans, station 2 is a gate, station 3 marshals decks 0 to 3, station 4 deck 1 alone. -/
def profile : Profile :=
  { vessel :=
      { gap := 5, listLimit := 60000, trimLo := -250000, trimHi := 250000, heavyThreshold := 300, heelOn := 40,
        heelOff := 25, heelSpan := 512, samplePeriod := 500, agePeriod := 60, ageLimit := 2, baseLevel := 4 }
    decks := [deckRecord, deckRecord, deckRecord, deckRecord]
    lanes := lanes
    ramps := ⟨rampRecord, rampRecord⟩
    stations :=
      [{ role := .planning, level := 0, ceiling := 7, mask := 0 }, { role := .gate, level := 3, ceiling := 6, mask := 0 },
       { role := .marshal, level := 0, ceiling := 0, mask := 0xF },
       { role := .marshal, level := 0, ceiling := 0, mask := 0x2 }] ++
        List.replicate 26 { role := .none, level := 0, ceiling := 0, mask := 0 } }

/-- The ship with its profile loaded, ALONGSIDE, both ramps OPEN, nothing in the yard. -/
def ship : State :=
  let open' : RampRun :=
    { state := .opened, ratio := 2, depth := 3, budget := 800, credit := 0, remaining := 800, intervalTimer := some 60000,
      callTimer := none, gateHold := false, lineHigh := false, prio := [], ord := [], called := [] }
  let plate : Plate := { Plate.reset with state := .idle }
  { State.reset with
    session := .alongside
    ageing := some 60000
    csc := ⟨open', open'⟩
    plates := ⟨plate, plate⟩
    comps := ⟨{ state := .clear, gradient := 0 }, { state := .clear, gradient := 0 }⟩
    hlm := { history := [0], heel := 0, hold := false, lineHigh := false, sampleTimer := some 500 }
    pst := { ProfileStore.reset [] with shadow := some profile, startUp := .loaded, sigPassed := true } }

/-- A declared part with a reference and a weight. -/
def declared (ref weight : Nat) : Declared :=
  { ref := ref, kind := .car, length := 40, widthClass := 0, heightClass := 0, weight := weight, axles := some 2,
    maxAxle := none, hazard := none, service := none, group := 0 }

/-- A record under a reference, of weight 50. -/
def record (ref : Nat) (status : Status) (lane : Option Lane) : UnitRecord :=
  { decl := declared ref 50, cls := { priority := false, seg := 0, decks := 0xF, axleEst := 25 }, status := status,
    lane := lane, offset := none, measured := none, axleCount := none, mismatch := false, weighFault := false,
    redirected := false, noShow := 0, age := 0, gate := some 2, mark := false }

/-- A record with priority. -/
def prior (v : UnitRecord) : UnitRecord := { v with cls := { v.cls with priority := true } }

/-- The yard: 1 BOOKED; 2 (with priority), 3 WAITING, 4, 5 CALLED, all of lane 0; 6 ABOARD in lane 1; 7 UNPLACED;
8 LAPSED; 9 HELD; 10 SHUT_OUT. -/
def yard : State :=
  { ship with
    units :=
      [record 1 .booked none, prior (record 2 .waiting (some 0)), record 3 .waiting (some 0), record 4 .called (some 0),
       record 5 .called (some 0), { record 6 .aboard (some 1) with offset := some 0 }, record 7 .unplaced none,
       record 8 .lapsed none, record 9 .held none, record 10 .shutOut none]
    checkIn := [4, 5, 2, 3, 7, 8, 9, 10]
    lanes :=
      (ship.lanes.set 0 { LaneRun.reset with reservations := [4, 5, 2, 3] }).set 1
        { LaneRun.reset with occupants := [{ ref := 6, offset := 0 }] }
    stb :=
      { Stability.reset with
        mlC := 3000, mtC := -1000, mlP := -12000, mtP := 30000, load := (Stability.reset.load.set 0 250) }
    csc := ⟨{ ship.ramp .a with prio := [2], ord := [3], called := [4, 5], callTimer := some 60000 }, ship.ramp .b⟩
    alc := { service := [], unplaced := [7], walk := [] } }

/-- The frame with a request in it, from station `stn`. -/
def request (stn : Nat) (k : RequestKind) (payload : List Byte) : Frame :=
  { stn := byte stn, kind := byte k.code, tag := 7, payload := payload }

/-- A state with one frame in the receive buffer. -/
def asked (s : State) (f : Frame) : State := { s with link := { s.link with rxBuffer := [f] } }

/-- A state with another receive buffer meets the same laws of reservations. -/
theorem asked_law {s : State} (f : Frame) (h : ReservationLaw s) : ReservationLaw (asked s f) := h

/-- The hypotheses that Handed gathers, to be decided together. -/
theorem handed_of {k : RequestKind} {deck : Option Deck} {s : State} {f : Frame}
    (h : s.link.rxBuffer = [f] ∧ s.link.reserved.length + s.link.filled.length < Config.responseSlots ∧
      RequestKind.ofCode f.kind = some k ∧ s.permits f.stn k deck = true ∧ admits s.session k = true) :
    Handed k deck s f [] := ⟨h.1, h.2.1, h.2.2.1, h.2.2.2.1, h.2.2.2.2⟩

/-- The state that a step leaves. -/
def after (c : Instr) (s : State) : State :=
  match exec c s with
  | .next u => u
  | _ => s

/-- A law of both ramps. -/
theorem both {p : Ramp → Prop} (h : p .a ∧ p .b) : ∀ r, p r
  | .a => h.1
  | .b => h.2

/-! ## States in which the laws hold -/

theorem test_yard_meets_reservation_law : ReservationLaw yard := by
  refine ⟨by decide +kernel, by decide +kernel, by decide +kernel, both ⟨?_, ?_⟩, by decide +kernel, by decide +kernel,
    by decide +kernel, by decide +kernel, by decide +kernel, by decide +kernel, by decide +kernel, by decide +kernel, ?_⟩
    <;> decide +kernel

/-- The yard with lane 0 CLOSING: the law says nothing of a lane's state. -/
def closingYard : State := { yard with lanes := yard.lanes.set 0 { yard.lane 0 with state := .closing } }

theorem test_closing_yard_meets_reservation_law : ReservationLaw closingYard := by
  refine ⟨by decide +kernel, by decide +kernel, by decide +kernel, both ⟨?_, ?_⟩, by decide +kernel, by decide +kernel,
    by decide +kernel, by decide +kernel, by decide +kernel, by decide +kernel, by decide +kernel, by decide +kernel, ?_⟩
    <;> decide +kernel

/-- The yard with two obstruction records at the far end of lane 0. -/
def crowdedYard : State :=
  { yard with
    lanes := yard.lanes.set 0
      { yard.lane 0 with obstructions := [{ start := 270, extent := 5 }, { start := 280, extent := 5 }] } }

theorem test_crowded_yard_meets_reservation_law : ReservationLaw crowdedYard := by
  refine ⟨by decide +kernel, by decide +kernel, by decide +kernel, both ⟨?_, ?_⟩, by decide +kernel, by decide +kernel,
    by decide +kernel, by decide +kernel, by decide +kernel, by decide +kernel, by decide +kernel, by decide +kernel, ?_⟩
    <;> decide +kernel

/-- A yard in which nothing is called and the Allocator is idle: 1 BOOKED, 2 WAITING, 9 HELD. -/
def quietYard : State :=
  { ship with
    units := [record 1 .booked none, prior (record 2 .waiting (some 0)), record 9 .held none]
    checkIn := [9, 2]
    lanes := ship.lanes.set 0 { LaneRun.reset with reservations := [2] }
    stb := { Stability.reset with mlP := -3000, mtP := 7500, load := (Stability.reset.load.set 0 50) }
    csc := ⟨{ ship.ramp .a with prio := [2] }, ship.ramp .b⟩ }

theorem test_quiet_yard_meets_reservation_law : ReservationLaw quietYard := by
  refine ⟨by decide +kernel, by decide +kernel, by decide +kernel, both ⟨?_, ?_⟩, by decide +kernel, by decide +kernel,
    by decide +kernel, by decide +kernel, by decide +kernel, by decide +kernel, by decide +kernel, by decide +kernel, ?_⟩
    <;> decide +kernel

/-! ## The hypotheses of the statements: requests -/

/-- Requests of station 1 that carry a reference, a lane or a ramp. -/
def named (k : RequestKind) (ref : Nat) : Frame := request 1 k (beBytes 4 ref)
def ofLane (k : RequestKind) (l : Nat) : Frame := request 1 k [byte l]
def ofRamp (k : RequestKind) (r : Nat) : Frame := request 1 k [byte r]
def plain (k : RequestKind) : Frame := request 1 k []

/-- A state with seven of its eight response slots in use. -/
def nearlyFull (s : State) : State :=
  { s with link := { s.link with filled := List.replicate 7 { ticket := ⟨1, 0x2B, 0⟩, reply := .done } } }

theorem test_checks_refuse_in_order_hypotheses :
    (let f := plain .book; let s := asked (nearlyFull ship) f
     requestOf .book = some .book ∧ s.link.rxBuffer = [f] ∧ s.session ≠ .loading ∧
       s.link.reserved.length + s.link.filled.length < 8 ∧ RequestKind.ofCode f.kind = some .book ∧
       fieldsValid .book s f.payload = false) ∧
    (let f := request 2 .book (declaredBytes (declared 11 50)); let s := asked ship f
     RequestKind.ofCode f.kind = some .book ∧ fieldsValid .book s f.payload = true ∧
       s.permits f.stn .book (maskDeck .book s f.payload) = false) ∧
    (let f := request 4 .discharge (beBytes 4 6); let s := asked yard f
     fieldsValid .discharge s f.payload = true ∧ s.permits f.stn .discharge (maskDeck .discharge s f.payload) = false) ∧
    (let f := plain .vesselOpen; let s := asked ship f
     fieldsValid .vesselOpen s f.payload = true ∧ s.permits f.stn .vesselOpen (maskDeck .vesselOpen s f.payload) = true ∧
       admits s.session .vesselOpen = false) ∧
    (let f := plain .vesselOpen; let s := asked { State.reset with session := .noProfile } f
     fieldsValid .vesselOpen s f.payload = true ∧ s.permits f.stn .vesselOpen (maskDeck .vesselOpen s f.payload) = true ∧
       admits s.session .vesselOpen = false) ∧
    (let f : Frame := { stn := 1, kind := 0x05, tag := 0, payload := [] }; let s := asked (nearlyFull ship) f
     s.link.rxBuffer = [f] ∧ s.session ≠ .loading ∧ s.link.reserved.length + s.link.filled.length < 8 ∧
       RequestKind.ofCode f.kind = none) ∧
    (1 ≤ (1 : Byte).toNat ∧ (30 : Byte).toNat ≤ 30 ∧ (stationEntry ship 4).role = .marshal ∧
       (stationEntry ship 30).role = .none ∧ (stationEntry { ship with session := .noProfile } 1).role = .planning) := by
  decide +kernel

theorem test_requests_wait_hypotheses :
    requestOf .book = some .book ∧ ship.link.rxBuffer = [] ∧ State.reset.session = .loading ∧
      (let s := { ship with link := { (nearlyFull ship).link with reserved := [⟨1, 0x0B, 0⟩] } }
       8 ≤ s.link.reserved.length + s.link.filled.length) ∧
      (∃ f rest, (asked ship (plain .cancel)).link.rxBuffer = f :: rest ∧ RequestKind.ofCode f.kind ≠ some .book) ∧
      ∃ f rest, (asked ship (plain .cancel)).link.rxBuffer = f :: rest ∧ RequestKind.ofCode f.kind ≠ none :=
  ⟨rfl, rfl, rfl, by decide +kernel, ⟨plain .cancel, [], rfl, by decide +kernel⟩,
    ⟨plain .cancel, [], rfl, by decide +kernel⟩⟩

/-- The yard with unit 8 marked: it waits at the Allocator. -/
def markedYard : State := yard.modUnit 8 fun v => { v with mark := true }

theorem test_unknown_or_marked_hypotheses :
    (let f := named .cancel 4294967295; let s := asked yard f
     requestOf .cancel = some .cancel ∧ unitNamed .cancel s f.payload = some 4294967295 ∧
       Handed .cancel (maskDeck .cancel s f.payload) s f [] ∧ s.unit? 4294967295 = none) ∧
    (let f := named .present 8; let s := asked markedYard f
     busyWhenMarked .present = true ∧ unitNamed .present s f.payload = some 8 ∧
       Handed .present (maskDeck .present s f.payload) s f [] ∧
       ∃ v, s.unit? 8 = some v ∧ v.mark = true) :=
  ⟨⟨rfl, by decide +kernel, handed_of (by decide +kernel), by decide +kernel⟩,
    ⟨rfl, by decide +kernel, handed_of (by decide +kernel), _, rfl, rfl⟩⟩

theorem test_status_refuses_hypotheses :
    (let f := named .cancel 6; let s := asked yard f
     unitNamed .cancel s f.payload = some 6 ∧ Handed .cancel (maskDeck .cancel s f.payload) s f [] ∧
       ∃ v, s.unit? 6 = some v ∧ v.mark = false ∧ statusRefusal .cancel v.status = some .inFlight) ∧
    (let f := request 1 .amend (beBytes 4 7 ++ declaredBytes (declared 7 60)); let s := asked yard f
     unitNamed .amend s f.payload = some 7 ∧ Handed .amend (maskDeck .amend s f.payload) s f [] ∧
       readAmend s f.payload = some (7, declared 7 60) ∧
       ∃ v, s.unit? 7 = some v ∧ v.mark = false ∧ statusRefusal .amend v.status = some .wrongUnitState) :=
  ⟨⟨by decide +kernel, handed_of (by decide +kernel), _, rfl, by decide +kernel⟩,
    ⟨by decide +kernel, handed_of (by decide +kernel), by decide +kernel, _, rfl, by decide +kernel⟩⟩

/-- A table of 511 or 512 records. -/
def manyUnits (n : Nat) : State := { ship with units := (List.range n).map fun i => record (i + 1) .booked none }

theorem test_book_hypotheses :
    (let f := request 1 .book (declaredBytes (declared 4294967294 5)); let s := asked (manyUnits 511) f
     Handed .book none s f [] ∧ readBook s f.payload = some (declared 4294967294 5) ∧ s.unit? 4294967294 = none ∧
       s.units.length < 512) ∧
    (let f := request 1 .book (declaredBytes (declared 600 600)); let s := asked (manyUnits 512) f
     Handed .book none s f [] ∧ readBook s f.payload = some (declared 600 600) ∧ 512 ≤ s.units.length) ∧
    (let f := request 1 .book (declaredBytes (declared 512 600)); let s := asked (manyUnits 512) f
     Handed .book none s f [] ∧ readBook s f.payload = some (declared 512 600) ∧ s.unit? 512 ≠ none) :=
  ⟨⟨handed_of (by decide +kernel), by decide +kernel, by decide +kernel, by decide +kernel⟩,
    ⟨handed_of (by decide +kernel), by decide +kernel, by decide +kernel⟩,
    ⟨handed_of (by decide +kernel), by decide +kernel, by decide +kernel⟩⟩

theorem test_amend_hypotheses :
    (let f := request 1 .amend (beBytes 4 1 ++ declaredBytes (declared 1 60)); let s := asked yard f
     Handed .amend none s f [] ∧ readAmend s f.payload = some (1, declared 1 60) ∧
       ∃ v, s.unit? 1 = some v ∧ v.mark = false ∧ v.status = .booked) ∧
    (let f := request 1 .amend (beBytes 4 1 ++ declaredBytes (declared 2 60)); let s := asked yard f
     Handed .amend none s f [] ∧ readAmend s f.payload = some (1, declared 2 60) ∧ (declared 2 60).ref ≠ 1 ∧
       ∃ v, s.unit? 1 = some v ∧ v.mark = false) :=
  ⟨⟨handed_of (by decide +kernel), by decide +kernel, _, rfl, by decide +kernel⟩,
    ⟨handed_of (by decide +kernel), by decide +kernel, by decide +kernel, _, rfl, rfl⟩⟩

theorem test_cancel_hypotheses :
    (let f := named .cancel 7; let s := asked yard f
     Handed .cancel none s f [] ∧ readRef s f.payload = some 7 ∧
       ∃ v, s.unit? 7 = some v ∧ v.mark = false ∧ v.status = .unplaced) ∧
    (let f := named .cancel 1; let s := asked yard f
     Handed .cancel none s f [] ∧ readRef s f.payload = some 1 ∧
       ∃ v, s.unit? 1 = some v ∧ v.mark = false ∧ v.status = .booked) ∧
    (let f := named .cancel 2; let s := asked yard f
     Handed .cancel none s f [] ∧ readRef s f.payload = some 2 ∧
       ∃ v, s.unit? 2 = some v ∧ v.mark = false ∧ v.status = .waiting ∧ v.lane = some 0 ∧
         2 ∈ (s.ramp (s.laneFixed 0).ramp).prio) :=
  ⟨⟨handed_of (by decide +kernel), by decide +kernel, _, rfl, by decide +kernel⟩,
    ⟨handed_of (by decide +kernel), by decide +kernel, _, rfl, by decide +kernel⟩,
    ⟨handed_of (by decide +kernel), by decide +kernel, _, rfl, by decide +kernel⟩⟩

theorem test_check_in_and_release_hold_hypotheses :
    (let f := request 2 .checkIn (checkInBytes 1 (some 250)); let s := asked yard f
     Handed .checkIn none s f [] ∧ readCheckIn s f.payload = some (1, some 250) ∧
       ∃ v, s.unit? 1 = some v ∧ v.mark = false ∧ v.status = .booked) ∧
    (let f := request 3 .releaseHold (beBytes 4 9); let s := asked yard f
     Handed .releaseHold none s f [] ∧ readRef s f.payload = some 9 ∧
       ∃ v, s.unit? 9 = some v ∧ v.mark = false ∧ v.status = .held) :=
  ⟨⟨handed_of (by decide +kernel), by decide +kernel, _, rfl, by decide +kernel⟩,
    ⟨handed_of (by decide +kernel), by decide +kernel, _, rfl, by decide +kernel⟩⟩

theorem test_present_hypotheses :
    (let f := request 2 .present (beBytes 4 3); let s := asked yard f
     Handed .present (deckOfRef s 3) s f [] ∧ readRef s f.payload = some 3 ∧
       ∃ v, s.unit? 3 = some v ∧ v.mark = false ∧ v.status = .waiting) ∧
    (let f := request 2 .present (beBytes 4 8); let s := asked yard f
     Handed .present (deckOfRef s 8) s f [] ∧ readRef s f.payload = some 8 ∧
       ∃ v, s.unit? 8 = some v ∧ v.mark = false ∧ v.status = .lapsed) :=
  ⟨⟨handed_of (by decide +kernel), by decide +kernel, _, rfl, by decide +kernel⟩,
    ⟨handed_of (by decide +kernel), by decide +kernel, _, rfl, by decide +kernel⟩⟩

theorem test_hold_unit_hypotheses :
    (let f := request 3 .holdUnit (beBytes 4 3); let s := asked yard f
     Handed .holdUnit (deckOfRef s 3) s f [] ∧ readRef s f.payload = some 3 ∧
       ∃ v, s.unit? 3 = some v ∧ v.mark = false ∧ v.status = .waiting ∧ v.lane = some 0 ∧
         3 ∈ (s.ramp (s.laneFixed 0).ramp).ord) ∧
    (let f := request 3 .holdUnit (beBytes 4 7); let s := asked yard f
     Handed .holdUnit (deckOfRef s 7) s f [] ∧ readRef s f.payload = some 7 ∧
       ∃ v, s.unit? 7 = some v ∧ v.mark = false ∧ v.status = .unplaced) ∧
    (let f := request 3 .holdUnit (beBytes 4 8); let s := asked yard f
     Handed .holdUnit (deckOfRef s 8) s f [] ∧ readRef s f.payload = some 8 ∧
       ∃ v, s.unit? 8 = some v ∧ v.mark = false ∧ v.status = .lapsed) ∧
    (let f := request 3 .holdUnit (beBytes 4 4); let s := asked yard f
     Handed .holdUnit (deckOfRef s 4) s f [] ∧ readRef s f.payload = some 4 ∧
       ∃ v, s.unit? 4 = some v ∧ v.mark = false ∧ v.status = .called ∧ v.lane = some 0 ∧
         4 ∉ (s.ramp (s.laneFixed 0).ramp).prio ∧ 4 ∉ (s.ramp (s.laneFixed 0).ramp).ord) :=
  ⟨⟨handed_of (by decide +kernel), by decide +kernel, _, rfl, by decide +kernel⟩,
    ⟨handed_of (by decide +kernel), by decide +kernel, _, rfl, by decide +kernel⟩,
    ⟨handed_of (by decide +kernel), by decide +kernel, _, rfl, by decide +kernel⟩,
    ⟨handed_of (by decide +kernel), by decide +kernel, _, rfl, by decide +kernel⟩⟩

theorem test_ageing_hypotheses :
    State.reset.ageing.isSome = false ∧ yard.ageing.isSome = true ∧ ReservationLaw yard :=
  ⟨rfl, rfl, test_yard_meets_reservation_law⟩

/-- Hazard code 63, and a booked level above the gate's ceiling of 6; the gate's default of 3 lies below the base level 4. -/
theorem test_classification_hypotheses :
    let d := { declared 1 380 with hazard := some 63, service := some 7, axles := some 5 }
    let v := { record 1 .booked none with decl := d }
    (ship.profile.stations.getD (2 - 1) { role := .none, level := 0, ceiling := 0, mask := 0 }).role = .gate ∧
      v.gate = some 2 ∧ (∀ n, v.decl.hazard = some n → 1 ≤ n) ∧ ship.serviceLevel v = 6 ∧
      (ship.classification v).priority = true ∧ (ship.classification v).axleEst = 76 ∧
      (ship.classification (record 1 .booked none)).priority = false :=
  ⟨by decide, rfl, (fun n h => by cases h; decide), by decide +kernel⟩

/-- A PLACE request of a unit of weight 50 and length 40. -/
def placing (ref : Nat) (lane : Lane) (offset group : Nat) : PlaceRequest :=
  { ref := ref, kind := .car, length := 40, widthClass := 0, heightClass := 0, weight := 50, group := group, lane := lane,
    offset := offset, hazard := none }

/-- Ships with lane 1 CLOSED, with deck 0 loaded to 451, and with a record ABOARD at 50 of lane 1. -/
def closedShip : State := { ship with lanes := ship.lanes.set 1 { LaneRun.reset with state := .withdrawn } }
def heavyShip : State := { ship with stb := { ship.stb with load := ship.stb.load.set 0 451 } }
def cargoShip : State :=
  { ship with
    units := [{ record 6 .aboard (some 1) with offset := some 50 }]
    lanes := ship.lanes.set 1 { LaneRun.reset with occupants := [{ ref := 6, offset := 50 }] } }

/-- The neighbours of an empty lane: none. -/
theorem fits_empty {s : State} {q : PlaceRequest} (h : (s.lane q.lane).occupants = [])
    (k : (s.lane q.lane).obstructions = []) (e : q.offset + q.length ≤ (s.laneFixed q.lane).length) :
    PlaceFits s q ∧ PlaceOrdered s q := by
  refine ⟨⟨e, by simp [h], by simp [k], ?_, ?_⟩, ?_, ?_⟩ <;> intro o ho <;>
    simp [State.innerNeighbour, State.outerNeighbour, h] at ho

theorem test_place_hypotheses :
    (let q := placing 6 1 0 0; let f := request 1 .place (placeBytes q); let s := asked yard f
     Handed .place none s f [] ∧ readPlace s f.payload = some q ∧ s.unit? q.ref ≠ none) ∧
    (let q := placing 513 1 0 0; let f := request 1 .place (placeBytes q); let s := asked (manyUnits 512) f
     Handed .place none s f [] ∧ readPlace s f.payload = some q ∧ s.unit? q.ref = none ∧ 512 ≤ s.units.length) ∧
    (let q := placing 11 1 0 0; let f := request 1 .place (placeBytes q); let s := asked closedShip f
     Handed .place none s f [] ∧ readPlace s f.payload = some q ∧ s.unit? q.ref = none ∧ ¬ 512 ≤ s.units.length ∧
       (s.lane q.lane).state = .withdrawn) ∧
    (let q := placing 11 0 0 0; let f := request 1 .place (placeBytes q); let s := asked yard f
     Handed .place none s f [] ∧ readPlace s f.payload = some q ∧ s.unit? q.ref = none ∧ ¬ 512 ≤ s.units.length ∧
       (s.lane q.lane).state = .opened ∧ (s.lane q.lane).reservations ≠ []) ∧
    (let q := placing 11 1 161 0; let f := request 1 .place (placeBytes q); let s := asked ship f
     Handed .place none s f [] ∧ readPlace s f.payload = some q ∧ s.unit? q.ref = none ∧ ¬ 512 ≤ s.units.length ∧
       (s.lane q.lane).state = .opened ∧ (s.lane q.lane).reservations = [] ∧ ¬ PlaceFits s q) :=
  ⟨⟨handed_of (by decide +kernel), by decide +kernel, by decide +kernel⟩,
    ⟨handed_of (by decide +kernel), by decide +kernel, by decide +kernel, by decide +kernel⟩,
    ⟨handed_of (by decide +kernel), by decide +kernel, by decide +kernel, by decide +kernel, by decide +kernel⟩,
    ⟨handed_of (by decide +kernel), by decide +kernel, by decide +kernel, by decide +kernel, by decide +kernel,
      by decide +kernel⟩,
    ⟨handed_of (by decide +kernel), by decide +kernel, by decide +kernel, by decide +kernel, by decide +kernel,
      by decide +kernel, fun h => absurd h.1 (by decide +kernel)⟩⟩

/-- The inner neighbour of 95 in lane 1 of the cargo ship is the unit at 50, 40 long and 5 from it. -/
theorem test_place_hypotheses_at_the_end_of_the_lane :
    (let q := placing 11 1 95 1; let f := request 1 .place (placeBytes q); let s := asked cargoShip f
     Handed .place none s f [] ∧ readPlace s f.payload = some q ∧ s.unit? q.ref = none ∧ ¬ 512 ≤ s.units.length ∧
       (s.lane q.lane).state = .opened ∧ (s.lane q.lane).reservations = [] ∧ PlaceFits s q ∧ ¬ PlaceOrdered s q) ∧
    (let q := placing 11 1 160 0; let f := request 1 .place (placeBytes q); let s := asked heavyShip f
     Handed .place none s f [] ∧ readPlace s f.payload = some q ∧ s.unit? q.ref = none ∧ ¬ 512 ≤ s.units.length ∧
       (s.lane q.lane).state = .opened ∧ (s.lane q.lane).reservations = [] ∧ (PlaceFits s q ∧ PlaceOrdered s q) ∧
       ((s.deckFixed (s.laneFixed q.lane).deck).cap : Int) < s.stb.load[(s.laneFixed q.lane).deck] + q.weight) ∧
    (let q := placing 11 1 160 0; let f := request 1 .place (placeBytes q); let s := asked ship f
     Handed .place none s f [] ∧ readPlace s f.payload = some q ∧
       (s.lane q.lane).occupants.Pairwise (fun o p => o.offset < p.offset) ∧ s.unit? q.ref = none ∧
       s.units.length < 512 ∧ (s.lane q.lane).state = .opened ∧ (s.lane q.lane).reservations = [] ∧
       (PlaceFits s q ∧ PlaceOrdered s q) ∧
       s.stb.load[(s.laneFixed q.lane).deck] + q.weight ≤ ((s.deckFixed (s.laneFixed q.lane).deck).cap : Int)) := by
  have e : ∀ f, (asked cargoShip f).innerNeighbour 1 95 = some { ref := 6, offset := 50 } := fun f => by rfl
  have e' : ∀ f, (asked cargoShip f).outerNeighbour 1 95 = none := fun f => by rfl
  refine ⟨⟨handed_of (by decide +kernel), by decide +kernel, by decide +kernel, by decide +kernel, by decide +kernel,
      by decide +kernel, ⟨by decide +kernel, by decide +kernel, by decide +kernel, ?_, ?_⟩, ?_⟩,
    ⟨handed_of (by decide +kernel), by decide +kernel, by decide +kernel, by decide +kernel, by decide +kernel,
      by decide +kernel, fits_empty rfl rfl (by decide +kernel), by decide +kernel⟩,
    ⟨handed_of (by decide +kernel), by decide +kernel, by decide +kernel, by decide +kernel, by decide +kernel,
      by decide +kernel, by decide +kernel, fits_empty rfl rfl (by decide +kernel), by decide +kernel⟩⟩
  · intro o ho
    have h := ho.symm.trans (e _); cases h; decide +kernel
  · intro o ho
    have h := ho.symm.trans (e' _); cases h
  · intro h
    exact absurd (h.1 _ (e _)) (by decide +kernel)

/-- Heel hold asserted over a heavy unit ABOARD. -/
def heelingShip : State :=
  { cargoShip with
    units := [{ record 6 .aboard (some 1) with offset := some 50, decl := declared 6 300 }]
    hlm := { cargoShip.hlm with hold := true, lineHigh := true } }

theorem test_cargo_ship_meets_reservation_law : ReservationLaw cargoShip := by
  refine ⟨?_, ?_, ?_, both ?_, ?_, ?_, ?_, ?_, ?_, ?_, ?_, ?_, ?_⟩ <;> decide +kernel

theorem test_discharge_hypotheses :
    (let f := request 3 .discharge (beBytes 4 6); let s := asked cargoShip f
     Handed .discharge (deckOfRef s 6) s f [] ∧ readRef s f.payload = some 6 ∧
       (∃ v, s.unit? 6 = some v ∧ v.status = .aboard ∧ v.lane = some 1 ∧ v.offset = some 50) ∧
       (s.lane 1).occupants.getLast?.map (·.ref) = some 6 ∧ (s.lane 1).reservations = [] ∧ s.hlm.hold = false ∧
       ReservationLaw s) ∧
    (let f := request 3 .discharge (beBytes 4 6); let s := asked heelingShip f
     Handed .discharge (deckOfRef s 6) s f [] ∧ readRef s f.payload = some 6 ∧
       (∃ v, s.unit? 6 = some v ∧ v.status = .aboard ∧ v.lane = some 1 ∧ v.offset = some 50 ∧
         s.vessel.heavyThreshold ≤ v.decl.weight) ∧
       (s.lane 1).occupants.getLast?.map (·.ref) = some 6 ∧ (s.lane 1).reservations = [] ∧ s.hlm.hold = true) ∧
    (let f := request 3 .discharge (beBytes 4 6)
     let s := asked { cargoShip with lanes := cargoShip.lanes.set 1 { cargoShip.lane 1 with reservations := [2] } } f
     Handed .discharge (deckOfRef s 6) s f [] ∧ readRef s f.payload = some 6 ∧
       (∃ v, s.unit? 6 = some v ∧ v.status = .aboard ∧ v.lane = some 1 ∧ v.offset = some 50) ∧
       (s.lane 1).reservations ≠ []) :=
  ⟨⟨handed_of (by decide +kernel), by decide +kernel, ⟨_, rfl, by decide +kernel⟩, by decide +kernel, by decide +kernel,
      rfl, asked_law _ test_cargo_ship_meets_reservation_law⟩,
    ⟨handed_of (by decide +kernel), by decide +kernel, ⟨_, rfl, by decide +kernel⟩, by decide +kernel⟩,
    ⟨handed_of (by decide +kernel), by decide +kernel, ⟨_, rfl, by decide +kernel⟩, by decide +kernel⟩⟩

theorem test_lane_open_and_close_hypotheses :
    (let f := ofLane .laneOpen 0; let s := asked closingYard f
     readLane s f.payload = some 0 ∧ Handed .laneOpen (deckOfLane s 0) s f [] ∧ (s.lane 0).state ≠ .opened) ∧
    (let f := ofLane .laneOpen 3; let s := asked yard f
     readLane s f.payload = some 3 ∧ Handed .laneOpen (deckOfLane s 3) s f [] ∧ (s.lane 3).state = .opened) ∧
    (let f := ofLane .laneClose 0; let s := asked closingYard f
     readLane s f.payload = some 0 ∧ Handed .laneClose (deckOfLane s 0) s f [] ∧ (s.lane 0).state ≠ .opened) ∧
    (let f := ofLane .laneClose 0; let s := asked yard f
     readLane s f.payload = some 0 ∧ Handed .laneClose (deckOfLane s 0) s f [] ∧ (s.lane 0).state = .opened ∧
       ReservationLaw s) :=
  ⟨⟨by decide +kernel, handed_of (by decide +kernel), by decide +kernel⟩,
    ⟨by decide +kernel, handed_of (by decide +kernel), by decide +kernel⟩,
    ⟨by decide +kernel, handed_of (by decide +kernel), by decide +kernel⟩,
    ⟨by decide +kernel, handed_of (by decide +kernel), by decide +kernel, asked_law _ test_yard_meets_reservation_law⟩⟩

/-- A stretch that reaches past the end of lane 0 is clipped (R33), and one that is recorded is found (R36). -/
theorem test_obstruction_clear_hypotheses :
    (let q : SpanRequest := { lane := 0, start := 280, extent := 5 }; let f := request 3 .obstructionClear (spanBytes q)
     let s := asked crowdedYard f
     Handed .obstructionClear (deckOfLane s 0) s f [] ∧ readSpan s f.payload = some q ∧
       ({ start := 280, extent := 5 } : Obstruction) ∈ (s.lane 0).obstructions) ∧
    (let q : SpanRequest := { lane := 0, start := 299, extent := 300 }
     let f := request 3 .obstructionClear (spanBytes q); let s := asked yard f
     Handed .obstructionClear (deckOfLane s 0) s f [] ∧ readSpan s f.payload = some q ∧
       s.clip q = { start := 299, extent := 1 } ∧ s.clip q ∉ (s.lane 0).obstructions) :=
  ⟨⟨handed_of (by decide +kernel), by decide +kernel⟩, ⟨handed_of (by decide +kernel), by decide +kernel⟩⟩

/-- Lane 0 of the yard: four units at 0, 45, 90, 135. -/
theorem test_obstruction_add_hypotheses :
    (let q : SpanRequest := { lane := 1, start := 39, extent := 1 }; let f := request 3 .obstructionAdd (spanBytes q)
     let s := asked yard f
     Handed .obstructionAdd (deckOfLane s 1) s f [] ∧ readSpan s f.payload = some q ∧
       ∃ o ∈ (s.lane 1).occupants, o.offset < 39 + 1 ∧ 39 < o.offset + s.lengthOf o.ref) ∧
    (let q : SpanRequest := { lane := 0, start := 175, extent := 125 }; let f := request 3 .obstructionAdd (spanBytes q)
     let s := asked yard f
     Handed .obstructionAdd (deckOfLane s 0) s f [] ∧ readSpan s f.payload = some q ∧ (s.lane 0).occupants = [] ∧
       (s.lane 0).obstructions = [] ∧
       ∀ p ∈ projectFrom [{ start := 175, extent := 125 }] s.vessel.gap (s.startPoint 0)
         ((s.lane 0).reservations.map fun r => (r, s.lengthOf r)), p.stop ≤ 300) ∧
    (let q : SpanRequest := { lane := 0, start := 174, extent := 125 }; let f := request 3 .obstructionAdd (spanBytes q)
     let s := asked yard f
     Handed .obstructionAdd (deckOfLane s 0) s f [] ∧ readSpan s f.payload = some q ∧
       s.overlapsOccupant 0 (s.clip q) = false ∧ (s.lane 0).obstructions.length < 2 ∧ ReservationLaw s ∧
       (s.lane 0).reservations = [4, 5, 2] ++ [3] ∧
       (let fits (refs : List Ref) : Bool :=
          (projectFrom (insertObstruction (s.clip q) (s.lane 0).obstructions) s.vessel.gap (s.startPoint 0)
            (refs.map fun r => (r, s.lengthOf r))).all fun p => p.stop ≤ (s.laneFixed 0).length
        fits [4, 5, 2] = true ∧ fits ([4, 5, 2] ++ [3]) = false)) ∧
    (let q : SpanRequest := { lane := 0, start := 290, extent := 10 }; let f := request 3 .obstructionAdd (spanBytes q)
     let s := asked crowdedYard f
     Handed .obstructionAdd (deckOfLane s 0) s f [] ∧ readSpan s f.payload = some q ∧
       s.overlapsOccupant 0 (s.clip q) = false ∧ 2 ≤ (s.lane 0).obstructions.length ∧
       (s.lane 0).state ≠ .withdrawn ∧ ReservationLaw s) ∧
    (let q : SpanRequest := { lane := 1, start := 0, extent := 1 }; let f := request 3 .obstructionAdd (spanBytes q)
     let s := asked { ship with lanes := ship.lanes.set 1 { crowdedYard.lane 0 with state := .withdrawn, reservations := [] } } f
     Handed .obstructionAdd (deckOfLane s 1) s f [] ∧ readSpan s f.payload = some q ∧
       s.overlapsOccupant 1 (s.clip q) = false ∧ 2 ≤ (s.lane 1).obstructions.length ∧ (s.lane 1).state = .withdrawn) :=
  ⟨⟨handed_of (by decide +kernel), by decide +kernel, by decide +kernel⟩,
    ⟨handed_of (by decide +kernel), by decide +kernel, by decide +kernel, by decide +kernel, by decide +kernel⟩,
    ⟨handed_of (by decide +kernel), by decide +kernel, by decide +kernel, by decide +kernel,
      asked_law _ test_yard_meets_reservation_law, by decide +kernel⟩,
    ⟨handed_of (by decide +kernel), by decide +kernel, by decide +kernel, by decide +kernel, by decide +kernel,
      asked_law _ test_crowded_yard_meets_reservation_law⟩,
    ⟨handed_of (by decide +kernel), by decide +kernel, by decide +kernel, by decide +kernel, by decide +kernel⟩⟩

theorem test_ballast_and_flags_hypotheses :
    (let f := request 1 .setBallast (beInt 4 (-50000001) ++ beInt 4 50000000); let s := asked yard f
     Handed .setBallast none s f [] ∧ readBallast s f.payload = some (-50000001, 50000000)) ∧
    (let f := request 1 .clearFlags [0xFF]; let s := asked yard f
     Handed .clearFlags none s f [] ∧ readSelection s f.payload = some 0xFF) :=
  ⟨⟨handed_of (by decide +kernel), by decide +kernel⟩, ⟨handed_of (by decide +kernel), by decide +kernel⟩⟩

/-- The ship with ramp B CLOSED. -/
def oneRamp : State :=
  { ship with
    csc := ⟨ship.ramp .a, { ship.ramp .b with state := .closed, intervalTimer := none }⟩
    plates := ⟨ship.plate .a, Plate.reset⟩ }

theorem test_ramp_hypotheses :
    (let f := ofRamp .rampOpen 1; let s := asked oneRamp f
     readRamp s f.payload = some .b ∧ Handed .rampOpen none s f [] ∧ (s.ramp .b).state = .closed) ∧
    (let f := ofRamp .rampOpen 0; let s := asked oneRamp f
     readRamp s f.payload = some .a ∧ Handed .rampOpen none s f [] ∧ (s.ramp .a).state ≠ .closed) ∧
    (let f := ofRamp .rampClose 1; let s := asked oneRamp f
     readRamp s f.payload = some .b ∧ Handed .rampClose none s f [] ∧ (s.ramp .b).state ≠ .opened) ∧
    (let f := ofRamp .rampClose 0; let s := asked yard f
     Handed .rampClose none s f [] ∧ readRamp s f.payload = some .a ∧ (s.ramp .a).state = .opened ∧ ReservationLaw s) ∧
    (let q : RampSettings := { ramp := .a, ratio := 16, depth := 0, budget := 5001 }
     let f := request 1 .setRamp (setRampBytes q); let s := asked yard f
     Handed .setRamp none s f [] ∧ readSetRamp s f.payload = some q) ∧
    (oneRamp.ramp .b).intervalTimer = none ∧ (oneRamp.ramp .a).intervalTimer ≠ none :=
  ⟨⟨by decide +kernel, handed_of (by decide +kernel), by decide +kernel⟩,
    ⟨by decide +kernel, handed_of (by decide +kernel), by decide +kernel⟩,
    ⟨by decide +kernel, handed_of (by decide +kernel), by decide +kernel⟩,
    ⟨handed_of (by decide +kernel), by decide +kernel, by decide +kernel, asked_law _ test_yard_meets_reservation_law⟩,
    ⟨handed_of (by decide +kernel), by decide +kernel⟩, by decide +kernel⟩

/-! ## The hypotheses of the statements: calls, placements, crossings -/

/-- Ramp A of the yard with two units queued, called list as given. -/
def calling (s : State) (called : List Ref) : State :=
  { s with csc := ⟨{ s.ramp .a with called := called, callTimer := none }, s.ramp .b⟩ }

theorem test_call_hypotheses :
    ¬ ((oneRamp.ramp .b).state = .opened) ∧
    (∀ ref ∈ (ship.ramp .b).prio ++ (ship.ramp .b).ord, ¬ Eligible ship .b ref) ∧
    (let s := calling quietYard []
     s.session = .alongside ∧ (s.ramp .a).state = .opened ∧ (s.ramp .a).called.length < (s.ramp .a).depth ∧
       s.link.notices.length + 4 ≤ 16 ∧ Chosen s .a 2 0 ∧ ∃ v, s.unit? 2 = some v ∧ v.lane = some 0) := by
  refine ⟨by decide +kernel, by simp [ship, State.ramp, PerRamp.get], by decide +kernel, by decide +kernel,
    by decide +kernel, by decide +kernel, ?_, _, rfl, rfl⟩
  have e : Eligible (calling quietYard []) .a 2 :=
    ⟨_, _, rfl, rfl, by decide +kernel, by decide +kernel, by decide +kernel, by decide +kernel⟩
  refine .inr (.inr (.inr (.inr (.inl ⟨by decide +kernel, ?_, ⟨[], [], rfl, ?_, e⟩, rfl⟩))))
  · rintro ⟨o, ho, -⟩
    simp [calling, quietYard, ship, State.ramp, PerRamp.get] at ho
  · intro x hx; cases hx

theorem test_uncall_hypotheses :
    (let f := request 3 .skip (beBytes 4 4); let s := asked yard f
     (∃ v, s.unit? 4 = some v ∧ v.status = .called ∧ v.lane = some 0 ∧ v.noShow = 0) ∧ (s.lane 0).state ≠ .closing ∧
       ReservationLaw s ∧ Handed .skip (deckOfRef s 4) s f [] ∧ readRef s f.payload = some 4 ∧
       (s.ramp (s.laneFixed 0).ramp).called.head? = some 4 ∧ (s.ramp (s.laneFixed 0).ramp).callTimer ≠ none) ∧
    ((calling yard [4, 5]).ramp .a).callTimer = none ∧
    (let f := request 3 .skip (beBytes 4 5); let s := asked closingYard f
     (∃ v, s.unit? 5 = some v ∧ v.status = .called ∧ v.lane = some 0) ∧ (s.lane 0).state = .closing ∧
       ReservationLaw s ∧ Handed .skip (deckOfRef s 5) s f [] ∧ readRef s f.payload = some 5) ∧
    ((∃ v, closingYard.unit? 4 = some v ∧ v.status = .called ∧ v.lane = some 0 ∧ v.noShow = 0) ∧
       (closingYard.ramp .a).called.head? = some 4 ∧ (closingYard.ramp .a).callTimer ≠ none) :=
  ⟨⟨⟨_, rfl, by decide +kernel⟩, by decide +kernel, asked_law _ test_yard_meets_reservation_law,
      handed_of (by decide +kernel), by decide +kernel⟩, by decide +kernel,
    ⟨⟨_, rfl, by decide +kernel⟩, by decide +kernel, asked_law _ test_closing_yard_meets_reservation_law,
      handed_of (by decide +kernel), by decide +kernel⟩,
    ⟨⟨_, rfl, by decide +kernel⟩, by decide +kernel⟩⟩

theorem test_second_no_show_hypotheses :
    let s := yard.modUnit 4 fun v => { v with noShow := 1 }
    (s.ramp .a).callTimer ≠ none ∧ (s.ramp .a).called.head? = some 4 ∧
      (∃ v, s.unit? 4 = some v ∧ v.status = .called ∧ v.lane = some 0 ∧ v.noShow ≠ 0) ∧ (s.laneFixed 0).ramp = .a ∧
      4 ∉ (s.ramp .a).prio ∧ 4 ∉ (s.ramp .a).ord :=
  ⟨by decide +kernel, by decide +kernel, ⟨_, rfl, by decide +kernel⟩, by decide +kernel, by decide +kernel,
    by decide +kernel⟩

/-- The yard with a service input, and with one of its records marked. -/
def served (items : List Item) (s : State) : State := { s with alc := { s.alc with service := items } }

/-- A unit with no lane wide enough: every lane's width class is below 3. -/
def wide (v : UnitRecord) : UnitRecord := { v with decl := { v.decl with widthClass := 3 } }

theorem test_placement_hypotheses :
    (let s := served [.walk] yard; ∀ ref cause, s.alc.service.head? ≠ some (.placement ref cause)) ∧
    (let s := served [.placement 8 (.present ⟨2, 0x0C, 7⟩)] markedYard
     s.alc.walk = [] ∧ ∃ v l, s.unit? 8 = some v ∧ s.placementLane v none = some l) ∧
    (let s := served [.placement 8 (.reallocation 1)] markedYard
     s.alc.walk = [] ∧ ∃ v l, s.unit? 8 = some v ∧ s.placementLane v (some 1) = some l ∧ l ≠ 1) ∧
    (let s := served [.placement 8 (.present ⟨2, 0x0C, 7⟩)] (markedYard.modUnit 8 wide)
     s.alc.walk = [] ∧ ∃ v, s.unit? 8 = some v ∧ s.placementLane v none = none) :=
  ⟨(by intro s ref cause h; cases h), ⟨by decide +kernel, _, _, rfl, rfl⟩,
    ⟨by decide +kernel, _, _, rfl, rfl, by decide +kernel⟩, ⟨by decide +kernel, _, rfl, by decide +kernel⟩⟩

theorem test_walk_hypotheses :
    (served [.placement 8 (.reallocation 1)] yard).alc.service.head? ≠ some .walk ∧
    (served [.walk] yard).alc.walk = [] ∧ (served [.walk] yard).alc.service = .walk :: [] ∧
    (let s := { yard with alc := { yard.alc with walk := [7] } }
     s.alc.walk = 7 :: [] ∧ s.alc.walk.Nodup ∧ ∃ v l, s.unit? 7 = some v ∧ s.placementLane v none = some l) ∧
    (let s := { (yard.modUnit 7 wide) with alc := { yard.alc with walk := [7] } }
     s.alc.walk = 7 :: [] ∧ s.alc.walk.Nodup ∧ ∃ v, s.unit? 7 = some v ∧ s.placementLane v none = none) :=
  ⟨by decide +kernel, by decide +kernel, by decide +kernel, ⟨by decide +kernel, by decide +kernel, _, _, rfl, rfl⟩,
    ⟨by decide +kernel, by decide +kernel, _, rfl, by decide +kernel⟩⟩

/-- A search for unit 4 after a crossing of three axles that weighed 55. -/
def search : Redirect :=
  { ref := 4, ramp := .a, weightUsed := 55, axleFigure := 30, reserved := some 0
    result := { measured := some { weight := 55, maxAxle := 30 }, axleCount := 3, mismatch := false, weighFault := false,
                axlesDiffer := true } }

theorem test_redirect_hypotheses :
    (∀ y, (served [.walk] yard).alc.service.head? ≠ some (.redirect y)) ∧
    (let s := served [.redirect search] yard
     s.alc.walk = [] ∧ ∃ v l, s.unit? search.ref = some v ∧ s.redirectLane v search = some l) ∧
    (let y := { search with axleFigure := 201 }; let s := served [.redirect y] yard
     s.alc.walk = [] ∧ ∃ v, s.unit? y.ref = some v ∧ s.redirectLane v y = none) :=
  ⟨(by intro y h; cases h), ⟨by decide +kernel, _, _, rfl, rfl⟩, ⟨by decide +kernel, _, rfl, by decide +kernel⟩⟩

/-- A WEIGHING plate: two axles, 55 in all, 30 the heavier. -/
def weighing (unit : Option Ref) : Plate :=
  { state := .weighing, unit := unit, axleCount := 2, busy := false, axleSum := 55, axleMax := 30, fault := false,
    gapTimer := some 1000 }

/-- The yard with unit 4 on the plate of ramp A. -/
def crossingYard : State :=
  { yard.modUnit 4 (fun v => { v with status := .crossing }) with
    csc := ⟨{ yard.ramp .a with callTimer := none }, yard.ramp .b⟩
    plates := ⟨weighing (some 4), yard.plate .b⟩ }

theorem test_axle_edge_hypotheses :
    (oneRamp.plate .b).state = .disarmed ∧
    ((yard.plate .a).state = .idle ∧ (yard.ramp .a).called.head? = some 4 ∧ ∃ v, yard.unit? 4 = some v) ∧
    ((yard.plate .b).state = .idle ∧ (yard.ramp .b).called = []) ∧ (crossingYard.plate .a).state = .weighing :=
  ⟨rfl, ⟨rfl, rfl, _, rfl⟩, ⟨rfl, rfl⟩, rfl⟩

theorem test_conversion_hypotheses :
    (crossingYard.plate .a).busy = false ∧
      (let s := { ship with plates := ⟨{ weighing none with busy := true }, ship.plate .b⟩ }; (s.plate .a).busy = true) :=
  ⟨rfl, rfl⟩

/-- An unexpected crossing, on an OPEN ramp and on a CLOSING one. -/
def strayShip (x : RampState) : State :=
  { ship with csc := ⟨{ ship.ramp .a with state := x }, ship.ramp .b⟩, plates := ⟨weighing none, ship.plate .b⟩ }

theorem test_unexpected_crossing_hypotheses :
    (ship.plate .a).state ≠ .weighing ∧
    (∀ x, let p := (strayShip x).plate .a
      p.state = .weighing ∧ p.gapTimer ≠ none ∧ p.busy = false ∧ p.unit = none) :=
  ⟨by decide +kernel, fun x => by cases x <;> decide +kernel⟩

/-- 55 lies in the window 45..55 of a declared weight of 50 with a tolerance of 10 (R57), at its upper end. -/
theorem test_commit_hypotheses :
    (let p := crossingYard.plate .a
     p.state = .weighing ∧ p.gapTimer ≠ none ∧ p.busy = false ∧ p.unit = some 4) ∧
    ∃ v, crossingYard.unit? 4 = some v ∧ v.lane = some 0 ∧ CommitTests crossingYard .a (crossingYard.plate .a) v 0 :=
  ⟨⟨rfl, by decide +kernel, rfl, rfl⟩, _, rfl, rfl, by decide +kernel, by decide +kernel,
    fun h => absurd h.2 (by decide +kernel)⟩

/-- The heavier axle is 201, one above the axle limit of lane 0; and unit 4 without a lane. -/
theorem test_handed_to_search_hypotheses :
    (let s := { crossingYard with plates := ⟨{ weighing (some 4) with axleMax := 201 }, yard.plate .b⟩ }
     let p := s.plate .a
     (p.state = .weighing ∧ p.gapTimer ≠ none ∧ p.busy = false ∧ p.unit = some 4) ∧
       ∃ v, s.unit? 4 = some v ∧ v.lane = some 0 ∧ (s.laneFixed 0).ramp = .a ∧ 4 ∉ (s.ramp .a).prio ∧
         4 ∉ (s.ramp .a).ord ∧ ¬ CommitTests s .a p v 0) ∧
    (let s := crossingYard.modUnit 4 fun v => { v with lane := none }
     let p := s.plate .a
     (p.state = .weighing ∧ p.gapTimer ≠ none ∧ p.busy = false ∧ p.unit = some 4) ∧
       ∃ v, s.unit? 4 = some v ∧ v.lane = none) :=
  ⟨⟨⟨rfl, by decide +kernel, rfl, rfl⟩, _, rfl, rfl, rfl, by decide +kernel, by decide +kernel,
      fun h => absurd h.1 (by decide +kernel)⟩,
    ⟨⟨rfl, by decide +kernel, rfl, rfl⟩, _, rfl, rfl⟩⟩

theorem test_sample_hypotheses :
    State.reset.hlm.sampleTimer = none ∧ ship.hlm.sampleTimer ≠ none ∧
      (let s := { ship with hlm := { ship.hlm with history := [1, 2, 3, 4] } }
       s.hlm.sampleTimer ≠ none ∧ s.hlm.history.length ≤ 4) := by decide +kernel

/-! ## The hypotheses of the statements: the Profile Store and the sessions -/

theorem test_load_end_hypotheses :
    ship.session ≠ .loading ∧ State.reset.session = .loading ∧ State.reset.hlm.history.length ≤ 4 := by decide +kernel

/-- The ship in NO_VESSEL, whose memory link the planning computer may use. -/
def dockShip : State := { ship with session := .noVessel, ageing := none }

/-- A chunk for the Profile Store. -/
def chunk (target : SectionId) (offset : Nat) (bytes : List Byte) : Frame :=
  request 1 .profileWrite ([byte target.code] ++ beBytes 2 offset ++ bytes)

/-- Ten bytes for addresses 60 to 69: a part of 4 and a part of 6. -/
def write : MemWrite :=
  { ticket := ⟨1, 0x21, 7⟩, target := .stations, offset := 2, address := 60, bytes := [1, 2, 3, 4, 5, 6, 7, 8, 9, 10] }

def writing : State :=
  { dockShip with
    link := { dockShip.link with reserved := [⟨1, 0x21, 7⟩] }
    pst := { dockShip.pst with write := some write, mem := [(60, 0x0F), (64, 0xF0)] } }

theorem test_profile_write_hypotheses :
    (let f := chunk .header 0 [0x7E]; let s := asked writing f
     Handed .profileWrite none s f [] ∧ readChunk s f.payload = some { target := .header, offset := 0, bytes := [0x7E] } ∧
       s.pst.write ≠ none) ∧
    (let f := chunk .header 53 [0x7E]; let s := asked dockShip f
     Handed .profileWrite none s f [] ∧ readChunk s f.payload = some { target := .header, offset := 53, bytes := [0x7E] } ∧
       s.pst.write = none ∧ s.pst.sigPassed = true ∧ 53 + 1 ≤ 54) ∧
    (let f := chunk .header 54 [0x7E]; let s := asked dockShip f
     Handed .profileWrite none s f [] ∧ readChunk s f.payload = some { target := .header, offset := 54, bytes := [0x7E] } ∧
       s.pst.write = none ∧ ¬ 54 + 1 ≤ 54) ∧
    (let f := chunk .stations 0 (List.replicate 128 0); let s := asked dockShip f
     Handed .profileWrite none s f [] ∧ s.pst.write = none ∧ s.pst.writeTable = none ∧
       readChunk s f.payload = some { target := .stations, offset := 0, bytes := List.replicate 128 0 }) ∧
    (let es : List SectionEntry := [{ id := .stations, start := 500, length := 120, crc := 0 }]
     let f := chunk .stations 119 [5]
     let s := asked { dockShip with pst := { dockShip.pst with writeTable := some es } } f
     Handed .profileWrite none s f [] ∧ s.pst.write = none ∧ s.pst.writeTable = some es ∧
       readChunk s f.payload = some { target := .stations, offset := 119, bytes := [5] } ∧
       119 + 1 ≤ (entryOf es .stations).length) :=
  ⟨⟨handed_of (by decide +kernel), by decide +kernel⟩, ⟨handed_of (by decide +kernel), by decide +kernel⟩,
    ⟨handed_of (by decide +kernel), by decide +kernel⟩, ⟨handed_of (by decide +kernel), by decide +kernel⟩,
    ⟨handed_of (by decide +kernel), by decide +kernel⟩⟩

theorem test_memory_write_hypotheses :
    dockShip.pst.write = none ∧ writing.pst.write = some write ∧ 1 ≤ write.bytes.length ∧ write.bytes.length ≤ 128 ∧
      write.address + write.bytes.length ≤ 16777216 ∧ MemoryLaw writing :=
  ⟨rfl, rfl, by decide +kernel, by decide +kernel, by decide +kernel, by show _ = true; decide +kernel⟩

theorem test_profile_reload_hypotheses :
    (let f := plain .profileReload; let s := asked writing f
     Handed .profileReload none s f [] ∧ readEmpty s f.payload = some ⟨⟩ ∧ s.pst.write ≠ none) ∧
    (let f := plain .profileReload; let s := asked dockShip f
     Handed .profileReload none s f [] ∧ readEmpty s f.payload = some ⟨⟩ ∧ s.pst.write = none) :=
  ⟨⟨handed_of (by decide +kernel), by decide +kernel⟩, ⟨handed_of (by decide +kernel), by decide +kernel⟩⟩

theorem test_session_hypotheses :
    (let f := plain .vesselOpen; let s := asked dockShip f
     Handed .vesselOpen none s f [] ∧ readEmpty s f.payload = some ⟨⟩) ∧
    (let f := plain .vesselSecure; let s := asked yard f
     Handed .vesselSecure none s f [] ∧
       0 < (s.units.filter fun v => decide (v.status = .called) || decide (v.status = .crossing)).length) ∧
    (let f := plain .vesselSecure; let s := asked (strayShip .closing) f
     Handed .vesselSecure none s f [] ∧ (s.plate .a).state = .weighing) ∧
    (let f := plain .vesselSecure; let s := asked (served [.walk] quietYard) f
     Handed .vesselSecure none s f [] ∧
       (s.units.filter fun v => decide (v.status = .called) || decide (v.status = .crossing)).length = 0 ∧
       (¬ ∃ r, (s.plate r).state = .weighing) ∧ s.alc.service ≠ []) ∧
    (let f := plain .vesselSecure; let s := asked quietYard f
     Handed .vesselSecure none s f [] ∧ readEmpty s f.payload = some ⟨⟩ ∧
       (s.units.filter fun v => decide (v.status = .called) || decide (v.status = .crossing)).length = 0 ∧
       (¬ ∃ r, (s.plate r).state = .weighing) ∧ s.alc.service = [] ∧ s.alc.walk = [] ∧ ReservationLaw s) ∧
    (let f := plain .vesselReopen; let s := asked { quietYard with session := .secured } f
     Handed .vesselReopen none s f [] ∧ readEmpty s f.payload = some ⟨⟩) ∧
    (let f := plain .vesselRelease; let s := asked { quietYard with session := .secured } f
     Handed .vesselRelease none s f [] ∧ readEmpty s f.payload = some ⟨⟩) :=
  ⟨⟨handed_of (by decide +kernel), by decide +kernel⟩, ⟨handed_of (by decide +kernel), by decide +kernel⟩,
    ⟨handed_of (by decide +kernel), by decide +kernel⟩,
    ⟨handed_of (by decide +kernel), by decide +kernel, (fun ⟨r, h⟩ => by cases r <;> cases h), by decide +kernel⟩,
    ⟨handed_of (by decide +kernel), by decide +kernel, by decide +kernel, (fun ⟨r, h⟩ => by cases r <;> cases h),
      by decide +kernel, by decide +kernel, asked_law _ test_quiet_yard_meets_reservation_law⟩,
    ⟨handed_of (by decide +kernel), by decide +kernel⟩, ⟨handed_of (by decide +kernel), by decide +kernel⟩⟩

theorem test_query_hypotheses :
    (let f := request 2 .queryUnit (beBytes 4 6); let s := asked yard f
     Handed .queryUnit (deckOfRef s 6) s f [] ∧ readRef s f.payload = some 6 ∧ ∃ v, s.unit? 6 = some v) ∧
    (let f := request 3 .queryLane [3, 255]; let s := asked yard f
     Handed .queryLane (deckOfLane s 3) s f [] ∧ readLaneQuery s f.payload = some (3, 255)) ∧
    (let f := request 3 .queryQueue [0, 2, 1, 255]; let s := asked yard f
     Handed .queryQueue none s f [] ∧ readQueueQuery s f.payload = some { ramp := .a, named := .called, start := 511 } ∧
       ∀ ref ∈ (s.ramp .a).named .called, s.unit? ref ≠ none) ∧
    (let f := request 2 .queryStatus []; let s := asked yard f
     Handed .queryStatus none s f [] ∧ readEmpty s f.payload = some ⟨⟩) :=
  ⟨⟨handed_of (by decide +kernel), by decide +kernel, _, rfl⟩, ⟨handed_of (by decide +kernel), by decide +kernel⟩,
    ⟨handed_of (by decide +kernel), by decide +kernel, by decide +kernel⟩,
    ⟨handed_of (by decide +kernel), by decide +kernel⟩⟩

/-! ## The hypotheses of the statements: the link -/

theorem test_arbiter_hypotheses :
    ({ ship with link := { ship.link with tx := .response [] } }).link.tx ≠ .idle ∧
    ({ ship with link := { ship.link with tx := .notice [1] } }).link.tx = .notice [1] ∧
    ({ ship with link := { ship.link with tx := .state .heel [1] } }).link.tx = .state .heel [1] ∧
    ((nearlyFull ship).link.tx = .idle ∧ (nearlyFull ship).link.filled ≠ []) ∧
    (let s := { ship with link := { ship.link with notices := [.laneWithdrawn 0 0] } }
     s.link.tx = .idle ∧ s.link.filled = [] ∧ s.link.notices = .laneWithdrawn 0 0 :: []) ∧
    (let s := ship.setFlag (.gateHold .b)
     s.link.tx = .idle ∧ s.link.filled = [] ∧ s.link.notices = [] ∧ s.isPending (.gateHold .b) = true ∧
       ∀ y ∈ Subject.all, y.index < (Subject.gateHold Ramp.b).index → s.isPending y = false) ∧
    (∀ y ∈ Subject.all, ship.isPending y = false) := by decide +kernel

/-- A payload of 196 bytes, the longest; a body with a wrong CRC; a LEN below and one above the range; stray bytes. -/
theorem test_receiver_hypotheses :
    ship.link.rx = .hunting ∧ (List.replicate 196 (0xD4 : Byte)).length ≤ 196 ∧
    (let body : List Byte := [1, 0x2B, 7]
     3 ≤ body.length ∧ body.length ≤ 199 ∧
       (0 : Byte).toNat * 256 + (0 : Byte).toNat ≠ (crc16 (byte body.length :: body)).toNat) ∧
    (2 : Byte).toNat < 3 ∧ 199 < (200 : Byte).toNat ∧ 199 < (0xD4 : Byte).toNat ∧ (0xD3 : Byte) ≠ 0xD4 := by
  decide +kernel

/-- Every bound of the declared part at once, from above and from below. -/
theorem test_declared_ranges_at_their_ends :
    DeclaredInRange
      { ref := 4294967294, kind := .coach, length := 250, widthClass := 2, heightClass := 3, weight := 600,
        axles := some 12, maxAxle := some 400, hazard := some 63, service := some 7, group := 3 } ∧
    DeclaredInRange
      { ref := 1, kind := .car, length := 20, widthClass := 0, heightClass := 0, weight := 5, axles := some 1,
        maxAxle := some 1, hazard := some 1, service := some 0, group := 0 } := by
  unfold DeclaredInRange
  decide +kernel

theorem test_payload_hypotheses :
    ship.session ≠ .noProfile ∧ ({ State.reset with session := .noProfile } : State).session = .noProfile ∧
    readBook ship (declaredBytes (declared 11 50)) = some (declared 11 50) ∧
    readBook ship ((declaredBytes (declared 11 50)).set 11 16) = none ∧
    readCheckIn ship (checkInBytes 7 (some 250)) = some (7, some 250) ∧ readCheckIn ship (checkInBytes 7 (some 251)) = none ∧
    (let q := placing 4294967294 3 1999 3; readPlace ship (placeBytes q) = some q) ∧
    (readPlace { State.reset with session := .noProfile } ((placeBytes (placing 11 3 0 3)).set 11 200)).isSome = true ∧
    (let q : SpanRequest := { lane := 3, start := 1999, extent := 2000 }; readSpan ship (spanBytes q) = some q) ∧
    readSpan ship [3, 7, 208, 0, 1] = none ∧ readLane ship [4] = none ∧ readRamp ship [2] = none ∧
    readChunk ship (chunkBytes { target := .hazards, offset := 65535, bytes := [1] }) =
      some { target := .hazards, offset := 65535, bytes := [1] } ∧ readChunk ship [6, 0, 0] = none ∧
    readQueueQuery ship [1, 2, 1, 255] = some { ramp := .b, named := .called, start := 511 } ∧
    readQueueQuery ship [1, 2, 2, 0] = none := by decide +kernel

theorem test_image_hypotheses :
    ProfileInRange profile ∧ (List.replicate 63 HazardEntry.default).length = 63 ∧
      (∀ h ∈ List.replicate 63 HazardEntry.default, h.seg ≤ 3) ∧ Memory.wf [(3, 0), (16777215, 0)] = true :=
  ⟨⟨by decide +kernel, by decide +kernel, by decide +kernel, by decide +kernel, by decide +kernel⟩, by decide +kernel,
    by decide +kernel, by decide +kernel⟩

/-! ## The hypotheses of the statements: the laws -/

/-- The yard with a command waiting; no law speaks of the waiting commands. -/
def yardWith (c : Instr) : State := { yard with pending := [c] }

theorem test_yard_meets_lane_order_law : LaneOrderLaw yard := by
  intro l
  refine ⟨(yard.ramp (yard.laneFixed l).ramp).called.filter fun ref => decide (laneOf yard ref = some l),
    (yard.lane l).reservations.drop 2, ?_, ?_, rfl⟩ <;> revert l <;> decide +kernel

theorem test_yard_meets_sums_law : SumsLaw yard := by
  refine ⟨?_, ?_, ?_, ?_, ?_⟩ <;> decide +kernel

theorem test_yard_meets_ramp_plate_law : RampPlateLaw yard := both (by decide +kernel)

theorem test_yard_meets_cargo_law : CargoLaw yard := by
  refine ⟨?_, by decide +kernel, by decide +kernel, by decide +kernel⟩
  unfold DeclaredInRange
  decide +kernel

theorem test_step_laws_hypotheses :
    (∃ u, step (yardWith .ageingExpiry) = .next u) ∧ (∃ u, step (yardWith (.call .b)) = .next u) ∧
      ReservationLaw (yardWith .ageingExpiry) ∧ LaneOrderLaw (yardWith .ageingExpiry) ∧
      SumsLaw (yardWith .ageingExpiry) ∧ RampPlateLaw (yardWith .ageingExpiry) ∧ MemoryLaw (yardWith .ageingExpiry) ∧
      UnitTableLaw (yardWith .ageingExpiry) ∧ SlotLaw (yardWith .ageingExpiry) ∧ ClockLaw (yardWith .ageingExpiry) ∧
      BudgetLaw (yardWith .ageingExpiry) ∧ LineLaw (yardWith .ageingExpiry) ∧ BoundLaw (yardWith .ageingExpiry) ∧
      CargoLaw (yardWith .ageingExpiry) := by
  refine ⟨⟨_, rfl⟩, ⟨_, rfl⟩, test_yard_meets_reservation_law, test_yard_meets_lane_order_law, test_yard_meets_sums_law,
    test_yard_meets_ramp_plate_law, rfl, ⟨by decide +kernel, by decide +kernel⟩,
    ⟨by decide +kernel, by decide +kernel, by decide +kernel, by decide +kernel⟩,
    ⟨by decide +kernel, by decide +kernel, by decide +kernel⟩, ⟨both (by decide +kernel), ?_⟩,
    ⟨by decide +kernel, both (by decide +kernel), by decide +kernel⟩,
    ⟨by decide +kernel, by decide +kernel, by decide +kernel, by decide +kernel, (fun _ h => by cases h),
      (fun _ h => by cases h)⟩, test_yard_meets_cargo_law⟩
  intro p h
  cases h
  decide +kernel

/-! ## Well-formedness: each check refuses a term -/

theorem test_ill_formed_commands :
    (Instr.hardwareReset false false 4 []).wellFormed = false ∧
      (Instr.hardwareReset false false 3 (List.replicate 65 0)).wellFormed = false ∧
      (Instr.frameComplete []).wellFormed = false ∧ (Instr.frameDiscarded []).wellFormed = false ∧
      (Instr.profileWriteEnd (List.replicate 129 0)).wellFormed = false ∧
      (Instr.writeTimeout 3 []).wellFormed = false ∧
      (Instr.writeTimeout 2 (List.replicate 65 0)).wellFormed = false := by decide

theorem test_well_formed_commands :
    (Instr.hardwareReset true true 3 (List.replicate 64 0)).wellFormed = true ∧
      (Instr.frameComplete [0]).wellFormed = true ∧ (Instr.frameDiscarded [0]).wellFormed = true ∧
      (Instr.profileWriteEnd (List.replicate 128 0)).wellFormed = true ∧
      (Instr.writeTimeout 2 (List.replicate 64 0)).wellFormed = true := by decide

/-! ## The spec's worked figures -/

/-- R170: the check of "123456789" is 0x29B1. -/
theorem test_crc_of_nine_digits : crc16 [0x31, 0x32, 0x33, 0x34, 0x35, 0x36, 0x37, 0x38, 0x39] = 0x29B1 := by
  decide +kernel

/-- Section 2.6: units of 165 and 90 past the obstructions 180+40 and 300+30; then with O2 cleared and car D behind; then
with O3 at 400+150, when B ends at 640. -/
theorem test_projection_of_lane_22 :
    (projectFrom [⟨180, 40⟩, ⟨300, 30⟩] 5 125 [(1, 165), (2, 90)]).map (fun p => (p.offset, p.stop)) =
        [(330, 495), (500, 590)] ∧
      (projectFrom [⟨180, 40⟩] 5 125 [(1, 165), (2, 90), (3, 45)]).map (fun p => (p.offset, p.stop)) =
        [(220, 385), (390, 480), (485, 530)] ∧
      (projectFrom [⟨180, 40⟩, ⟨400, 150⟩] 5 125 [(1, 165), (2, 90)]).map (fun p => (p.offset, p.stop)) =
        [(220, 385), (550, 640)] := by decide

/-- Section 2.7: warning on 85, off 80. -/
theorem test_deck_warning_sequence :
    let d : DeckFixed := { cap := 500, reserve := 0, warnOn := 85, warnOff := 80 }
    [82, 84, 86, 83, 80, 79].foldl (fun (p : Bool × List Bool) f =>
      let w := warningAfter d p.1 f
      (w, p.2 ++ [w])) (false, []) = (false, [false, false, true, true, true, false]) := by decide

/-- Section 3.4: the trim half in lanes 14 and 15, and the list half. -/
theorem test_moments_of_the_trailer :
    let v := { profile.vessel with listLimit := 400000, trimLo := -1000000, trimHi := 2500000 }
    trimDistance v 2564000 = 64000 ∧ trimImproves v 2450000 2564000 = false ∧ trimImproves v 2450000 2127000 = true ∧
      listImproves v (-12000) (-27200) = true ∧ commitMoment v (-27200) 2127000 (-36000) 2250800 = true ∧
      commitMoment v 0 2510000 0 2510000 = true := by decide

/-- Section 3.4 and 3.5: the levers of lanes 14 and 15. -/
theorem test_levers :
    let lane15 := { LaneFixed.blank with length := 1200, dir := .aft, xInner := -250 }
    let lane14 := { LaneFixed.blank with length := 1200, dir := .fore, xInner := -300 }
    lane14.xMid = 300 ∧ lane15.xMid = -850 ∧ lane15.xUnit 0 165 = -332 ∧ lane14.xUnit 246 165 = 28 := by decide

/-- The table of section 3.6. -/
theorem test_weight_window :
    inWindow 380 8 600 = false ∧ inWindow 420 8 435 = true ∧ inWindow 5 25 6 = true ∧ inWindow 5 25 7 = false ∧
      inWindow 5 25 3 = true ∧ inWindow 5 25 2 = false := by decide

/-- Section 3.7: the first crossing's five codes. -/
theorem test_axle_loads : [520, 690, 700, 655, 660].map (axleLoad rampRecord) = [120, 162, 165, 153, 155] := by decide

/-- Section 3.7: the fourth axle brings the sum to 600, the fifth leaves it there. -/
theorem test_conversion_saturates :
    let p : Plate := { weighing (some 4) with busy := true, axleSum := 600, axleMax := 165 }
    let s := { ship with plates := ⟨p, ship.plate .b⟩ }
    after (.conversionComplete .a 660) s = { s with plates := ⟨{ p with busy := false }, ship.plate .b⟩ } := by
  decide +kernel

/-- Section 8.2: the falling tide, limit 120, rise 5, fall 8. -/
theorem test_falling_tide :
    ([118, 124, 125, 126, 121, 112, 111].foldl (fun (p : ComparatorState × List ComparatorState) g =>
      let x := comparatorAfter rampRecord p.1 g
      (x, p.2 ++ [x])) (.clear, [])).2 =
        [.clear, .clear, .clear, .restricted, .restricted, .restricted, .clear] := by decide

/-- Section 8.3: the heel after each of the twelve readings, span 1000. -/
theorem test_heel_readings :
    ([-37, -41, -40, -45, -80, -85, -90, -92, -60, -50, -45, -40].foldl (fun (p : List Int × List Int) c =>
      let h := historyAfter p.1 c
      (h, p.2 ++ [heelOf 1000 h])) ([], [])).2 =
        [-72, -76, -76, -78, -99, -121, -146, -167, -158, -142, -119, -93] := by decide

/-- Section 8.3: the hold over the last six, on 150, off 100. -/
theorem test_heel_hold_sequence :
    let v := { profile.vessel with heelOn := 150, heelOff := 100 }
    ([-146, -167, -158, -142, -119, -93].foldl (fun (p : Bool × List Bool) h =>
      let x := heelHoldAfter v p.1 h
      (x, p.2 ++ [x])) (false, [])).2 = [false, true, true, true, true, false] := by decide

/-- Section 4.9: the axle estimate of truck V, 260 over three axles; R60 without a count: half, rounded up. -/
theorem test_axle_estimates :
    (({ declared 1 260 with axles := some 3 }).axleEstimate = 87) ∧ (({ declared 1 5 with axles := none }).axleEstimate = 3) ∧
      (({ declared 1 260 with maxAxle := some 90 }).axleEstimate = 90) := by decide

/-! ## One step each -/

/-- Section 9.3: H3 of 45 at 200, between H1 (ends at 160) and H2 at 300; the sums rise by 15 times the levers. -/
theorem test_place_between_two :
    let q := { placing 11 1 60 1 with weight := 15, length := 45 }
    let s := asked cargoShip (request 1 .place (placeBytes { q with offset := 95, group := 0 }))
    ((after .place s).lane 1).occupants = [{ ref := 6, offset := 50 }, { ref := 11, offset := 95 }] ∧
      (after .place s).stb.mlC = 15 * 60 ∧ (after .place s).stb.mtC = 15 * -(95 + 22) ∧
      (after .place s).stb.load = #v[15, 0, 0, 0] := by decide +kernel

/-- R112 and R111: with no ordinary unit eligible the priority unit goes, the credit stays, the budget falls by its weight. -/
theorem test_call_takes_the_priority_unit :
    let s := after (.call .a) quietYard
    (s.ramp .a).called = [2] ∧ (s.ramp .a).prio = [] ∧ (s.ramp .a).remaining = 750 ∧ (s.ramp .a).credit = 0 ∧
      s.statusOf 2 = some .called ∧ s.link.notices = [.call .a 2 0 0] := by decide +kernel

/-- Section 6.11, on the yard: the head's follower goes to the front of the queue, the head to the back. -/
theorem test_no_show_with_a_follower :
    let s := after (.callTimerExpiry .a) yard
    (s.ramp .a).called = [] ∧ (s.ramp .a).ord = [5, 3, 4] ∧ (s.unit? 4).map (·.noShow) = some 1 ∧
      s.link.notices = [.uncall .a 4 .noShow (some 0), .uncall .a 5 .follower (some 0)] := by decide +kernel

/-- R10: a WAITING unit's cancel takes its weight out of the provisional sums, its place in the queue, and its record. -/
theorem test_cancel_releases :
    let s := after .cancel (asked yard (named .cancel 2))
    (s.lane 0).reservations = [4, 5, 3] ∧ (s.ramp .a).prio = [] ∧ s.stb.mlP = -9000 ∧ s.stb.mtP = 22500 ∧
      s.unit? 2 = none ∧ s.alc.service = [.walk] := by decide +kernel

/-- R135, R136: unit 4 weighed 55 commits at offset 0 of lane 0: lever 20, list 55 times -60. -/
theorem test_crossing_commits :
    let s := after (.gapTimerExpiry .a) crossingYard
    (s.lane 0).occupants = [{ ref := 4, offset := 0 }] ∧ (s.lane 0).reservations = [5, 2, 3] ∧
      s.stb.mlC = 3000 + 55 * -60 ∧ s.stb.mtC = -1000 + 55 * 20 ∧ s.stb.mlP = -9000 ∧ s.stb.mtP = 22500 ∧
      s.statusOf 4 = some .aboard ∧ s.alc.service = [] := by decide +kernel

/-- R170: QUERY_STATUS from station 1 with tag 7, its bytes written out, is taken into the receive buffer. -/
theorem test_frame_is_taken :
    (after (.frameComplete [0xD4, 0x03, 0x01, 0x2B, 0x07, 0x82, 0xD7]) ship).link.rxBuffer =
      [{ stn := 1, kind := 0x2B, tag := 7, payload := [] }] := by decide +kernel

/-- R168 and R163: a released ship is in NO_VESSEL; an opened one is ALONGSIDE. -/
theorem test_sessions :
    (after .vesselOpen (asked dockShip (plain .vesselOpen))).session = .alongside ∧
      (after .vesselRelease (asked { quietYard with session := .secured } (plain .vesselRelease))).session = .noVessel ∧
      (after .vesselSecure (asked quietYard (plain .vesselSecure))).session = .secured := by decide +kernel

/-- R182: at reset the memory holds nothing, so the load ends NO_MEMORY in NO_PROFILE. -/
theorem test_empty_memory :
    (after (.loadEnd 0 0 0) State.reset).session = .noProfile ∧
      (after (.loadEnd 0 0 0) State.reset).pst.startUp = .noMemory := by decide +kernel

/-- R185: ten bytes at 60 cross a page; at the limit with one part done, the second part's bits are mixed. -/
theorem test_write_timeout :
    let s := after (.writeTimeout 1 [0xFF, 0x00]) writing
    (List.range 11).map (fun i => memGet s.pst.mem (60 + i)) = [1, 2, 3, 4, 5, 0xFF, 0xFF, 0xFF, 0xFF, 0xFF, 0xFF] ∧
      s.link.filled = [{ ticket := ⟨1, 0x21, 7⟩, reply := .writeFailed 4 }] := by decide +kernel

/-! ## An image that loads -/

/-- The bytes of a memory from address 0, worked out by hand from R189: header, VESSEL, DECKS, one lane, RAMPS, STATIONS. -/
def imageHead : List Byte :=
  [126, 82, 1, 0, 1, 0, 0, 54, 0, 27, 200, 28, 2, 0, 0, 81, 0, 24, 233, 37, 3, 0, 0, 105, 0, 14, 214, 76, 4, 0,
   0, 119, 0, 38, 94, 220, 5, 0, 0, 157, 0, 120, 107, 174, 6, 0, 1, 21, 0, 189, 0, 0, 3, 168]
def imageVessel : List Byte :=
  [5, 0, 0, 234, 96, 255, 252, 47, 112, 0, 3, 208, 144, 1, 44, 0, 40, 0, 25, 2, 0, 1, 244, 0, 60, 2, 4]
def imageDecks : List Byte := [1, 244, 0, 50, 60, 40, 1, 244, 0, 50, 60, 40, 1, 244, 0, 50, 60, 40, 1, 244, 0, 50, 60, 40]
def imageLane : List Byte := [1, 0, 0, 1, 44, 0, 0, 0, 255, 196, 2, 3, 0, 200]
def imageRamps : List Byte :=
  [3, 32, 0, 60, 2, 3, 0, 60, 10, 40, 1, 0, 10, 120, 5, 8, 0, 3, 1, 3, 32, 0, 60, 2, 3, 0, 60, 10, 40, 1, 0, 10,
   120, 5, 8, 0, 3, 1]
def imageStations : List Byte := [1, 0, 7, 0, 2, 3, 6, 0, 3, 0, 0, 15, 3, 0, 0, 2] ++ List.replicate 104 0

/-- The memory that holds them. -/
def flash : List Host.Cell :=
  (imageHead ++ imageVessel ++ imageDecks ++ imageLane ++ imageRamps ++ imageStations).zipIdx.map fun p => (p.2, p.1)

/-- The section table of its header. -/
def flashTable : List SectionEntry :=
  [{ id := .vessel, start := 54, length := 27, crc := 51228 },
   { id := .decks, start := 81, length := 24, crc := 59685 },
   { id := .lanes, start := 105, length := 14, crc := 54860 },
   { id := .ramps, start := 119, length := 38, crc := 24284 },
   { id := .stations, start := 157, length := 120, crc := 27566 },
   { id := .hazards, start := 277, length := 189, crc := 0 }]

/-- The check of 120 bytes, in two halves. -/
theorem crc_of_stations : crc16 imageStations = 27566 := by
  have h : crc16 (imageStations.take 60) = 64852 := by decide +kernel
  have k : (imageStations.drop 60).foldl crcByte 64852 = 27566 := by decide +kernel
  rw [← List.take_append_drop 60 imageStations]
  unfold crc16 at *
  rw [List.foldl_append, h, k]

theorem test_image_passes :
    (let header := headerIn flash
     (¬ ∀ b ∈ header, b = 0xFF) ∧ signed header = true ∧ headerTable flash header = some flashTable) ∧
    (readSection flash 0 flashTable .vessel readVessel).isSome = true ∧
    (readSection flash 0 flashTable .decks readDecks).isSome = true ∧
    (readSection flash 0 flashTable .lanes readLanes).isSome = true ∧
    (readSection flash 0 flashTable .ramps readRamps).isSome = true ∧
    (readSection flash 0 flashTable .stations readStations).isSome = true := by
  refine ⟨by decide +kernel, by decide +kernel, by decide +kernel, by decide +kernel, by decide +kernel, ?_⟩
  have h : memReads flash (0 + SectionId.stations.code) 157 120 = imageStations := by decide +kernel
  have k : (readStations imageStations).isSome = true := by decide +kernel
  have e : entryOf flashTable .stations = ⟨.stations, 157, 120, 27566⟩ := by decide +kernel
  simp only [readSection, e, h, crc_of_stations, if_true, k]

/-- Memories that end a load earlier: blank, unsigned, signed with no table, and with the VESSEL section gone. -/
theorem test_load_failures_hypotheses :
    (∀ b ∈ headerIn [], b = 0xFF) ∧
    (let header := headerIn [(0, 0x7E), (1, 0x53)]; (¬ ∀ b ∈ header, b = 0xFF) ∧ signed header = false) ∧
    (let m : List Host.Cell := [(0, 0x7E), (1, 0x52)]
     (¬ ∀ b ∈ headerIn m, b = 0xFF) ∧ signed (headerIn m) = true ∧ headerTable m (headerIn m) = none) ∧
    (let m : List Host.Cell := flash.take 54 ++ [(105, 1)]
     headerTable m (headerIn m) = some flashTable ∧ mandatoryIds = [] ++ .vessel :: [.decks, .lanes, .ramps, .stations] ∧
       ¬ (readSection m 0 flashTable .vessel readVessel).isSome = true) := by decide +kernel

end Sys2Proof.Tests
end

namespace Sys2Proof.Machine

open Sys2Proof

/-! ## One unit on two plates -/

/-- A CROSSING unit whose reservation has been released. -/
def twiceCrossing : UnitRecord :=
  { decl := { ref := 1, kind := .car, length := 40, widthClass := 0, heightClass := 0, weight := 50, axles := none,
              maxAxle := none, hazard := none, service := none, group := 0 }
    cls := { priority := false, seg := 0, decks := 0xF, axleEst := 25 }
    status := .crossing, lane := none, offset := none, measured := none, axleCount := none, mismatch := false,
    weighFault := false, redirected := false, noShow := 0, age := 0, gate := some 2, mark := false }

/-- An OPEN ramp with that unit at the head of its called list. -/
def rampWithHead : RampRun := { RampRun.reset with state := .opened, intervalTimer := some 10000, called := [1] }

/-- A WEIGHING plate with that unit on it. -/
def plateWithUnit : Plate :=
  { Plate.reset with state := .weighing, unit := some 1, axleCount := 1, gapTimer := some 1000 }

/-- The unit stands at the head of both called lists and on both plates, and the crossing at ramp A is about to complete.
No run reaches this state; RampPlateLaw and ReservationLaw allow it, for the plate clause binds a CROSSING unit to one ramp
only through its lane field. -/
def unitOnBothPlates : State :=
  { State.reset with
    pending := [.gapTimerExpiry .a], session := .alongside, units := [twiceCrossing], checkIn := [1],
    csc := ⟨rampWithHead, rampWithHead⟩, plates := ⟨plateWithUnit, plateWithUnit⟩ }

/-- The state after the crossing at ramp A has completed. -/
def unitOnBothPlatesAfter : State :=
  let s := unitOnBothPlates.setPending []
  ((((s.clearPlate .a).leaveCalled .a 1).settle .a plateWithUnit twiceCrossing).timeHead .a).startTx

theorem rampPlateLaw_unitOnBothPlates : RampPlateLaw unitOnBothPlates := by
  intro r; cases r <;> decide

theorem lane_unitOnBothPlates (l : Lane) : unitOnBothPlates.lane l = LaneRun.reset := by
  simp [unitOnBothPlates, State.reset, State.resetWith, State.lane]

theorem reservationLaw_unitOnBothPlates : ReservationLaw unitOnBothPlates := by
  refine ⟨by decide, by decide, fun l => ?_, fun r => ?_, by decide, by decide, by decide, by decide, by decide, by decide,
    by decide, by decide, by decide⟩
  · rw [lane_unitOnBothPlates]; simp [LaneRun.reset]
  · cases r <;> decide

theorem step_unitOnBothPlates : step unitOnBothPlates = .next unitOnBothPlatesAfter := by rfl

/-- The redirect search waits while the unit is still in ramp B's called list, which R83's clause of the law denies. -/
theorem not_itemFits_unitOnBothPlatesAfter :
    ∃ x ∈ unitOnBothPlatesAfter.alc.service, itemFits unitOnBothPlatesAfter x = false := by decide

/-- Refutes O55: a unit that stands on both plates without a lane meets both laws; when the crossing at ramp A completes, its
redirect search is handed over while ramp B's called list still names it. -/
theorem not_reservationsStayConsistent : ¬ Obligations.ReservationsStayConsistent := by
  unfold Obligations.ReservationsStayConsistent
  intro h
  obtain ⟨-, -, -, -, hitems, -⟩ :=
    h _ _ rampPlateLaw_unitOnBothPlates reservationLaw_unitOnBothPlates step_unitOnBothPlates
  obtain ⟨x, hx, hno⟩ := not_itemFits_unitOnBothPlatesAfter
  exact absurd (hitems x hx) (by simp [hno])

end Sys2Proof.Machine

namespace Sys2Proof.Machine

open Sys2Proof

/-! ## What an operation inside an event keeps

A step takes a frame or serves an item, applies some of the shared operations, and ends with an answer and the arbiter's
choice. `Quiet` says what each of those operations keeps of the laws of timers, budgets, lines, bounds and slots, and of the
Unit Table; `Stowed` what most of them keep of the law of cargo. Both compose, so an operation made of others has them by
its parts. -/

/-- A ramp's part of BudgetLaw (R102, R113). -/
def RampRun.Budgeted (x : RampRun) : Prop :=
  x.ratio ≤ 15 ∧ 1 ≤ x.depth ∧ x.depth ≤ 4 ∧ 50 ≤ x.budget ∧ x.budget ≤ 5000 ∧ x.remaining ≤ x.budget ∧ x.credit ≤ x.ratio

/-- A ramp's part of LineLaw (R121). -/
def RampRun.LineFollows (x : RampRun) : Prop := x.lineHigh = x.gateHold

/-- The obstruction records of a lane as BoundLaw has them (R32). -/
def Obstructed (xs : List Obstruction) : Prop := xs.length ≤ 2 ∧ xs.Pairwise fun x y => x.start ≤ y.start

/-- The bounds of BoundLaw that an operation inside an event can touch (R32, R147, R176). -/
def InnerBounds (s : State) : Prop :=
  (∀ l, Obstructed (s.lane l).obstructions) ∧ s.hlm.history.length ≤ 4 ∧ s.link.notices.length ≤ 16

/-- A record's part of CargoLaw (R1, R3, R18). -/
def RecordFits (limit : Nat) (v : UnitRecord) : Prop :=
  DeclaredInRange v.decl ∧ v.age ≤ limit ∧ (v.status = .waiting → v.age < limit) ∧ (v.status = .booked → v.age = 0)

/-- What CargoLaw says of the Unit Table. -/
def RecordsFit (s : State) : Prop := 1 ≤ s.vessel.ageLimit ∧ ∀ v ∈ s.units, RecordFits s.vessel.ageLimit v

/-- What an operation inside an event keeps, whatever else it changes. -/
structure Quiet (s u : State) : Prop where
  session : u.session = s.session
  ageing : u.ageing.isSome = s.ageing.isSome
  sampling : u.hlm.sampleTimer.isSome = s.hlm.sampleTimer.isSome
  pst : u.pst = s.pst
  news : OnlyNews s u
  noticed : s.link.notices ≠ [] → u.link.notices ≠ []
  tickets : u.alc.service.filterMap Item.ticket? = s.alc.service.filterMap Item.ticket?
  table : UnitTableLaw s → UnitTableLaw u
  budget : BudgetLaw s → BudgetLaw u
  line : LineLaw s → LineLaw u
  bounds : InnerBounds s → InnerBounds u

/-- The profile, the occupants and their lengths stay, and no deck's load rises. -/
structure Stacked (s u : State) : Prop where
  shadow : u.pst.shadow = s.pst.shadow
  occupants : ∀ l, (u.lane l).occupants = (s.lane l).occupants
  lengths : ∀ l, ∀ o ∈ (s.lane l).occupants, u.lengthOf o.ref = s.lengthOf o.ref
  loads : ∀ d : Deck, u.stb.load[d] ≤ s.stb.load[d]

/-- Besides, the records keep to their ranges. -/
structure Stowed (s u : State) : Prop extends Stacked s u where
  records : RecordsFit s → RecordsFit u

/-- Both. -/
structure Steady (s u : State) : Prop extends Quiet s u, Stowed s u

theorem Quiet.refl (s : State) : Quiet s s :=
  ⟨rfl, rfl, rfl, rfl, onlyNews_refl s, id, rfl, id, id, id, id⟩

theorem Stacked.refl (s : State) : Stacked s s := ⟨rfl, fun _ => rfl, fun _ _ _ => rfl, fun _ => le_refl _⟩

theorem Stowed.refl (s : State) : Stowed s s := ⟨.refl s, id⟩

theorem Steady.refl (s : State) : Steady s s := { Quiet.refl s, Stowed.refl s with }

theorem Quiet.trans {s t u : State} (h : Quiet s t) (k : Quiet t u) : Quiet s u where
  session := k.session.trans h.session
  ageing := k.ageing.trans h.ageing
  sampling := k.sampling.trans h.sampling
  pst := k.pst.trans h.pst
  news := h.news.trans k.news
  noticed := k.noticed ∘ h.noticed
  tickets := k.tickets.trans h.tickets
  table := k.table ∘ h.table
  budget := k.budget ∘ h.budget
  line := k.line ∘ h.line
  bounds := k.bounds ∘ h.bounds

theorem Stacked.trans {s t u : State} (h : Stacked s t) (k : Stacked t u) : Stacked s u where
  shadow := k.shadow.trans h.shadow
  occupants l := (k.occupants l).trans (h.occupants l)
  lengths l o ho := (k.lengths l o (h.occupants l ▸ ho)).trans (h.lengths l o ho)
  loads d := (k.loads d).trans (h.loads d)

theorem Stowed.trans {s t u : State} (h : Stowed s t) (k : Stowed t u) : Stowed s u :=
  ⟨h.toStacked.trans k.toStacked, k.records ∘ h.records⟩

theorem Steady.trans {s t u : State} (h : Steady s t) (k : Steady t u) : Steady s u :=
  { h.toQuiet.trans k.toQuiet, h.toStowed.trans k.toStowed with }

theorem Quiet.after {s t u : State} (k : Quiet t u) (h : Quiet s t) : Quiet s u := h.trans k

theorem Stowed.after {s t u : State} (k : Stowed t u) (h : Stowed s t) : Stowed s u := h.trans k

theorem Steady.after {s t u : State} (k : Steady t u) (h : Steady s t) : Steady s u := h.trans k

/-- Operations on each of several things, one after another. -/
theorem Quiet.foldl {α : Type} {f : State → α → State} (h : ∀ s a, Quiet s (f s a)) (xs : List α) (s : State) :
    Quiet s (xs.foldl f s) := by
  induction xs generalizing s with
  | nil => exact .refl s
  | cons x xs ih => exact (h s x).trans (ih _)

theorem Steady.foldl {α : Type} {f : State → α → State} (h : ∀ s a, Steady s (f s a)) (xs : List α) (s : State) :
    Steady s (xs.foldl f s) := by
  induction xs generalizing s with
  | nil => exact .refl s
  | cons x xs ih => exact (h s x).trans (ih _)

/-! ## Updates of one field -/

variable (s : State)

theorem steady_setPending (q : List Instr) : Steady s (s.setPending q) := { Steady.refl s with }
theorem steady_setCheckIn (rs : List Ref) : Steady s (s.setCheckIn rs) := { Steady.refl s with }
theorem steady_setPlate (r : Ramp) (x : Plate) : Steady s (s.setPlate r x) := { Steady.refl s with }
theorem steady_setComp (r : Ramp) (x : Comparator) : Steady s (s.setComp r x) := { Steady.refl s with }

theorem steady_setFlag (x : Subject) : Steady s (s.setFlag x) := { Steady.refl s with news := onlyNews_setFlag s x }

theorem steady_setSticky (x : Sticky) : Steady s (s.setSticky x) :=
  { Steady.refl s with news := onlyNews_setSticky s x }

theorem steady_ageing {t : Timer} (h : t.isSome = s.ageing.isSome) : Steady s (s.setAgeing t) :=
  { Steady.refl s with ageing := h }

theorem steady_setAlc {x : Allocator}
    (h : x.service.filterMap Item.ticket? = s.alc.service.filterMap Item.ticket?) : Steady s (s.setAlc x) :=
  { Steady.refl s with tickets := h }

theorem steady_notify (n : Notice) : Steady s (s.notify n) := by
  unfold State.notify
  split
  · next h =>
    exact
      { Steady.refl s with
        news := ⟨rfl, rfl, rfl, rfl, rfl, rfl⟩
        noticed := fun _ => by simp [State.modLink]
        bounds := fun ⟨hl, hh, _⟩ => ⟨hl, hh, by
          simp only [State.modLink, List.length_append, List.length_singleton]; exact Nat.succ_le_of_lt h⟩ }
  · exact steady_setSticky s _

theorem Obstructed.lane_set {s : State} {l : Lane} {x : LaneRun}
    (h : Obstructed (s.lane l).obstructions → Obstructed x.obstructions)
    (hs : ∀ k, Obstructed (s.lane k).obstructions) (k : Lane) : Obstructed ((s.setLane l x).lane k).obstructions := by
  by_cases hk : k = l
  · subst hk; simpa using h (hs k)
  · simpa [State.lane_setLane_other _ _ hk] using hs k

theorem quiet_setLane {l : Lane} {x : LaneRun}
    (h : Obstructed (s.lane l).obstructions → Obstructed x.obstructions) : Quiet s (s.setLane l x) :=
  { Quiet.refl s with bounds := fun ⟨hl, hh⟩ => ⟨Obstructed.lane_set h hl, hh⟩ }

theorem steady_setLane {l : Lane} {x : LaneRun} (h : Obstructed (s.lane l).obstructions → Obstructed x.obstructions)
    (ho : x.occupants = (s.lane l).occupants) : Steady s (s.setLane l x) :=
  { Stowed.refl s, quiet_setLane s h with
    occupants := fun k => by
      by_cases hk : k = l
      · subst hk; simpa using ho
      · simp [State.lane_setLane_other _ _ hk] }

theorem quiet_setStb (x : Stability) : Quiet s (s.setStb x) := { Quiet.refl s with }

theorem steady_setStb {x : Stability} (h : ∀ d : Deck, x.load[d] ≤ s.stb.load[d]) : Steady s (s.setStb x) :=
  { Steady.refl s with loads := h }

theorem steady_setDeck {d : Deck} {x : DeckRun} (h : (s.deck d).lineLow = (s.deck d).warning → x.lineLow = x.warning) :
    Steady s (s.setDeck d x) :=
  { Steady.refl s with
    line := fun ⟨hd, hr⟩ => ⟨fun e => by
      by_cases he : e = d
      · subst he; simpa using h (hd e)
      · simpa [State.deck_setDeck_other _ _ he] using hd e, hr⟩ }

theorem steady_setHlm {x : HeelMonitor} (hs : x.sampleTimer.isSome = s.hlm.sampleTimer.isSome)
    (hl : s.hlm.lineHigh = s.hlm.hold → x.lineHigh = x.hold)
    (hh : s.hlm.history.length ≤ 4 → x.history.length ≤ 4) : Steady s (s.setHlm x) :=
  { Steady.refl s with
    sampling := hs
    line := fun ⟨hd, hr, hm⟩ => ⟨hd, hr, hl hm⟩
    bounds := fun ⟨ho, hi, hn⟩ => ⟨ho, hh hi, hn⟩ }

theorem steady_setRamp_of_law {r : Ramp} {x : RampRun} (hl : (s.ramp r).LineFollows → x.LineFollows)
    (hb : BudgetLaw s → x.Budgeted) : Steady s (s.setRamp r x) :=
  { Steady.refl s with
    budget := fun h => ⟨fun q => by
      by_cases hq : q = r
      · subst hq; rw [State.ramp_setRamp_same]; exact hb h
      · simpa [State.ramp_setRamp_other _ _ hq] using h.1 q, h.2⟩
    line := fun ⟨hd, hr, hm⟩ => ⟨hd, fun q => by
      by_cases hq : q = r
      · subst hq; rw [State.ramp_setRamp_same]; exact hl (hr q)
      · simpa [State.ramp_setRamp_other _ _ hq] using hr q, hm⟩ }

theorem steady_setRamp {r : Ramp} {x : RampRun} (hl : (s.ramp r).LineFollows → x.LineFollows)
    (hb : (s.ramp r).Budgeted → x.Budgeted) : Steady s (s.setRamp r x) :=
  steady_setRamp_of_law s hl fun h => hb (h.1 r)

/-! ## The Unit Table -/

/-- A change of a record that keeps its declared part. -/
def KeepsDecl (f : UnitRecord → UnitRecord) : Prop := ∀ u, (f u).decl = u.decl

theorem KeepsDecl.keepsRef {f : UnitRecord → UnitRecord} (h : KeepsDecl f) : KeepsRef f := fun u => by rw [h u]

theorem keepsRef_at {f : UnitRecord → UnitRecord} (h : KeepsRef f) (ref : Ref) :
    KeepsRef fun u => if u.decl.ref == ref then f u else u := fun u => by
  dsimp only; split <;> simp [h u]

theorem quiet_mapUnits {f : UnitRecord → UnitRecord} (h : KeepsRef f) : Quiet s (s.setUnits (s.units.map f)) :=
  { Quiet.refl s with table := fun ⟨hn, hr⟩ => ⟨by simpa using hn, unitsRise_map f h hr⟩ }

theorem quiet_modUnit (ref : Ref) {f : UnitRecord → UnitRecord} (h : KeepsRef f) : Quiet s (s.modUnit ref f) :=
  quiet_mapUnits s (keepsRef_at h ref)

theorem lengthOf_modUnit (ref r : Ref) {f : UnitRecord → UnitRecord} (h : KeepsDecl f) :
    (s.modUnit ref f).lengthOf r = s.lengthOf r := by
  unfold State.lengthOf
  rw [unitOf_modUnit s ref r f h.keepsRef]
  cases s.unit? r with
  | none => rfl
  | some v => simp only [Option.map_some]; split <;> simp [h v]

theorem recordsFit_modUnit {s : State} {ref : Ref} {f : UnitRecord → UnitRecord}
    (h : ∀ limit v, 1 ≤ limit → RecordFits limit v → RecordFits limit (f v)) (hs : RecordsFit s) :
    RecordsFit (s.modUnit ref f) := by
  obtain ⟨hl, hr⟩ := hs
  refine ⟨hl, fun v hv => ?_⟩
  obtain ⟨w, hw, rfl⟩ := List.mem_map.1 hv
  split
  · exact h _ w hl (hr w hw)
  · exact hr w hw

theorem steady_modUnit (ref : Ref) {f : UnitRecord → UnitRecord} (hd : KeepsDecl f)
    (hr : ∀ limit v, 1 ≤ limit → RecordFits limit v → RecordFits limit (f v)) : Steady s (s.modUnit ref f) :=
  { Stowed.refl s, quiet_modUnit s ref hd.keepsRef with
    lengths := fun _ _ _ => lengthOf_modUnit s ref _ hd
    records := recordsFit_modUnit hr }

/-- A change of a record's status, to one that is neither BOOKED nor WAITING, keeps its age. -/
theorem RecordFits.status {limit : Nat} {v : UnitRecord} (h : RecordFits limit v) {w : UnitRecord} (hd : w.decl = v.decl)
    (ha : w.age = v.age) (hw : w.status ≠ .waiting) (hb : w.status ≠ .booked) : RecordFits limit w := by
  obtain ⟨h1, h2, -, -⟩ := h
  exact ⟨hd ▸ h1, ha ▸ h2, fun e => absurd e hw, fun e => absurd e hb⟩

/-- A change that keeps declared part, age and status. -/
theorem RecordFits.same {limit : Nat} {v : UnitRecord} (h : RecordFits limit v) {w : UnitRecord} (hd : w.decl = v.decl)
    (ha : w.age = v.age) (hs : w.status = v.status) : RecordFits limit w := by
  obtain ⟨h1, h2, h3, h4⟩ := h
  exact ⟨hd ▸ h1, ha ▸ h2, fun e => ha ▸ h3 (hs ▸ e), fun e => ha ▸ h4 (hs ▸ e)⟩

/-- An age of 0 is within every limit. -/
theorem RecordFits.fresh {limit : Nat} {v : UnitRecord} (hl : 1 ≤ limit) (h : RecordFits limit v) {w : UnitRecord}
    (hd : w.decl = v.decl) (ha : w.age = 0) : RecordFits limit w :=
  ⟨hd ▸ h.1, by omega, fun _ => by omega, fun _ => ha⟩

theorem steady_setStatus (ref : Ref) {x : Status} (hw : x ≠ .waiting) (hb : x ≠ .booked) : Steady s (s.setStatus ref x) :=
  steady_modUnit s ref (fun _ => rfl) fun _ _ _ h => h.status rfl rfl hw hb

theorem quiet_retire (ref : Ref) : Quiet s (s.retire ref) :=
  { Quiet.refl s with
    table := fun ⟨hn, hr⟩ => ⟨(List.length_filter_le _ _).trans hn, unitsRise_filter _ hr⟩ }

theorem lengthOf_congr {s u : State} {r : Ref} (h : u.unit? r = s.unit? r) : u.lengthOf r = s.lengthOf r := by
  unfold State.lengthOf; rw [h]

/-- Retirement of a unit that is no occupant keeps the cargo. -/
theorem steady_retire {ref : Ref} (h : ∀ l, ∀ o ∈ (s.lane l).occupants, o.ref ≠ ref) : Steady s (s.retire ref) :=
  { Stowed.refl s, quiet_retire s ref with
    lengths := fun l o ho => lengthOf_congr (by simp [unitOf_retire, h l o ho])
    records := fun ⟨hl, hr⟩ => ⟨hl, fun v hv => hr v (List.mem_filter.1 hv).1⟩ }

theorem quiet_addUnit {v : UnitRecord} (hf : s.tableFull = false) (hn : s.unit? v.decl.ref = none) :
    Quiet s (s.addUnit v) :=
  { Quiet.refl s with
    table := fun ⟨_, hr⟩ =>
      ⟨(length_insertUnit v s.units).trans_le (not_le.1 (of_decide_eq_false hf)),
        unitsRise_insertUnit hr hn⟩ }

theorem lengthOf_addUnit_other {v : UnitRecord} {r : Ref} (h : r ≠ v.decl.ref) :
    (s.addUnit v).lengthOf r = s.lengthOf r := lengthOf_congr (unitOf_addUnit_other s v h)

theorem recordsFit_addUnit {s : State} {v : UnitRecord} (hv : DeclaredInRange v.decl) (ha : v.age = 0)
    (hs : RecordsFit s) : RecordsFit (s.addUnit v) := by
  obtain ⟨hl, hr⟩ := hs
  refine ⟨hl, fun w hw => ?_⟩
  have hl' : 1 ≤ s.vessel.ageLimit := hl
  rcases mem_insertUnit.1 hw with rfl | hw
  · exact ⟨hv, by rw [ha]; exact Nat.zero_le _, fun _ => by rw [ha]; exact hl', fun _ => ha⟩
  · exact hr w hw

/-! ## Flags with hysteresis -/

theorem steady_setWarning (d : Deck) (w : Bool) : Steady s (s.setWarning d w) := by
  have h := steady_setDeck s (d := d) (x := { s.deck d with warning := w, lineLow := w }) fun _ => rfl
  unfold State.setWarning
  dsimp only
  split
  · exact h
  · exact h.trans (steady_setFlag _ _)

theorem steady_examineWarning (d : Deck) : Steady s (s.examineWarning d) := steady_setWarning s d _

theorem steady_refill (d : Deck) : Steady s (s.refill d) :=
  .after (steady_examineWarning _ d) (steady_setDeck s id)

theorem steady_setGate (r : Ramp) (g : Bool) : Steady s (s.setGate r g) := by
  have h := steady_setRamp s (r := r) (x := { s.ramp r with gateHold := g, lineHigh := g }) (fun _ => rfl) id
  unfold State.setGate
  dsimp only
  split
  · exact h
  · exact h.trans (steady_setFlag _ _)

theorem steady_examineGate (r : Ramp) : Steady s (s.examineGate r) := steady_setGate s r _

theorem steady_setRampState (r : Ramp) (x : RampState) : Steady s (s.setRampState r x) := by
  have h := steady_setRamp s (r := r) (x := { s.ramp r with state := x }) id id
  unfold State.setRampState
  dsimp only
  split
  · exact h
  · exact h.trans (steady_setFlag _ _)

theorem steady_setHeelHold (h : Bool) : Steady s (s.setHeelHold h) := by
  have h' := steady_setHlm s (x := { s.hlm with hold := h, lineHigh := h }) rfl (fun _ => rfl) id
  unfold State.setHeelHold
  dsimp only
  split
  · exact h'
  · split
    · exact (h'.trans (steady_setFlag _ _)).trans (steady_setSticky _ _)
    · exact h'.trans (steady_setFlag _ _)

theorem steady_sampleGradient (r : Ramp) (g : Nat) : Steady s (s.sampleGradient r g) := by
  have h := steady_setComp s r
    { state := comparatorAfter (s.rampFixed r) (s.comp r).state g, gradient := g }
  unfold State.sampleGradient
  dsimp only
  split
  · exact h.trans (steady_setFlag _ _)
  · exact (h.trans (steady_setSticky _ _)).trans (steady_setFlag _ _)
  · exact (h.trans (steady_setSticky _ _)).trans (steady_setFlag _ _)
  · exact h

/-- A history of four codes stays within four (R147). -/
theorem length_historyAfter {history : List Int} (code : Int) (h : history.length ≤ 4) :
    (historyAfter history code).length ≤ 4 := by
  unfold historyAfter
  dsimp only
  split_ifs with hc
  · simpa using h
  · simpa [Config.heelHistory] using hc

theorem steady_readHeel (code : BitVec 10) : Steady s (s.readHeel code) :=
  .after (steady_setHeelHold _ _) (steady_setHlm s rfl id (length_historyAfter _))

theorem steady_takeSample (gradA gradB : BitVec 8) (incl : BitVec 10) : Steady s (s.takeSample gradA gradB incl) :=
  ((steady_sampleGradient s _ _).trans (steady_sampleGradient _ _ _)).trans (steady_readHeel _ _)

theorem steady_unsample (r : Ramp) : Steady s (s.unsample r) := by
  unfold State.unsample
  dsimp only
  split
  · exact (steady_setComp s r _).trans (steady_setFlag _ _)
  · exact steady_setComp s r _

/-! ## The service input and the unplaced list -/

theorem steady_handItem {x : Item} (h : x.ticket? = none) : Steady s (s.handItem x) :=
  steady_setAlc s (by simp [List.filterMap_append, h])

theorem steady_triggerWalk : Steady s s.triggerWalk := by
  unfold State.triggerWalk
  split
  · exact .refl s
  · exact steady_handItem s rfl

theorem steady_leaveUnplaced (ref : Ref) : Steady s (s.leaveUnplaced ref) := steady_setAlc s rfl

theorem steady_joinUnplaced (ref : Ref) : Steady s (s.joinUnplaced ref) := steady_setAlc s rfl

theorem steady_handOver (ref : Ref) (former : Lane) : Steady s (s.handOver ref former) :=
  .after (steady_handItem _ rfl) (steady_modUnit s ref (fun _ => rfl) fun _ _ _ h => h.status rfl rfl nofun nofun)

theorem steady_failPlacement (ref : Ref) : Steady s (s.failPlacement ref) :=
  .after (steady_joinUnplaced _ ref) (steady_modUnit s ref (fun _ => rfl) fun _ _ _ h => h.status rfl rfl nofun nofun)

/-! ## Queues, called lists, reservations -/

theorem steady_joinQueue (r : Ramp) (priority back : Bool) (ref : Ref) : Steady s (s.joinQueue r priority back ref) :=
  .after (steady_examineGate _ r) (steady_setRamp s (by split <;> exact id) (by split <;> exact id))

theorem steady_leaveQueue (r : Ramp) (ref : Ref) : Steady s (s.leaveQueue r ref) := by
  unfold State.leaveQueue
  dsimp only
  split
  · exact .after (steady_examineGate _ r) (steady_setRamp s id id)
  · exact .refl s

theorem steady_timeHead (r : Ramp) : Steady s (s.timeHead r) := steady_setRamp s id id

theorem steady_leaveCalled (r : Ramp) (ref : Ref) : Steady s (s.leaveCalled r ref) := by
  have h := steady_setRamp s (r := r) (x := { s.ramp r with called := (s.ramp r).called.erase ref }) id id
  unfold State.leaveCalled
  dsimp only
  split
  · exact h.trans (steady_timeHead _ r)
  · exact h

theorem steady_leaveLane (l : Lane) (ref : Ref) : Steady s (s.leaveLane l ref) := steady_setLane s id rfl

/-- A deck's load after a change of one deck's. -/
theorem getElem_addLoad (x : Stability) (d e : Deck) (w : Int) :
    (x.addLoad d w).load[e] = if e = d then x.load[d] + w else x.load[e] := by
  have h : (d.val = e.val) ↔ e = d := ⟨fun h => Fin.ext h.symm, fun h => h ▸ rfl⟩
  simp only [Stability.addLoad, Fin.getElem_fin, Vector.getElem_set, h]

/-- A weight taken off a deck raises no deck's load. -/
theorem addLoad_neg_le (x : Stability) (d e : Deck) (w : Nat) : (x.addLoad d (-(w : Int))).load[e] ≤ x.load[e] := by
  rw [getElem_addLoad]
  split
  · next h => subst h; omega
  · exact le_refl _

theorem steady_subProvisional (l : Lane) (w : Nat) : Steady s (s.subProvisional l w) :=
  steady_setStb s fun d => addLoad_neg_le _ _ d w

theorem steady_subCommitted (l : Lane) (w o n : Nat) : Steady s (s.subCommitted l w o n) :=
  steady_setStb s fun d => addLoad_neg_le _ _ d w

theorem quiet_addProvisional (l : Lane) (w : Nat) : Quiet s (s.addProvisional l w) := quiet_setStb s _

theorem quiet_addCommitted (l : Lane) (w o n : Nat) : Quiet s (s.addCommitted l w o n) := quiet_setStb s _

theorem steady_dropLane (ref : Ref) : Steady s (s.modUnit ref fun u => { u with lane := none }) :=
  steady_modUnit s ref (fun _ => rfl) fun _ _ _ h => h.same rfl rfl rfl

theorem steady_release (ref : Ref) : Steady s (s.release ref) := by
  unfold State.release
  split
  · exact .refl s
  · split
    · exact .refl s
    · exact (((steady_leaveLane s _ ref).trans (steady_subProvisional _ _ _)).trans (steady_leaveQueue _ _ ref)).trans
        (steady_dropLane _ ref)

theorem steady_uncallNotice (r : Ramp) (reason : UncallReason) (lane : Option Lane) (ref : Ref) :
    Steady s (s.uncallNotice r reason lane ref) := steady_notify s _

theorem steady_reallocateAll (refs : List Ref) (former : Lane) : Steady s (s.reallocateAll refs former) :=
  (Steady.foldl steady_release refs s).trans (Steady.foldl (fun s ref => steady_handOver s ref former) refs _)

theorem steady_waitAgain (ref : Ref) : Steady s (s.modUnit ref fun u => { u with status := .waiting, age := 0 }) :=
  steady_modUnit s ref (fun _ => rfl) fun _ _ hl h => h.fresh hl rfl rfl

theorem steady_returnToWaiting (r : Ramp) (back : Bool) (ref : Ref) : Steady s (s.returnToWaiting r back ref) := by
  unfold State.returnToWaiting
  exact .after (steady_joinQueue _ _ _ _ _) (.after (steady_waitAgain _ ref) (steady_leaveCalled s r ref))

theorem steady_uncallToWaiting (r : Ramp) (l : Lane) (back : Bool) (reason : UncallReason) (ref : Ref) :
    Steady s (s.uncallToWaiting r l back reason ref).1 := by
  have h1 := (Steady.foldl (fun s f => steady_returnToWaiting s r false f) (s.followers r ref l).reverse s).trans
    (steady_returnToWaiting _ r back ref)
  have h2 (carried : Option Lane) := (h1.trans (steady_uncallNotice _ r reason carried ref)).trans
    (Steady.foldl (fun s f => steady_uncallNotice s r .follower carried f) (s.followers r ref l) _)
  unfold State.uncallToWaiting
  dsimp only
  split
  · exact (h2 _).trans (steady_reallocateAll _ _ _)
  · exact h2 _

theorem steady_releaseFromLane (l : Lane) (ref : Ref) : Steady s (s.releaseFromLane l ref) := by
  unfold State.releaseFromLane
  dsimp only
  split
  · exact (steady_release s ref).trans (steady_leaveCalled _ _ _)
  · exact steady_release s ref

theorem steady_refit (l : Lane) : Steady s (s.refit l).1 := by
  unfold State.refit
  dsimp only
  have h (xs ys zs : List Ref) (r : Ramp) := ((Steady.foldl (fun s ref => steady_releaseFromLane s l ref) xs s).trans
    (Steady.foldl (fun s ref => steady_uncallNotice s r .released none ref) ys _)).trans
    (Steady.foldl (fun s ref => steady_handOver s ref l) zs _)
  split
  · exact h _ _ _ _
  · exact (h _ _ _ _).trans (steady_triggerWalk _)

theorem steady_withdraw (l : Lane) : Steady s (s.withdraw l).1 := by
  unfold State.withdraw
  split
  · exact .refl s
  · dsimp only
    refine .after (Steady.foldl (fun s ref => steady_handOver s ref l) _ _)
      (.after (Steady.foldl (fun t ref => ?_) _ _) (.after (steady_notify _ _) (steady_setLane s id rfl)))
    have h := steady_releaseFromLane t l ref
    split
    · exact h.trans (steady_uncallNotice _ _ _ _ _)
    · exact h

/-! ## Placements, commits, crossings -/

theorem quiet_reserve (u : UnitRecord) (l : Lane) : Quiet s (s.reserve u l) := by
  unfold State.reserve
  exact .after (quiet_modUnit _ _ fun _ => rfl) (.after (steady_joinQueue _ _ _ _ _).toQuiet
    (.after (quiet_addProvisional _ _ _) (quiet_setLane s id)))

theorem quiet_servePlacement (u : UnitRecord) (former : Option Lane) : Quiet s (s.servePlacement u former) := by
  unfold State.servePlacement
  split
  · exact quiet_reserve s u _
  · exact (steady_failPlacement s _).toQuiet

theorem quiet_visit (u : UnitRecord) : Quiet s (s.visit u) := by
  unfold State.visit
  split
  · exact (steady_leaveUnplaced s _).toQuiet.trans (quiet_reserve _ u _)
  · exact .refl s

theorem steady_writeCrossing (ref : Ref) (x : CrossingResult) (redirected : Bool) :
    Steady s (s.writeCrossing ref x redirected) :=
  steady_modUnit s ref (fun _ => rfl) fun _ _ _ h => h.same rfl rfl rfl

theorem steady_aboard (ref : Ref) (l : Lane) (offset : Nat) :
    Steady s (s.modUnit ref fun u => { u with status := .aboard, lane := some l, offset := some offset }) :=
  steady_modUnit s ref (fun _ => rfl) fun _ _ _ h => h.status rfl rfl nofun nofun

theorem quiet_board (u : UnitRecord) (l : Lane) (offset weightUsed : Nat) (x : CrossingResult) (redirected : Bool) :
    Quiet s (s.board u l offset weightUsed x redirected) := by
  unfold State.board
  exact .after (steady_refill _ _).toQuiet (.after (steady_writeCrossing _ _ _ _).toQuiet
    (.after (steady_aboard _ _ _ _).toQuiet (.after (quiet_addCommitted _ _ _ _ _) (quiet_setLane s id))))

theorem quiet_serveRedirect (u : UnitRecord) (x : Redirect) : Quiet s (s.serveRedirect u x) := by
  unfold State.serveRedirect
  split
  · exact .after (steady_notify _ _).toQuiet (quiet_board s u _ _ _ _ _)
  · exact .after (steady_notify _ _).toQuiet
      (.after (steady_writeCrossing _ _ _ _).toQuiet (steady_setStatus s _ (x := .held) nofun nofun).toQuiet)

theorem steady_openCrossing (r : Ramp) : Steady s (s.openCrossing r) := by
  unfold State.openCrossing
  dsimp only
  split
  · exact .after (steady_setRamp _ id id) (.after (steady_setStatus _ _ nofun nofun) (steady_setPlate s r _))
  · exact .after (steady_setSticky _ _) (steady_setPlate s r _)

theorem steady_closeRamp (r : Ramp) : Steady s (s.closeRamp r) :=
  (steady_setRampState s r _).trans (steady_setPlate _ r _)

theorem steady_clearPlate (r : Ramp) : Steady s (s.clearPlate r) := by
  unfold State.clearPlate
  dsimp only
  split
  · exact (steady_setPlate s r _).trans (steady_setPlate _ r _)
  · exact (steady_setPlate s r _).trans (steady_closeRamp _ r)
  · exact steady_setPlate s r _

theorem quiet_commit (r : Ramp) (p : Plate) (u : UnitRecord) (l : Lane) : Quiet s (s.commit r p u l) := by
  have h := ((((steady_leaveLane s l u.decl.ref).trans (steady_subProvisional _ l u.decl.weight)).toQuiet.trans
    (quiet_board _ u l (s.commitOffset l u.decl.length) (p.weightUsed u) (p.result u (s.outOfWindow r p u)) false)).trans
    (steady_notify _ (.crossingResult r u.decl.ref .committed false (some l)
      (some (l, (s.laneFixed l).deck, s.commitOffset l u.decl.length)) (p.result u (s.outOfWindow r p u)))).toQuiet)
  unfold State.commit
  dsimp only
  split
  · exact h.trans (steady_triggerWalk _).toQuiet
  · exact h

theorem quiet_settle (r : Ramp) (p : Plate) (u : UnitRecord) : Quiet s (s.settle r p u) := by
  unfold State.settle
  split
  · split
    · exact quiet_commit s r p u _
    · exact (((steady_release s _).trans (steady_handItem _ rfl)).trans (steady_triggerWalk _)).toQuiet
  · exact (steady_handItem s rfl).toQuiet

theorem steady_closeCalled (r : Ramp) (ref : Ref) : Steady s (s.closeCalled r ref) :=
  ((steady_leaveCalled s r ref).trans (steady_uncallNotice _ _ _ _ _)).trans (steady_release _ ref)

end Sys2Proof.Machine

namespace Sys2Proof.Machine

open Sys2Proof

/-! ## The request handler, read backward (R171) -/

/-- The handler may take `f`: it is the front frame, a slot is free, and the session is not LOADING (R162, R171). -/
structure Front (s : State) (f : Frame) (rest : List Frame) : Prop where
  front : s.link.rxBuffer = f :: rest
  slot : s.link.reserved.length + s.link.filled.length < 8
  session : s.session ≠ .loading

theorem takeFrame_eq_some {s s' : State} {f : Frame} (h : s.takeFrame = some (f, s')) :
    ∃ rest, Front s f rest ∧ s' = s.taken f rest := by
  unfold State.takeFrame at h
  split at h
  · next g rest hb =>
    split at h
    · next hc =>
      obtain ⟨rfl, rfl⟩ := Prod.mk.inj (Option.some.inj h)
      exact ⟨rest, ⟨hb, hc.2, hc.1⟩, rfl⟩
    · cases h
  · cases h

/-- What a request's row can lead to: nothing, a refusal by the handler, or what the owner makes of the request. -/
theorem handle_next {α : Type} {k : RequestKind} {parse : State → List Byte → Option α}
    {deckOf : State → α → Option Deck} {owner : Ticket → α → State → State} {s u : State}
    (h : handle k parse deckOf owner s = .next u) :
    u = s ∨ ∃ f rest, Front s f rest ∧
      ((∃ r, u = ((s.taken f rest).refuse f.ticket r).startTx) ∨
        ∃ req, parse (s.taken f rest) f.payload = some req ∧ admits s.session k = true ∧
          u = (owner f.ticket req (s.taken f rest)).startTx) := by
  unfold handle at h
  split at h
  · cases h; exact .inl rfl
  · next f s' ht =>
    obtain ⟨rest, hf, rfl⟩ := takeFrame_eq_some ht
    split at h
    · refine .inr ⟨f, rest, hf, ?_⟩
      unfold examine at h
      split at h
      · next r _ => cases h; exact .inl ⟨r, rfl⟩
      · next req he =>
        cases h
        split at he
        · cases he
        · next q hq =>
          split at he
          · split at he
            · next ha => cases he; exact .inr ⟨req, hq, ha, rfl⟩
            · cases he
          · cases he
    · cases h; exact .inl rfl

/-! ## What the arbiter leaves (R178) -/

/-- The arbiter touches the link alone. -/
theorem startTx_eq_modLink (s : State) : s.startTx = s.modLink fun _ => s.startTx.link := by
  unfold State.startTx
  (repeat' split) <;> rfl

/-- The arbiter takes nothing from the buffers and queues. -/
theorem startTx_queues (s : State) :
    s.startTx.link.rxBuffer = s.link.rxBuffer ∧ s.startTx.link.reserved = s.link.reserved ∧
      s.startTx.link.filled = s.link.filled ∧ s.startTx.link.notices = s.link.notices := by
  unfold State.startTx
  (repeat' split) <;> exact ⟨rfl, rfl, rfl, rfl⟩

/-- A response or notice that is being sent still holds its slot. -/
def SentHeld (k : Link) : Prop :=
  (∀ bs, k.tx = .response bs → k.filled ≠ []) ∧ ∀ bs, k.tx = .notice bs → k.notices ≠ []

/-- A frame that the arbiter begins holds its slot. -/
theorem startTx_sentHeld {s : State} (h : SentHeld s.link) : SentHeld s.startTx.link := by
  unfold State.startTx
  split
  · split
    · next hf => exact ⟨fun _ _ => by simp [State.modLink, hf], nofun⟩
    · split
      · next hn => exact ⟨nofun, fun _ _ => by simp [State.modLink, hn]⟩
      · split
        · exact ⟨nofun, nofun⟩
        · exact h
  · exact h

/-! ## What a part of an event keeps of the laws

A request that has been taken and is not answered yet is an open ticket; `Keeps o o'` says that the laws hold afterwards,
with `o'` open, if they held before, with `o` open. -/

/-- SlotLaw with some requests taken and neither answered nor handed on. -/
def SlotLawWith (o : List Ticket) (s : State) : Prop :=
  s.link.reserved.Perm (o ++ outstanding s) ∧ s.link.reserved.length + s.link.filled.length ≤ 8 ∧
    (s.session ≠ .alongside → s.alc.service.filterMap Item.ticket? = []) ∧
    (s.pst.loadTicket.isSome = true → s.session = .loading)

theorem slotLawWith_nil {s : State} : SlotLawWith [] s ↔ SlotLaw s := Iff.rfl

/-- BoundLaw, in the terms of the operations. -/
theorem boundLaw_iff {s : State} : BoundLaw s ↔ InnerBounds s ∧ s.link.rxBuffer.length ≤ 4 ∧ SentHeld s.link := by
  unfold BoundLaw InnerBounds SentHeld Obstructed
  tauto

/-- The laws of O59, and the two of O54 that stand by themselves. -/
structure Keeps (o o' : List Ticket) (s u : State) : Prop where
  memory : MemoryLaw s → MemoryLaw u
  table : UnitTableLaw s → UnitTableLaw u
  clock : ClockLaw s → ClockLaw u
  budget : BudgetLaw s → BudgetLaw u
  line : LineLaw s → LineLaw u
  bound : BoundLaw s → BoundLaw u
  slot : SlotLawWith o s → SlotLawWith o' u

theorem Keeps.refl (o : List Ticket) (s : State) : Keeps o o s s := ⟨id, id, id, id, id, id, id⟩

theorem Keeps.trans {a b c : List Ticket} {s t u : State} (h : Keeps a b s t) (k : Keeps b c t u) : Keeps a c s u :=
  ⟨k.memory ∘ h.memory, k.table ∘ h.table, k.clock ∘ h.clock, k.budget ∘ h.budget, k.line ∘ h.line,
    k.bound ∘ h.bound, k.slot ∘ h.slot⟩

theorem Keeps.after {a b c : List Ticket} {s t u : State} (k : Keeps b c t u) (h : Keeps a b s t) : Keeps a c s u :=
  h.trans k

/-- An operation inside an event keeps the laws, whatever is open. -/
theorem Quiet.keeps {s u : State} (h : Quiet s u) (o : List Ticket) : Keeps o o s u where
  memory hs := by unfold MemoryLaw; rw [h.pst]; exact hs
  table := h.table
  budget := h.budget
  line := h.line
  bound hs := by
    obtain ⟨hi, hb, hr, hn⟩ := boundLaw_iff.1 hs
    obtain ⟨-, -, e1, -, e2, e3⟩ := h.news
    exact boundLaw_iff.2 ⟨h.bounds hi, by rw [e1]; exact hb, fun bs e => by rw [e2]; exact hr bs (e3 ▸ e),
      fun bs e => h.noticed (hn bs (e3 ▸ e))⟩
  slot hs := by
    obtain ⟨-, -, -, e1, e2, -⟩ := h.news
    simpa only [SlotLawWith, outstanding, h.tickets, h.pst, h.session, e1, e2] using hs
  clock hs := by simpa only [ClockLaw, h.sampling, h.session, h.pst, h.ageing] using hs

/-- Filling an open ticket's slot closes the ticket (R171). -/
theorem keeps_fill (s : State) (t : Ticket) (r : Reply) : Keeps [t] [] s (s.fill t r) :=
  { Keeps.refl [] s with
    bound := fun hs => by
      obtain ⟨hi, hb, hr, hn⟩ := boundLaw_iff.1 hs
      exact boundLaw_iff.2 ⟨hi, hb, fun _ _ => by simp [fill_link], hn⟩
    slot := fun ⟨hp, hl, hs, ht⟩ => by
      have hm : t ∈ s.link.reserved := hp.mem_iff.2 (List.mem_cons_self)
      have he : (s.link.reserved.erase t).Perm (outstanding s) := by simpa using hp.erase t
      refine ⟨he, ?_, hs, ht⟩
      have := List.length_erase_of_mem hm
      have := List.length_pos_of_mem hm
      simp only [fill_link, List.length_append, List.length_singleton]
      omega }

theorem Quiet.fill {s v : State} {t : Ticket} {r : Reply} (h : Quiet s v) : Keeps [t] [] s (v.fill t r) :=
  (h.keeps [t]).trans (keeps_fill v t r)

theorem keeps_refuse (s : State) (t : Ticket) (r : Result) : Keeps [t] [] s (s.refuse t r) := keeps_fill s t _

/-- Taking a frame opens its ticket (R171). -/
theorem keeps_taken {s : State} {f : Frame} {rest : List Frame} (h : Front s f rest) :
    Keeps [] [f.ticket] s (s.taken f rest) :=
  { Keeps.refl [] s with
    bound := fun hs => by
      obtain ⟨hi, hb, ht⟩ := boundLaw_iff.1 hs
      rw [h.front] at hb
      exact boundLaw_iff.2 ⟨hi, (Nat.le_succ _).trans hb, ht⟩
    slot := fun ⟨hp, _, hs⟩ => by
      refine ⟨?_, ?_, hs⟩
      · exact (List.perm_append_singleton _ _).trans (hp.cons _)
      · have := h.slot
        simp only [State.taken, State.modLink, List.length_append, List.length_singleton]
        omega }

theorem keeps_startTx (o : List Ticket) (s : State) : Keeps o o s s.startTx := by
  obtain ⟨hb, hr, hf, hn⟩ := startTx_queues s
  have hsent : SentHeld s.link → SentHeld s.startTx.link := startTx_sentHeld
  rw [startTx_eq_modLink]
  exact
    { Keeps.refl o s with
      bound := fun hs => by
        obtain ⟨⟨ho, hh, hc⟩, hb', ht⟩ := boundLaw_iff.1 hs
        exact boundLaw_iff.2 ⟨⟨ho, hh, hn ▸ hc⟩, hb ▸ hb', hsent ht⟩
      slot := fun hs => by
        simpa only [SlotLawWith, outstanding, State.modLink, hr, hf] using hs }

theorem keeps_finish {s v u : State} (h : Keeps [] [] s v) (hu : finish v = .next u) : Keeps [] [] s u := by
  cases hu; exact h.trans (keeps_startTx [] v)

theorem keeps_notNow {s u : State} (hu : notNow s = .next u) : Keeps [] [] s u := by
  cases hu; exact .refl [] s

/-- A request's row keeps the laws when its owner, who finds the request open, does. -/
theorem keeps_handle {α : Type} {k : RequestKind} {parse : State → List Byte → Option α}
    {deckOf : State → α → Option Deck} {owner : Ticket → α → State → State} {s u : State}
    (ho : ∀ t req v, admits v.session k = true → Keeps [t] [] v (owner t req v))
    (h : handle k parse deckOf owner s = .next u) : Keeps [] [] s u := by
  obtain rfl | ⟨f, rest, hf, ⟨r, rfl⟩ | ⟨req, -, ha, rfl⟩⟩ := handle_next h
  · exact .refl [] u
  · exact ((keeps_taken hf).trans (keeps_refuse _ _ r)).trans (keeps_startTx [] _)
  · exact ((keeps_taken hf).trans (ho f.ticket req _ ha)).trans (keeps_startTx [] _)

theorem keeps_withUnit {s : State} {b : Bool} {t : Ticket} {ref : Ref} {go : UnitRecord → State}
    (h : ∀ u, Keeps [t] [] s (go u)) : Keeps [t] [] s (s.withUnit b t ref go) := by
  unfold State.withUnit
  split
  · exact keeps_refuse s t _
  · split
    · exact keeps_refuse s t _
    · exact h _

/-! ## What a part of an event keeps of the cargo too -/

/-- `Keeps`, and what `Stowed` says. -/
structure Orderly (o o' : List Ticket) (s u : State) : Prop extends Keeps o o' s u, Stowed s u

theorem Orderly.refl (o : List Ticket) (s : State) : Orderly o o s s := { Keeps.refl o s, Stowed.refl s with }

theorem Orderly.trans {a b c : List Ticket} {s t u : State} (h : Orderly a b s t) (k : Orderly b c t u) :
    Orderly a c s u := { h.toKeeps.trans k.toKeeps, h.toStowed.trans k.toStowed with }

theorem Orderly.after {a b c : List Ticket} {s t u : State} (k : Orderly b c t u) (h : Orderly a b s t) :
    Orderly a c s u := h.trans k

theorem Steady.orderly {s u : State} (h : Steady s u) (o : List Ticket) : Orderly o o s u :=
  { h.toQuiet.keeps o, h.toStowed with }

/-- The link is none of the cargo's business. -/
theorem stowed_modLink (s : State) (f : Link → Link) : Stowed s (s.modLink f) := { Stowed.refl s with }

theorem orderly_fill (s : State) (t : Ticket) (r : Reply) : Orderly [t] [] s (s.fill t r) :=
  { keeps_fill s t r, stowed_modLink s _ with }

theorem orderly_refuse (s : State) (t : Ticket) (r : Result) : Orderly [t] [] s (s.refuse t r) := orderly_fill s t _

theorem Steady.fill {s v : State} {t : Ticket} {r : Reply} (h : Steady s v) : Orderly [t] [] s (v.fill t r) :=
  (h.orderly [t]).trans (orderly_fill v t r)

theorem orderly_taken {s : State} {f : Frame} {rest : List Frame} (h : Front s f rest) :
    Orderly [] [f.ticket] s (s.taken f rest) := { keeps_taken h, stowed_modLink s _ with }

theorem stowed_startTx (s : State) : Stowed s s.startTx := by
  rw [startTx_eq_modLink]; exact stowed_modLink s _

theorem orderly_startTx (o : List Ticket) (s : State) : Orderly o o s s.startTx :=
  { keeps_startTx o s, stowed_startTx s with }

theorem orderly_finish {s v u : State} (h : Orderly [] [] s v) (hu : finish v = .next u) : Orderly [] [] s u := by
  cases hu; exact h.trans (orderly_startTx [] v)

theorem orderly_notNow {s u : State} (hu : notNow s = .next u) : Orderly [] [] s u := by
  cases hu; exact .refl [] s

/-- A request's row keeps the laws and the cargo when its owner does. -/
theorem orderly_handle {α : Type} {k : RequestKind} {parse : State → List Byte → Option α}
    {deckOf : State → α → Option Deck} {owner : Ticket → α → State → State} {s u : State}
    (ho : ∀ t req v, admits v.session k = true → Orderly [t] [] v (owner t req v))
    (h : handle k parse deckOf owner s = .next u) : Orderly [] [] s u := by
  obtain rfl | ⟨f, rest, hf, ⟨r, rfl⟩ | ⟨req, -, ha, rfl⟩⟩ := handle_next h
  · exact .refl [] u
  · exact ((orderly_taken hf).trans (orderly_refuse _ _ r)).trans (orderly_startTx [] _)
  · exact ((orderly_taken hf).trans (ho f.ticket req _ ha)).trans (orderly_startTx [] _)

theorem orderly_withUnit {s : State} {b : Bool} {t : Ticket} {ref : Ref} {go : UnitRecord → State}
    (h : ∀ u, Orderly [t] [] s (go u)) : Orderly [t] [] s (s.withUnit b t ref go) := by
  unfold State.withUnit
  split
  · exact orderly_refuse s t _
  · split
    · exact orderly_refuse s t _
    · exact h _

end Sys2Proof.Machine

namespace Sys2Proof.Machine

open Sys2Proof

variable (s : State)

/-! ## The owners of the Unit Table's requests -/

theorem admits_checkIn {x : Session} (h : admits x .checkIn = true) : x = .alongside := by
  revert h; cases x <;> decide

theorem admits_present {x : Session} (h : admits x .present = true) : x = .alongside := by
  revert h; cases x <;> decide

theorem admits_releaseHold {x : Session} (h : admits x .releaseHold = true) : x = .alongside := by
  revert h; cases x <;> decide

theorem keeps_ownBook (t : Ticket) (d : Declared) : Keeps [t] [] s (ownBook t d s) := by
  unfold ownBook
  split_ifs with hd hf
  · exact keeps_refuse s t _
  · exact keeps_refuse s t _
  · exact Quiet.fill (quiet_addUnit s (by simpa using hf) (Option.not_isSome_iff_eq_none.1 hd))

/-- AMEND writes a declared part under the reference that it carries itself (R9). -/
theorem modUnit_decl_eq {ref : Ref} {d : Declared} (h : d.ref = ref) :
    (s.modUnit ref fun u => { u with decl := d }) =
      s.modUnit ref fun u => { u with decl := { d with ref := u.decl.ref } } := by
  unfold State.modUnit
  congr 1
  refine List.map_congr_left fun u _ => ?_
  split
  · next hu =>
    have e : u.decl.ref = d.ref := by simpa [h] using hu
    simp only [e]
  · rfl

theorem keeps_ownAmend (t : Ticket) (q : Ref × Declared) : Keeps [t] [] s (ownAmend t q s) :=
  keeps_withUnit fun u => by
    split_ifs with hr hs
    · exact keeps_refuse s t _
    · rw [modUnit_decl_eq s (not_not.1 hr)]
      exact Quiet.fill (quiet_modUnit s q.1 fun _ => rfl)
    · exact keeps_refuse s t _

theorem keeps_ownCancel (t : Ticket) (ref : Ref) : Keeps [t] [] s (ownCancel t ref s) :=
  keeps_withUnit fun u => by
    split
    any_goals exact (quiet_retire s ref).fill
    · exact Quiet.fill (.after (steady_triggerWalk _).toQuiet (.after (quiet_retire _ ref) (steady_release s ref).toQuiet))
    · exact Quiet.fill (.after (quiet_retire _ ref) (steady_leaveUnplaced s ref).toQuiet)
    all_goals exact keeps_refuse s t _

/-- The hand-over of a unit in ALONGSIDE: its ticket goes into the service input with it (R61, R171). -/
theorem keeps_handTicket {s : State} {t : Ticket} {x : Item} (ht : x.ticket? = some t) (ha : s.session = .alongside) :
    Keeps [t] [] s (s.handItem x) := by
  refine { Keeps.refl [] s with slot := fun ⟨hp, hl, _, hload⟩ => ⟨hp.trans ?_, hl, fun hne => absurd ha hne, hload⟩ }
  simp only [outstanding, State.handItem, State.setAlc, List.filterMap_append, List.filterMap_cons, ht,
    List.filterMap_nil, List.nil_append, List.singleton_append, List.append_assoc]
  exact List.perm_middle.symm

theorem orderly_handFresh {t : Ticket} {ref : Ref} {cause : Cause}
    (ht : Item.ticket? (.placement ref cause) = some t) (ha : s.session = .alongside) :
    Orderly [t] [] s (s.handFresh ref cause) := by
  have hm := steady_modUnit s ref (f := fun u => { u with cls := s.classification u, mark := true }) (fun _ => rfl)
    fun _ _ _ h => h.same rfl rfl rfl
  unfold State.handFresh
  exact (hm.orderly [t]).trans { keeps_handTicket ht (hm.session.trans ha), Stowed.refl _ with }

theorem keeps_ownCheckIn (t : Ticket) (q : Ref × Option Nat) (ha : s.session = .alongside) :
    Keeps [t] [] s (ownCheckIn t q s) :=
  keeps_withUnit fun u => by
    split_ifs with hb
    · refine .after (Orderly.toKeeps (orderly_handFresh _ rfl ha)) (Quiet.keeps ?_ [t])
      exact .after (steady_setCheckIn _ _).toQuiet (quiet_modUnit s q.1 fun _ => rfl)
    · exact keeps_refuse s t _

theorem orderly_ownPresent (t : Ticket) (ref : Ref) (ha : s.session = .alongside) :
    Orderly [t] [] s (ownPresent t ref s) :=
  orderly_withUnit fun u => by
    split
    · exact Steady.fill (steady_modUnit s ref (fun _ => rfl) fun _ _ hl h => h.fresh hl rfl rfl)
    · exact orderly_handFresh s rfl ha
    all_goals exact orderly_refuse s t _

theorem orderly_ownHoldUnit (t : Ticket) (ref : Ref) : Orderly [t] [] s (ownHoldUnit t ref s) :=
  orderly_withUnit fun u => by
    have held (v : State) : Steady v (v.setStatus ref .held) := steady_setStatus v ref nofun nofun
    split
    · exact Steady.fill (.after (steady_triggerWalk _) (.after (held _) (steady_release s ref)))
    · exact Steady.fill (.after (held _) (steady_leaveUnplaced s ref))
    · exact (held s).fill
    · exact Steady.fill (.after (steady_triggerWalk _) (.after (steady_uncallNotice _ _ _ _ _)
        (.after (steady_leaveCalled _ _ _) (.after (held _) (steady_release s ref)))))
    all_goals exact orderly_refuse s t _

theorem orderly_ownReleaseHold (t : Ticket) (ref : Ref) (ha : s.session = .alongside) :
    Orderly [t] [] s (ownReleaseHold t ref s) :=
  orderly_withUnit fun u => by
    split_ifs with hh
    · exact ((steady_modUnit s ref (f := fun u => { u with noShow := 0 }) (fun _ => rfl)
        fun _ _ _ h => h.same rfl rfl rfl).orderly [t]).trans (orderly_handFresh _ rfl ha)
    · exact orderly_refuse s t _

/-! ## The owners of through cargo (chapter 9) -/

/-- What PLACE's checks leave when they pass (R153). -/
theorem placeRefusal_eq_none {q : PlaceRequest} (h : s.placeRefusal q = none) :
    s.unit? q.ref = none ∧ s.tableFull = false ∧ s.placeFits q = true ∧
      s.stb.load[(s.laneFixed q.lane).deck] + q.weight ≤ ((s.deckFixed (s.laneFixed q.lane).deck).cap : Int) := by
  unfold State.placeRefusal at h
  dsimp only at h
  split_ifs at h with h1 h2 h3 h4 h5 h6 h7
  exact ⟨by simpa using h1, by simpa using h2, by simpa using h5, not_lt.1 h7⟩

theorem quiet_placeUnit {q : PlaceRequest} (hf : s.tableFull = false) (hn : s.unit? q.ref = none) :
    Quiet s (s.placeUnit q) := by
  unfold State.placeUnit
  exact .after (steady_refill _ _).toQuiet (.after (quiet_addCommitted _ _ _ _ _)
    (.after (quiet_setLane _ id) (quiet_addUnit s hf hn)))

theorem keeps_ownPlace (t : Ticket) (q : PlaceRequest) : Keeps [t] [] s (ownPlace t q s) := by
  unfold ownPlace
  split
  · exact keeps_refuse s t _
  · next h =>
    obtain ⟨hn, hf, -⟩ := placeRefusal_eq_none s h
    exact (quiet_placeUnit s hf hn).fill

theorem quiet_dischargeUnit (u : UnitRecord) (l : Lane) (offset : Nat) : Quiet s (s.dischargeUnit u l offset) := by
  unfold State.dischargeUnit
  exact .after (quiet_retire _ _) (.after (steady_refill _ _).toQuiet
    (.after (quiet_setLane _ id) (steady_subCommitted s _ _ _ _).toQuiet))

theorem keeps_ownDischarge (t : Ticket) (ref : Ref) : Keeps [t] [] s (ownDischarge t ref s) :=
  keeps_withUnit fun u => by
    split
    · split
      · exact keeps_refuse s t _
      · exact ((quiet_dischargeUnit s u _ _).fill).trans ((steady_triggerWalk _).toQuiet.keeps [])
    · exact keeps_refuse s t _

/-! ## The owners of the Lane Map's requests (chapter 2) -/

theorem steady_insertObstruction {l : Lane} (x : Obstruction) (h : (s.lane l).obstructions.length < 2) :
    Steady s (s.setLane l { s.lane l with obstructions := insertObstruction x (s.lane l).obstructions }) :=
  steady_setLane s (fun ⟨_, hp⟩ =>
    ⟨by rw [(insertObstruction_perm x _).length_eq]; exact h, insertObstruction_pairwise hp⟩) rfl

theorem orderly_ownObstructionAdd (t : Ticket) (q : SpanRequest) : Orderly [t] [] s (ownObstructionAdd t q s) := by
  unfold ownObstructionAdd
  dsimp only
  split_ifs with ho hl
  · exact orderly_refuse s t _
  · exact ((steady_insertObstruction s _ hl).trans (steady_refit _ q.lane)).fill
  · exact (steady_withdraw s q.lane).fill

theorem orderly_ownObstructionClear (t : Ticket) (q : SpanRequest) : Orderly [t] [] s (ownObstructionClear t q s) := by
  unfold ownObstructionClear
  dsimp only
  split_ifs with hc
  · refine Steady.fill (.after (steady_triggerWalk _) (steady_setLane s (fun ⟨hn, hp⟩ => ?_) rfl))
    exact ⟨(List.length_erase_le).trans hn, hp.sublist List.erase_sublist⟩
  · exact orderly_refuse s t _

theorem steady_closeIfEmpty (l : Lane) :
    Steady s (if (s.lane l).reservations.isEmpty then s.setLane l { s.lane l with state := .closed } else s) := by
  split
  · exact steady_setLane s id rfl
  · exact .refl s

theorem orderly_ownLaneClose (t : Ticket) (l : Lane) : Orderly [t] [] s (ownLaneClose t l s) := by
  unfold ownLaneClose
  dsimp only
  split
  · exact Steady.fill (.after (steady_closeIfEmpty _ l) (.after (steady_reallocateAll _ _ l) (steady_setLane s id rfl)))
  · exact orderly_refuse s t _

theorem orderly_ownLaneOpen (t : Ticket) (l : Lane) : Orderly [t] [] s (ownLaneOpen t l s) := by
  unfold ownLaneOpen
  dsimp only
  split
  · exact orderly_refuse s t _
  · exact Steady.fill (.after (steady_triggerWalk _) (steady_setLane s id rfl))

/-! ## Ballast and flags -/

theorem orderly_ownSetBallast (t : Ticket) (q : Int × Int) : Orderly [t] [] s (ownSetBallast t q s) :=
  .after ((steady_triggerWalk _).orderly []) (Steady.fill (steady_setStb s fun _ => le_refl _))

theorem steady_clearSticky (sel : Byte) : Steady s (s.modLink fun k => { k with sticky := k.sticky &&& ~~~sel }) :=
  { Steady.refl s with news := ⟨rfl, rfl, rfl, rfl, rfl, rfl⟩ }

theorem orderly_ownClearFlags (t : Ticket) (sel : Byte) : Orderly [t] [] s (ownClearFlags t sel s) :=
  (steady_clearSticky s sel).fill

/-! ## The owners of the Call Scheduler's requests (chapter 6) -/

theorem RampRun.Budgeted.restored {x : RampRun} {t : Timer} (h : x.Budgeted) :
    RampRun.Budgeted { x with remaining := x.budget, credit := 0, intervalTimer := t } := by
  obtain ⟨h1, h2, h3, h4, h5, -, -⟩ := h
  exact ⟨h1, h2, h3, h4, h5, le_refl _, Nat.zero_le _⟩

theorem orderly_ownRampOpen (t : Ticket) (r : Ramp) : Orderly [t] [] s (ownRampOpen t r s) := by
  unfold ownRampOpen
  dsimp only
  split
  · exact Steady.fill (.after (steady_triggerWalk _) (.after (steady_setPlate _ r _)
      (.after (steady_setRamp _ id fun h => h.restored) (steady_setRampState s r .opened))))
  · exact orderly_refuse s t _

theorem steady_handOverFrom (x : Option Lane) (ref : Ref) :
    Steady s (match x with | some l => s.handOver ref l | none => s) := by
  cases x with
  | some l => exact steady_handOver s ref l
  | none => exact .refl s

theorem steady_rampClose (r : Ramp) (lanes : Ref → Option Lane) (called queued : List Ref) :
    Steady s
      ((called ++ queued).foldl (fun s' ref => match lanes ref with | some l => s'.handOver ref l | none => s')
        (queued.foldl (fun s ref => s.release ref)
          (called.foldl (fun s ref => s.closeCalled r ref)
            ((s.setRampState r .closing).setRamp r
              { (s.setRampState r .closing).ramp r with intervalTimer := none, callTimer := none })))) :=
  .after (Steady.foldl (fun s ref => steady_handOverFrom s (lanes ref) ref) _ _)
    (.after (Steady.foldl steady_release _ _) (.after (Steady.foldl (fun s ref => steady_closeCalled s r ref) _ _)
      (.after (steady_setRamp _ id id) (steady_setRampState s r .closing))))

theorem orderly_ownRampClose (t : Ticket) (r : Ramp) : Orderly [t] [] s (ownRampClose t r s) := by
  unfold ownRampClose
  dsimp only
  have h := steady_rampClose s r (fun ref => (s.unit? ref).bind (·.lane)) (s.withStatus .called (s.ramp r).called)
    ((s.ramp r).prio ++ (s.ramp r).ord)
  split
  · split
    · exact (h.trans (steady_closeRamp _ r)).fill
    · exact h.fill
  · exact orderly_refuse s t _

theorem clampNat_bounds {lo hi : Nat} (h : lo ≤ hi) (v : Nat) : lo ≤ clampNat lo hi v ∧ clampNat lo hi v ≤ hi := by
  unfold clampNat
  split_ifs <;> omega

theorem orderly_ownSetRamp (t : Ticket) (q : RampSettings) : Orderly [t] [] s (ownSetRamp t q s) := by
  have hn := clampNat_bounds (Nat.zero_le 15) q.ratio
  have hd := clampNat_bounds (show 1 ≤ 4 by decide) q.depth
  have hb := clampNat_bounds (show 50 ≤ 5000 by decide) q.budget
  exact Steady.fill (steady_setRamp s id fun _ =>
    ⟨hn.2, hd.1, hd.2, hb.1, hb.2, Nat.min_le_right _ _, Nat.min_le_right _ _⟩)

theorem orderly_ownSkip (t : Ticket) (ref : Ref) : Orderly [t] [] s (ownSkip t ref s) :=
  orderly_withUnit fun u => by
    split
    · split
      · exact (steady_uncallToWaiting s _ _ _ _ ref).fill
      · exact orderly_refuse s t _
    all_goals exact orderly_refuse s t _

end Sys2Proof.Machine

namespace Sys2Proof.Machine

open Sys2Proof

variable (s : State)

/-! ## The ranges of a loaded profile (12.1) -/

theorem readRampFixed_inRanges {bs rest : List Byte} {f : RampFixed} (h : readRampFixed bs = some (f, rest)) :
    f.inRanges = true := by
  unfold readRampFixed at h
  iterate 14 obtain ⟨⟨_, _⟩, -, h⟩ := Option.bind_eq_some_iff.1 h
  dsimp only at h
  split at h
  · next hr => cases h; exact hr
  · cases h

theorem readRamps_inRanges {bs : List Byte} {p : PerRamp RampFixed} (h : readRamps bs = some p) :
    p.a.inRanges = true ∧ p.b.inRanges = true := by
  simp only [readRamps, Option.bind_eq_bind, Option.bind_eq_some_iff] at h
  obtain ⟨⟨a, bs'⟩, ha, ⟨b, bs''⟩, hb, h⟩ := h
  unfold exactly at h
  split at h
  · cases h; exact ⟨readRampFixed_inRanges ha, readRampFixed_inRanges hb⟩
  · cases h

theorem readVessel_inRanges {bs : List Byte} {v : Vessel} (h : readVessel bs = some v) : v.inRanges = true := by
  unfold readVessel at h
  iterate 12 obtain ⟨⟨_, _⟩, -, h⟩ := Option.bind_eq_some_iff.1 h
  dsimp only at h
  split at h
  · next hr => cases h; exact (Bool.and_eq_true_iff.1 hr).2
  · cases h

theorem named_eq_ok {α : Type} {i : SectionId} {x : Option α} {v : α} (h : named i x = .ok v) : x = some v := by
  cases x with
  | none => cases h
  | some w => cases h; rfl

theorem readSection_eq_some {α : Type} {m : List Host.Cell} {count : Nat} {es : List SectionEntry} {i : SectionId}
    {parse : List Byte → Option α} {v : α} (h : readSection m count es i parse = some v) : ∃ bs, parse bs = some v := by
  unfold readSection at h
  dsimp only at h
  split at h
  · exact ⟨_, h⟩
  · cases h

/-- What a loaded profile holds was read and range-checked (R181). -/
theorem loadSections_eq_ok {m : List Host.Cell} {count : Nat} {es : List SectionEntry} {p : Profile}
    (h : loadSections m count es = .ok p) :
    (∃ bs, readVessel bs = some p.vessel) ∧ ∃ bs, readRamps bs = some p.ramps := by
  unfold loadSections at h
  cases hv : named .vessel (readSection m count es .vessel readVessel) with
  | error => simp [hv, bind, Except.bind] at h
  | ok vessel =>
  cases hd : named .decks (readSection m count es .decks readDecks) with
  | error => simp [hv, hd, bind, Except.bind] at h
  | ok decks =>
  cases hl : named .lanes (readSection m count es .lanes readLanes) with
  | error => simp [hv, hd, hl, bind, Except.bind] at h
  | ok lanes =>
  cases hr : named .ramps (readSection m count es .ramps readRamps) with
  | error => simp [hv, hd, hl, hr, bind, Except.bind] at h
  | ok ramps =>
  cases hs : named .stations (readSection m count es .stations readStations) with
  | error => simp [hv, hd, hl, hr, hs, bind, Except.bind] at h
  | ok stations =>
    simp only [hv, hd, hl, hr, hs, bind, Except.bind, Except.ok.injEq] at h
    subst h
    exact ⟨readSection_eq_some (named_eq_ok hv), readSection_eq_some (named_eq_ok hr)⟩

/-- A load that ends with a profile read it from the sections (R182). -/
theorem loadImage_profile {m : List Host.Cell} {count : Nat} {p : Profile} (h : (loadImage m count).profile = some p) :
    ∃ es, loadSections m count es = .ok p := by
  unfold loadImage at h
  dsimp only at h
  split at h
  · cases h
  · split at h
    · cases h
    · split at h
      · cases h
      · split at h
        · cases h
        · next hl => cases h; exact ⟨_, hl⟩

theorem loadImage_ramps_inRanges {m : List Host.Cell} {count : Nat} {p : Profile}
    (h : (loadImage m count).profile = some p) : p.ramps.a.inRanges = true ∧ p.ramps.b.inRanges = true := by
  obtain ⟨es, hl⟩ := loadImage_profile h
  obtain ⟨-, bs, hr⟩ := loadSections_eq_ok hl
  exact readRamps_inRanges hr

theorem loadImage_vessel_inRanges {m : List Host.Cell} {count : Nat} {p : Profile}
    (h : (loadImage m count).profile = some p) : p.vessel.inRanges = true := by
  obtain ⟨es, hl⟩ := loadImage_profile h
  obtain ⟨⟨bs, hr⟩, -⟩ := loadSections_eq_ok hl
  exact readVessel_inRanges hr

/-! ## Ramp settings from the profile (R102, R123) -/

/-- Settings copied from a RAMPS record that lies in its ranges. -/
theorem budgeted_of_inRanges {f : RampFixed} (h : f.inRanges = true) (x : RampRun) :
    RampRun.Budgeted
      { x with ratio := f.ratio, depth := f.depth, budget := f.budget, credit := 0, remaining := f.budget } := by
  simp only [RampFixed.inRanges, Bool.and_eq_true, inRange_iff, and_assoc] at h
  obtain ⟨hb, hb', -, -, -, hr, hd, hd', -⟩ := h
  exact ⟨hr, hd, hd', hb, hb', le_refl _, Nat.zero_le _⟩

theorem budgeted_loaded {f : Option RampFixed} (h : ∀ g ∈ f, g.inRanges = true) (x : RampRun) :
    (x.loaded f).Budgeted := by
  cases f with
  | none => refine ⟨?_, ?_, ?_, ?_, ?_, ?_, ?_⟩ <;> simp [RampRun.loaded]
  | some g => exact budgeted_of_inRanges (h g rfl) x

/-- Under BudgetLaw the RAMPS record that a ramp reads lies in its ranges. -/
theorem rampFixed_inRanges {s : State} (h : BudgetLaw s) (r : Ramp) : (s.rampFixed r).inRanges = true := by
  unfold State.rampFixed State.profile
  cases hp : s.pst.shadow with
  | none => cases r <;> decide
  | some p => cases r; exacts [(h.2 p hp).1, (h.2 p hp).2]

/-! ## The Session Controller's requests (chapter 10) -/

theorem admits_vesselOpen {x : Session} (h : admits x .vesselOpen = true) : x = .noVessel := by
  revert h; cases x <;> decide

theorem admits_vesselSecure {x : Session} (h : admits x .vesselSecure = true) : x = .alongside := by
  revert h; cases x <;> decide

theorem admits_vesselReopen {x : Session} (h : admits x .vesselReopen = true) : x = .secured := by
  revert h; cases x <;> decide

theorem admits_vesselRelease {x : Session} (h : admits x .vesselRelease = true) : x = .secured := by
  revert h; cases x <;> decide

theorem steady_forRamps {f : Ramp → State → State} (h : ∀ r s, Steady s (f r s)) : Steady s (s.forRamps f) :=
  (h .a s).trans (h .b _)

theorem steady_forDecks {f : Deck → State → State} (h : ∀ d s, Steady s (f d s)) : Steady s (s.forDecks f) :=
  Steady.foldl (fun s d => h d s) allDecks s

theorem steady_freshRamp (r : Ramp) : Steady s (s.freshRamp r) := by
  unfold State.freshRamp
  refine .after (steady_setRamp_of_law _ (fun _ => rfl) fun hb => ?_)
    (.after (steady_setGate _ r false) (steady_setRampState s r .closed))
  have hf := rampFixed_inRanges hb r
  exact budgeted_of_inRanges (by simpa using hf) RampRun.reset

theorem steady_freshDeck (d : Deck) : Steady s (s.freshDeck d) :=
  .after (steady_examineWarning _ d) (steady_setDeck s id)

theorem obstructed_nil : Obstructed [] := ⟨Nat.zero_le _, List.Pairwise.nil⟩

/-- The tables cleared and the session begun at VESSEL_OPEN (R163). -/
theorem keeps_beginSession (o : List Ticket) (n : Nat) (h : s.session = .noVessel) :
    Keeps o o s
      ((((((s.setSession .alongside).setCheckIn []).setAgeing (some n)).setLanes (Vector.replicate 96 LaneRun.reset)).setStb
        Stability.reset).setAlc Allocator.reset) := by
  refine
    { Keeps.refl o s with
      clock := fun ⟨h1, h2, _⟩ => ⟨by simpa [h] using h1, by simpa [h] using h2, by simp⟩
      bound := fun hs => ?_
      slot := fun ⟨hp, hl, hs, ht⟩ => ⟨?_, hl, fun _ => rfl, fun hload => ?_⟩ }
  · obtain ⟨⟨-, hi⟩, hr⟩ := boundLaw_iff.1 hs
    refine boundLaw_iff.2 ⟨⟨fun l => ?_, hi⟩, hr⟩
    simpa [State.setLanes, State.lane, LaneRun.reset] using obstructed_nil
  · have hnone := hs (by simp [h])
    simpa [outstanding, hnone, Allocator.reset] using hp
  · exact absurd (ht hload) (by simp [h])

theorem keeps_ownVesselOpen (t : Ticket) (x : Unit) (h : admits s.session .vesselOpen = true) :
    Keeps [t] [] s (ownVesselOpen t x s) := by
  have hs := admits_vesselOpen h
  unfold ownVesselOpen
  exact (keeps_beginSession s [t] _ hs).trans (Orderly.toKeeps (Steady.fill
    (.after (steady_forDecks _ fun d s => steady_freshDeck s d)
      (steady_forRamps _ fun r s => (steady_freshRamp s r).trans (steady_setPlate _ r _)))))

theorem steady_shutOut (ref : Ref) : Steady s (s.shutOut ref) := by
  unfold State.shutOut
  refine .after (steady_modUnit _ ref (fun _ => rfl) fun _ _ _ h => h.status rfl rfl nofun nofun) ?_
  split
  · exact steady_release s ref
  · exact steady_leaveUnplaced s ref
  · exact .refl s

theorem steady_secureRamp (r : Ramp) : Steady s (s.secureRamp r) := by
  unfold State.secureRamp
  exact .after (steady_setPlate _ r _) (.after (steady_setRamp _ id id)
    (.after (steady_setGate _ r false) (steady_setRampState s r .closed)))

/-- The session ends its loading with nothing served (R164, R165). -/
theorem orderly_endSession (o : List Ticket) (h : s.session = .alongside) (hn : s.alc.service = []) :
    Orderly o o s ((s.setSession .secured).setAgeing none) :=
  { Orderly.refl o s with
    slot := fun ⟨hp, hl, _, ht⟩ => ⟨hp, hl, fun _ => by simp [hn], fun hload => absurd (ht hload) (by simp [h])⟩
    clock := fun ⟨h1, h2, _⟩ => ⟨by simpa [h] using h1, by simpa [h] using h2, by simp⟩ }

theorem foldl_shutOut_service (refs : List Ref) :
    (refs.foldl State.shutOut s).alc.service = s.alc.service := by
  induction refs generalizing s with
  | nil => rfl
  | cons ref refs ih =>
    refine (ih _).trans ?_
    unfold State.shutOut
    dsimp only
    split <;> simp [State.leaveUnplaced]

theorem orderly_ownVesselSecure (t : Ticket) (x : Unit) (h : admits s.session .vesselSecure = true) :
    Orderly [t] [] s (ownVesselSecure t x s) := by
  have hs := admits_vesselSecure h
  unfold ownVesselSecure
  split_ifs with h1 h2
  · exact orderly_fill s t _
  · exact orderly_refuse s t _
  · have hn : s.alc.service = [] := by
      by_contra hne
      exact h2 (.inl hne)
    have hq := Steady.foldl steady_shutOut s.toShutOut s
    refine (hq.orderly [t]).trans ?_
    have hn' : (s.toShutOut.foldl State.shutOut s).alc.service = [] := by rw [foldl_shutOut_service, hn]
    exact (orderly_endSession _ [t] (hq.session.trans hs) hn').trans
      (Steady.fill (steady_forRamps _ fun r s => steady_secureRamp s r))

/-- The session resumes from SECURED (R167). -/
theorem orderly_resumeSession (o : List Ticket) (n : Nat) (h : s.session = .secured) :
    Orderly o o s ((s.setSession .alongside).setAgeing (some n)) :=
  { Orderly.refl o s with
    slot := fun ⟨hp, hl, _, ht⟩ => ⟨hp, hl, fun hne => absurd rfl hne, fun hload => absurd (ht hload) (by simp [h])⟩
    clock := fun ⟨h1, h2, _⟩ => ⟨by simpa [h] using h1, by simpa [h] using h2, by simp⟩ }

theorem steady_unplaceAgain (ref : Ref) : Steady s ((s.setStatus ref .unplaced).joinUnplaced ref) :=
  .after (steady_joinUnplaced _ ref) (steady_setStatus s ref nofun nofun)

theorem orderly_ownVesselReopen (t : Ticket) (x : Unit) (h : admits s.session .vesselReopen = true) :
    Orderly [t] [] s (ownVesselReopen t x s) := by
  have hs := admits_vesselReopen h
  have hq := Steady.foldl steady_unplaceAgain s.shutOutRefs s
  unfold ownVesselReopen
  exact ((hq.orderly [t]).trans (orderly_resumeSession _ [t] _ (hq.session.trans hs))).trans
    (Steady.fill (steady_triggerWalk _))

theorem steady_releaseDeck (d : Deck) : Steady s (s.releaseDeck d) :=
  .after (steady_setWarning _ d false) (steady_setDeck s id)

theorem steady_releaseRamp (r : Ramp) : Steady s (s.releaseRamp r) :=
  .after (steady_setRamp _ id id) (.after (steady_setGate _ r false) (steady_setRampState s r .closed))

/-- The tables cleared at VESSEL_RELEASE, but for some of the records (R168). -/
theorem keeps_dropSession (o : List Ticket) (p : UnitRecord → Bool) (h : s.session = .secured) :
    Keeps o o s
      ((((((s.setSession .noVessel).setUnits (s.units.filter p)).setCheckIn []).setLanes
        (Vector.replicate 96 LaneRun.reset)).setStb Stability.reset)) := by
  refine
    { Keeps.refl o s with
      table := fun ⟨hn, hr⟩ => ⟨(List.length_filter_le _ _).trans hn, unitsRise_filter _ hr⟩
      bound := fun hs => ?_
      slot := fun ⟨hp, hl, hs, ht⟩ => ⟨hp, hl, fun _ => hs (by simp [h]), fun hload => absurd (ht hload) (by simp [h])⟩
      clock := fun ⟨h1, h2, h3⟩ => ⟨by simpa [h] using h1, by simpa [h] using h2, by simpa [h] using h3⟩ }
  obtain ⟨⟨-, hi⟩, hr⟩ := boundLaw_iff.1 hs
  refine boundLaw_iff.2 ⟨⟨fun l => ?_, hi⟩, hr⟩
  simpa [State.setLanes, State.lane, LaneRun.reset] using obstructed_nil

theorem keeps_ownVesselRelease (t : Ticket) (x : Unit) (h : admits s.session .vesselRelease = true) :
    Keeps [t] [] s (ownVesselRelease t x s) := by
  have hs := admits_vesselRelease h
  unfold ownVesselRelease
  exact (keeps_dropSession s [t] _ hs).trans (Orderly.toKeeps (Steady.fill (.after
    (steady_forRamps _ fun r s => steady_releaseRamp s r) (steady_forDecks _ fun d s => steady_releaseDeck s d))))

end Sys2Proof.Machine

namespace Sys2Proof.Machine

open Sys2Proof

variable (s : State)

/-! ## Loads (R182, R187)

While a load ends, or a reload begins, the session and the timers change before the request that the load serves is
answered or taken over. -/

/-- SlotLaw but for the request that a load serves. -/
def SlotsWith (o : List Ticket) (s : State) : Prop :=
  s.link.reserved.Perm (o ++ outstanding s) ∧ s.link.reserved.length + s.link.filled.length ≤ 8 ∧
    (s.session ≠ .alongside → s.alc.service.filterMap Item.ticket? = [])

/-- A load is answered in LOADING only (R187). -/
def LoadLaw (s : State) : Prop := s.pst.loadTicket.isSome = true → s.session = .loading

theorem slotLawWith_iff {o : List Ticket} {s : State} : SlotLawWith o s ↔ SlotsWith o s ∧ LoadLaw s := by
  unfold SlotLawWith SlotsWith LoadLaw; tauto

/-- What `Keeps` says, but for the timers and the request that a load serves. -/
structure KeepsRest (o o' : List Ticket) (s u : State) : Prop where
  memory : MemoryLaw s → MemoryLaw u
  table : UnitTableLaw s → UnitTableLaw u
  budget : BudgetLaw s → BudgetLaw u
  line : LineLaw s → LineLaw u
  bound : BoundLaw s → BoundLaw u
  slots : SlotsWith o s → SlotsWith o' u

theorem KeepsRest.refl (o : List Ticket) (s : State) : KeepsRest o o s s := ⟨id, id, id, id, id, id⟩

theorem KeepsRest.trans {a b c : List Ticket} {s t u : State} (h : KeepsRest a b s t) (k : KeepsRest b c t u) :
    KeepsRest a c s u :=
  ⟨k.memory ∘ h.memory, k.table ∘ h.table, k.budget ∘ h.budget, k.line ∘ h.line, k.bound ∘ h.bound, k.slots ∘ h.slots⟩

theorem Quiet.keepsRest {s u : State} (h : Quiet s u) (o : List Ticket) : KeepsRest o o s u :=
  { h.keeps o with
    slots := fun hs => by
      obtain ⟨-, -, -, e1, e2, -⟩ := h.news
      simpa only [SlotsWith, outstanding, h.tickets, h.pst, h.session, e1, e2] using hs }

theorem KeepsRest.keeps {o o' : List Ticket} {s u : State} (h : KeepsRest o o' s u) (hc : ClockLaw s → ClockLaw u)
    (hl : LoadLaw s → LoadLaw u) : Keeps o o' s u :=
  { h with clock := hc, slot := fun hs => slotLawWith_iff.2 ⟨h.slots (slotLawWith_iff.1 hs).1, hl (slotLawWith_iff.1 hs).2⟩ }

/-- The sample timer alone. -/
theorem keepsRest_sampleTimer (o : List Ticket) (t : Timer) : KeepsRest o o s (s.setHlm { s.hlm with sampleTimer := t }) :=
  { KeepsRest.refl o s with }

/-- The Profile Store, the ramp settings and the session as a load leaves them, before the first sample. -/
def State.loadedWith (x : LoadResult) (session : Session) (s : State) : State :=
  let ramps := x.profile.map (·.ramps)
  let s1 := (s.setPst (s.pst.loaded x)).setFreeCount (s.freeCount + loadReadings)
  let s2 := s1.setRamp .a ((s1.ramp .a).loaded (ramps.map (·.a)))
  (s2.setRamp .b ((s2.ramp .b).loaded (ramps.map (·.b)))).setSession session

theorem endLoad_of_profile {x : LoadResult} (h : x.profile.isSome = true) (gradA gradB : BitVec 8) (incl : BitVec 10) :
    s.endLoad x gradA gradB incl = (((s.loadedWith x .noVessel).takeSample gradA gradB incl).startSampling).answerLoad := by
  simp only [State.endLoad, h, if_true]; rfl

theorem endLoad_of_no_profile {x : LoadResult} (h : ¬ x.profile.isSome = true) (gradA gradB : BitVec 8)
    (incl : BitVec 10) : s.endLoad x gradA gradB incl = (s.loadedWith x .noProfile).answerLoad := by
  simp only [State.endLoad, h]; rfl

theorem loaded_lineFollows {x : RampRun} (f : Option RampFixed) (h : x.LineFollows) : (x.loaded f).LineFollows := by
  cases f <;> exact h

theorem loadedWith_ramp (x : LoadResult) (session : Session) (r : Ramp) :
    (s.loadedWith x session).ramp r = (s.ramp r).loaded (x.profile.map fun p => p.ramps.get r) := by
  cases r
  · exact congrArg (fun f => (s.ramp .a).loaded f)
      (Option.map_map (fun q : PerRamp RampFixed => q.a) Profile.ramps x.profile)
  · exact congrArg (fun f => (s.ramp .b).loaded f)
      (Option.map_map (fun q : PerRamp RampFixed => q.b) Profile.ramps x.profile)

theorem keepsRest_loadedWith {x : LoadResult} {session : Session}
    (hx : ∀ p, x.profile = some p → p.ramps.a.inRanges = true ∧ p.ramps.b.inRanges = true) (hl : s.session = .loading) :
    KeepsRest [] [] s (s.loadedWith x session) :=
  { KeepsRest.refl [] s with
    budget := fun _ => by
      refine ⟨fun r => ?_, hx⟩
      rw [loadedWith_ramp]
      refine budgeted_loaded (fun g hg => ?_) _
      obtain ⟨p, hp, rfl⟩ := Option.map_eq_some_iff.1 hg
      cases r
      exacts [(hx p hp).1, (hx p hp).2]
    line := fun ⟨hd, hr, hm⟩ => ⟨hd, fun r => by rw [loadedWith_ramp]; exact loaded_lineFollows _ (hr r), hm⟩
    slots := fun ⟨hp, hl', hs⟩ => ⟨hp, hl', fun _ => hs (by simp [hl])⟩ }

/-- The request that a load serves is answered (R187). -/
theorem keepsRest_answerLoad : KeepsRest [] [] s s.answerLoad := by
  unfold State.answerLoad
  split
  · next t ht =>
    have hk := keeps_fill (s.setPst { s.pst with loadTicket := none }) t
      (.profileReloaded s.session s.pst.startUp s.pst.failSection s.pst.hazardDefaults)
    refine { hk with slots := fun ⟨hp, hl, hs⟩ => ?_ }
    have h := hk.slot ⟨?_, hl, hs, nofun⟩
    · exact (slotLawWith_iff.1 h).1
    · refine hp.trans ?_
      simp only [outstanding, ht, Option.toList_some, List.nil_append, List.append_nil, Option.toList_none,
        List.singleton_append, State.setPst_alc, State.setPst_pst]
      exact List.perm_append_singleton _ _
  · exact .refl [] s

theorem answerLoad_frame :
    s.answerLoad.session = s.session ∧ s.answerLoad.ageing = s.ageing ∧ s.answerLoad.hlm = s.hlm ∧
      s.answerLoad.pst.shadow = s.pst.shadow ∧ s.answerLoad.pst.loadTicket = none := by
  unfold State.answerLoad
  split
  · exact ⟨rfl, rfl, rfl, rfl, rfl⟩
  · next h => exact ⟨rfl, rfl, rfl, rfl, h⟩

theorem keeps_endLoad {x : LoadResult}
    (hx : ∀ p, x.profile = some p → p.ramps.a.inRanges = true ∧ p.ramps.b.inRanges = true) (hl : s.session = .loading)
    (gradA gradB : BitVec 8) (incl : BitVec 10) : Keeps [] [] s (s.endLoad x gradA gradB incl) := by
  by_cases hp : x.profile.isSome = true
  · rw [endLoad_of_profile s hp]
    have hq := (steady_takeSample (s.loadedWith x .noVessel) gradA gradB incl).toQuiet
    generalize (s.loadedWith x .noVessel).takeSample gradA gradB incl = v at hq ⊢
    obtain ⟨e1, e2, e3, e4, e5⟩ := answerLoad_frame v.startSampling
    have hr := (((keepsRest_loadedWith s hx hl (session := .noVessel)).trans (hq.keepsRest [])).trans
      (keepsRest_sampleTimer v [] _)).trans (keepsRest_answerLoad v.startSampling)
    refine hr.keeps (fun ⟨_, _, h3⟩ => ?_) fun _ => by simp [LoadLaw, e5]
    have hsession : v.session = .noVessel := hq.session
    have hshadow : v.pst.shadow = x.profile := congrArg ProfileStore.shadow hq.pst
    have hageing : v.ageing.isSome = s.ageing.isSome := hq.ageing
    rw [hl] at h3
    unfold ClockLaw
    rw [e1, e2, e3, e4]
    simp [State.startSampling, hsession, hshadow, hageing, hp, h3]
  · rw [endLoad_of_no_profile s hp]
    obtain ⟨e1, e2, e3, e4, e5⟩ := answerLoad_frame (s.loadedWith x .noProfile)
    have hr := (keepsRest_loadedWith s hx hl (session := .noProfile)).trans (keepsRest_answerLoad _)
    refine hr.keeps (fun ⟨h1, h2, h3⟩ => ?_) fun _ => by simp [LoadLaw, e5]
    rw [hl] at h1 h3
    have hshadow : (s.loadedWith x .noProfile).pst.shadow = x.profile := rfl
    have hsession : (s.loadedWith x .noProfile).session = .noProfile := rfl
    have hhlm : (s.loadedWith x .noProfile).hlm = s.hlm := rfl
    have hageing : (s.loadedWith x .noProfile).ageing = s.ageing := rfl
    unfold ClockLaw
    rw [e1, e2, e3, e4, hshadow, hsession, hhlm, hageing]
    exact ⟨by simpa using h1, by simpa using hp, by simpa using h3⟩

theorem keeps_execLoadEnd {gradA gradB : BitVec 8} {incl : BitVec 10} {u : State}
    (h : execLoadEnd gradA gradB incl s = .next u) : Keeps [] [] s u := by
  unfold execLoadEnd at h
  split at h
  · next hl => exact keeps_finish (keeps_endLoad s (fun _ => loadImage_ramps_inRanges) hl _ _ _) h
  · exact keeps_notNow h

/-! ## Writes and reloads (R184 to R187) -/

theorem orderly_ownProfileWrite (prot : Bool) (t : Ticket) (q : ChunkRequest) :
    Orderly [t] [] s (ownProfileWrite prot t q s) := by
  unfold ownProfileWrite
  split_ifs with hw hp
  · exact orderly_refuse s t _
  · exact orderly_refuse s t _
  · split
    · exact orderly_refuse s t _
    · have hnone : s.pst.write = none := Option.not_isSome_iff_eq_none.1 hw
      refine { Orderly.refl [] s with slot := fun ⟨hperm, hl, hs, ht⟩ => ⟨hperm.trans ?_, hl, hs, ht⟩ }
      simp only [outstanding, hnone, State.setPst_alc, State.setPst_pst, Option.map_none, Option.map_some,
        Option.toList_none, Option.toList_some, List.append_nil, List.nil_append, List.singleton_append, List.append_assoc]
      exact List.perm_middle.symm

/-- A write's end: the memory changes, and the request that it serves is open (R185). -/
theorem orderly_writeOver {w : MemWrite} {p : ProfileStore} (hw : s.pst.write = some w)
    (hp : p = { s.pst with write := none, mem := p.mem, writeTable := p.writeTable, bus := p.bus })
    (hm : MemoryLaw s → Memory.wf p.mem = true) : Orderly [] [w.ticket] s (s.setPst p) := by
  rw [hp]
  refine { Orderly.refl [] s with memory := hm, slot := fun ⟨hperm, hl, hs, ht⟩ => ⟨hperm.trans ?_, hl, hs, ht⟩ }
  simp only [outstanding, hw, State.setPst_alc, State.setPst_pst, Option.map_none, Option.map_some, Option.toList_none,
    Option.toList_some, List.append_nil, List.nil_append, List.singleton_append, List.append_assoc]
  exact List.perm_middle

theorem orderly_setFreeCount (o : List Ticket) (n : Nat) : Orderly o o s (s.setFreeCount n) := { Orderly.refl o s with }

theorem orderly_execProfileWriteEnd {stored : List Byte} {u : State} (h : execProfileWriteEnd stored s = .next u) :
    Orderly [] [] s u := by
  unfold execProfileWriteEnd at h
  split at h
  · next w hw =>
    refine orderly_finish ?_ h
    unfold State.endWrite
    exact .after (orderly_fill _ _ _) (.after (orderly_setFreeCount _ _ _)
      (orderly_writeOver s hw rfl fun hm => storeParts_wf _ hm (pageParts_bound _ _ _)))
  · exact orderly_notNow h

theorem orderly_execWriteTimeout {partsDone : Nat} {mix : List Byte} {u : State}
    (h : execWriteTimeout partsDone mix s = .next u) : Orderly [] [] s u := by
  unfold execWriteTimeout at h
  split at h
  · next w hw =>
    refine orderly_finish ?_ h
    unfold State.failWrite
    exact .after (orderly_fill _ _ _)
      (orderly_writeOver s hw rfl fun hm => storePartly_wf _ _ _ hm (pageParts_bound _ _ _))
  · exact orderly_notNow h

theorem admits_profileReload {x : Session} (h : admits x .profileReload = true) : x = .noProfile ∨ x = .noVessel := by
  revert h; cases x <;> decide

/-- The session as a reload begins, before the monitors stop (R187). -/
theorem keepsRest_beginReload (o : List Ticket) (h : s.session ≠ .alongside) :
    KeepsRest o o s ((s.setSession .loading).modLink fun k => { k with rxBuffer := [] }) :=
  { KeepsRest.refl o s with
    bound := fun hs => by
      obtain ⟨hi, -, ht⟩ := boundLaw_iff.1 hs
      exact boundLaw_iff.2 ⟨hi, Nat.zero_le _, ht⟩
    slots := fun ⟨hp, hl, hs⟩ => ⟨hp, hl, fun _ => hs h⟩ }

theorem keepsRest_stopMonitors (o : List Ticket) : KeepsRest o o s s.stopMonitors := by
  have h1 : KeepsRest o o s (s.setHlm { s.hlm with history := [], heel := 0, sampleTimer := none }) :=
    { KeepsRest.refl o s with
      bound := fun hs => by
        obtain ⟨⟨ho, -, hn⟩, hb⟩ := boundLaw_iff.1 hs
        exact boundLaw_iff.2 ⟨⟨ho, Nat.zero_le _, hn⟩, hb⟩ }
  exact h1.trans (((steady_setHeelHold _ false).trans ((steady_unsample _ .a).trans
    (steady_unsample _ .b))).toQuiet.keepsRest o)

theorem stopMonitors_frame' :
    s.stopMonitors.session = s.session ∧ s.stopMonitors.ageing.isSome = s.ageing.isSome ∧
      s.stopMonitors.hlm.sampleTimer.isSome = false ∧ s.stopMonitors.pst = s.pst ∧ s.stopMonitors.alc = s.alc := by
  have h := ((steady_setHeelHold (s.setHlm { s.hlm with history := [], heel := 0, sampleTimer := none }) false).trans
    ((steady_unsample _ .a).trans (steady_unsample _ .b))).toQuiet
  exact ⟨h.session, h.ageing, h.sampling, h.pst, by simp⟩

theorem keeps_ownProfileReload (t : Ticket) (x : Unit) (h : admits s.session .profileReload = true) :
    Keeps [t] [] s (ownProfileReload t x s) := by
  have hs := admits_profileReload h
  have hne : s.session ≠ .alongside := by rcases hs with e | e <;> simp [e]
  have hnl : s.session ≠ .loading := by rcases hs with e | e <;> simp [e]
  unfold ownProfileReload
  split_ifs with hw
  · exact keeps_refuse s t _
  · have hr := (keepsRest_beginReload s [t] hne).trans (keepsRest_stopMonitors _ [t])
    obtain ⟨e1, e2, e3, e4, e5⟩ :=
      stopMonitors_frame' ((s.setSession .loading).modLink fun k => { k with rxBuffer := [] })
    dsimp only
    generalize ((s.setSession .loading).modLink fun k => { k with rxBuffer := [] }).stopMonitors = v at hr e1 e2 e3 e4 e5 ⊢
    refine
      { memory := id, table := hr.table, line := hr.line, bound := hr.bound
        budget := fun hb => ⟨(hr.budget hb).1, nofun⟩
        clock := fun ⟨_, _, h3⟩ => ⟨?_, ?_, ?_⟩
        slot := fun hlaw => ?_ }
    · simpa [e1] using e3
    · simp [e1]
    · have : s.ageing.isSome = false := by simpa [hne] using h3
      have e2' : v.ageing.isSome = s.ageing.isSome := e2
      simp [e1, e2', this]
    · obtain ⟨hlaw, hload⟩ := slotLawWith_iff.1 hlaw
      obtain ⟨hp, hl, hserv⟩ := hr.slots hlaw
      have hnone : s.pst.loadTicket = none := by
        by_contra hc
        exact hnl (hload (Option.isSome_iff_ne_none.2 hc))
      have e4' : v.pst = s.pst := e4
      refine ⟨hp.trans ?_, hl, hserv, fun _ => e1⟩
      simp only [outstanding, e4', hnone, State.setPst_alc, State.setPst_pst, Option.toList_none, Option.toList_some,
        List.append_nil]
      exact List.perm_append_comm

/-! ## Hardware reset (R161) -/

theorem budgeted_reset : RampRun.reset.Budgeted :=
  ⟨by decide, by decide, by decide, by decide, by decide, le_refl _, le_refl _⟩

theorem keeps_resetWith {rate : Nat} {mem : List Host.Cell} {q : List Instr} {n : Nat}
    (hm : MemoryLaw s → Memory.wf mem = true) : Keeps [] [] s (State.resetWith rate mem q n) where
  memory := hm
  table _ := ⟨Nat.zero_le _, List.Pairwise.nil⟩
  clock _ := by refine ⟨?_, ?_, ?_⟩ <;> simp [State.resetWith, HeelMonitor.reset, ProfileStore.reset]
  budget _ := by
    refine ⟨fun r => ?_, nofun⟩
    cases r <;> exact budgeted_reset
  line _ := by
    refine ⟨fun d => ?_, fun r => ?_, rfl⟩
    · simp [State.resetWith, State.deck, DeckRun.reset]
    · cases r <;> rfl
  bound _ := by
    refine boundLaw_iff.2 ⟨⟨fun l => ?_, Nat.zero_le _, Nat.zero_le _⟩, Nat.zero_le _, nofun, nofun⟩
    simpa [State.resetWith, State.lane, LaneRun.reset] using obstructed_nil
  slot _ := ⟨.refl _, Nat.zero_le _, fun _ => rfl, nofun⟩

theorem memAtReset_wf (partsDone : Nat) (mix : List Byte) (h : MemoryLaw s) :
    Memory.wf (s.pst.memAtReset partsDone mix) = true := by
  unfold ProfileStore.memAtReset
  split
  · exact storePartly_wf _ _ _ h (pageParts_bound _ _ _)
  · exact h

theorem keeps_execHardwareReset {baud1 baud0 : Bool} {partsDone : Nat} {mix : List Byte} {u : State}
    (h : execHardwareReset baud1 baud0 partsDone mix s = .next u) : Keeps [] [] s u :=
  keeps_finish (keeps_resetWith s (memAtReset_wf s partsDone mix)) h

/-! ## The link's own steps (R169, R170, R178) -/

theorem orderly_endTx : Orderly [] [] s s.endTx := by
  unfold State.endTx
  have hrx (k : Link) (h1 : k.reserved = s.link.reserved) (h2 : k.filled.length ≤ s.link.filled.length)
      (h3 : k.notices.length ≤ s.link.notices.length) (h4 : k.rxBuffer = s.link.rxBuffer) (h5 : k.tx = .idle) :
      Orderly [] [] s (s.modLink fun _ => k) :=
    { Orderly.refl [] s with
      bound := fun hs => by
        obtain ⟨⟨ho, hh, hn⟩, hb, -⟩ := boundLaw_iff.1 hs
        exact boundLaw_iff.2 ⟨⟨ho, hh, h3.trans hn⟩, by simpa [State.modLink, h4] using hb, by simp [State.modLink, h5],
          by simp [State.modLink, h5]⟩
      slot := fun ⟨hp, hl, hs⟩ => ⟨h1 ▸ hp, by
        simp only [State.modLink, h1]; omega, hs⟩ }
  cases h : s.link.tx with
  | idle => simpa [State.modLink, h] using Orderly.refl [] s
  | response bs =>
    simpa [State.modLink, h] using
      hrx { s.link with tx := .idle, filled := s.link.filled.tail } rfl (by simp) (le_refl _) rfl rfl
  | notice bs =>
    simpa [State.modLink, h] using
      hrx { s.link with tx := .idle, notices := s.link.notices.tail } rfl (le_refl _) (by simp) rfl rfl
  | state x bs =>
    simpa [State.modLink, h] using hrx { s.link with tx := .idle } rfl (le_refl _) (le_refl _) rfl rfl

theorem orderly_execFrameSent {u : State} (h : execFrameSent s = .next u) : Orderly [] [] s u := by
  unfold execFrameSent at h
  split at h
  · exact orderly_notNow h
  · exact orderly_finish (orderly_endTx s) h

theorem orderly_receiver (x : Receiver) : Orderly [] [] s (s.modLink fun k => { k with rx := x }) :=
  { Orderly.refl [] s with }

theorem orderly_acceptFrame (f : Frame) : Orderly [] [] s (s.acceptFrame f) := by
  unfold State.acceptFrame
  split_ifs with h1 h2 h3
  · exact .refl [] s
  · exact .refl [] s
  · exact .refl [] s
  · exact
      { Orderly.refl [] s with
        bound := fun hs => by
          obtain ⟨hi, -, ht⟩ := boundLaw_iff.1 hs
          refine boundLaw_iff.2 ⟨hi, ?_, ht⟩
          have : s.link.rxBuffer.length < 4 := not_le.1 h3
          simpa [State.modLink] using this }

theorem orderly_receiveByte (b : Byte) : Orderly [] [] s (s.receiveByte b) := by
  unfold State.receiveByte
  dsimp only
  split
  · exact (orderly_receiver s _).trans (orderly_acceptFrame _ _)
  · exact orderly_receiver s _

theorem orderly_receiveBytes (bs : List Byte) : Orderly [] [] s (s.receiveBytes bs) := by
  unfold State.receiveBytes
  induction bs generalizing s with
  | nil => exact .refl [] s
  | cons b bs ih => exact (orderly_receiveByte s b).trans (ih _)

theorem orderly_execBadKindRequest {u : State} (h : execBadKindRequest s = .next u) : Orderly [] [] s u := by
  unfold execBadKindRequest at h
  split at h
  · exact orderly_notNow h
  · next f s' ht =>
    obtain ⟨rest, hf, rfl⟩ := takeFrame_eq_some ht
    split at h
    · exact orderly_finish ((orderly_taken hf).trans (orderly_refuse _ _ _)) h
    · exact orderly_notNow h

end Sys2Proof.Machine

namespace Sys2Proof.Machine

open Sys2Proof

/-! ## The commands of the Allocator (chapter 4) -/

/-- The service input loses its front item; a request that waited with it is open (R61, R171). -/
theorem orderly_takeItem {s : State} {x : Item} {rest : List Item} (h : s.alc.service = x :: rest) (walk : List Ref) :
    Orderly [] x.ticket?.toList s (s.setAlc { s.alc with service := rest, walk := walk }) :=
  { Orderly.refl [] s with
    slot := fun ⟨hp, hl, hs, ht⟩ => by
      refine ⟨?_, hl, fun hne => ?_, ht⟩
      · cases hx : x.ticket? <;> simpa [outstanding, h, hx] using hp
      · have := hs hne
        cases hx : x.ticket? <;> simp_all }

theorem Cause.ticket_reallocation (ref : Ref) (l : Lane) : Item.ticket? (.placement ref (.reallocation l)) = none := rfl

theorem keeps_tellPlacement (s : State) (ref : Ref) (cause : Cause) :
    Keeps (Item.ticket? (.placement ref cause)).toList [] s (s.tellPlacement ref cause) := by
  cases cause with
  | checkIn t => exact keeps_fill s t _
  | present t => exact keeps_fill s t _
  | releaseHold t => exact keeps_fill s t _
  | reallocation former =>
    unfold State.tellPlacement
    dsimp only
    split
    · exact (steady_notify s _).toQuiet.keeps []
    · exact .refl [] s

theorem keeps_execPlacementServed {s u : State} (h : execPlacementServed s = .next u) : Keeps [] [] s u := by
  unfold execPlacementServed at h
  split at h
  · split at h
    · next ref cause rest hserv =>
      have hk := (orderly_takeItem hserv s.alc.walk).toKeeps
      dsimp only at h
      split at h
      · exact keeps_finish (hk.trans (((quiet_servePlacement _ _ _).keeps _).trans (keeps_tellPlacement _ ref cause))) h
      · exact keeps_finish (hk.trans (keeps_tellPlacement _ ref cause)) h
    · exact keeps_notNow h
  · exact keeps_notNow h

theorem orderly_execRetryWalk {s u : State} (h : execRetryWalk s = .next u) : Orderly [] [] s u := by
  unfold execRetryWalk at h
  split at h
  · split at h
    · next rest hserv => exact orderly_finish (orderly_takeItem hserv s.alc.unplaced) h
    · exact orderly_notNow h
  · exact orderly_notNow h

theorem keeps_execWalkVisit {s u : State} (h : execWalkVisit s = .next u) : Keeps [] [] s u := by
  unfold execWalkVisit at h
  split at h
  · exact keeps_notNow h
  · next ref rest _ =>
    have hq : Steady s (s.setAlc { s.alc with walk := rest }) := steady_setAlc s rfl
    dsimp only at h
    split at h
    · exact keeps_finish ((hq.toQuiet.trans (quiet_visit _ _)).keeps []) h
    · exact keeps_finish (hq.toQuiet.keeps []) h

theorem keeps_execRedirectSearch {s u : State} (h : execRedirectSearch s = .next u) : Keeps [] [] s u := by
  unfold execRedirectSearch at h
  split at h
  · split at h
    · next x rest hserv =>
      have hk := (orderly_takeItem hserv s.alc.walk).toKeeps
      dsimp only at h
      split at h
      · exact keeps_finish (hk.trans ((quiet_serveRedirect _ _ _).keeps [])) h
      · exact keeps_finish hk h
    · exact keeps_notNow h
  · exact keeps_notNow h

/-! ## Expiries, calls, crossings, samples -/

theorem quiet_ageAll (s : State) : Quiet s s.ageAll := quiet_mapUnits s fun u => by split <;> rfl

theorem steady_lapse (s : State) (ref : Ref) : Steady s (s.lapse ref) :=
  .after (steady_setStatus _ ref nofun nofun) (steady_release s ref)

theorem keeps_execAgeingExpiry {s u : State} (h : execAgeingExpiry s = .next u) : Keeps [] [] s u := by
  unfold execAgeingExpiry at h
  split at h
  · next ha =>
    have hq := ((steady_ageing s (t := some s.agePeriodMs) (by simp [ha])).toQuiet.trans (quiet_ageAll _)).trans
      (Steady.foldl steady_lapse ((s.setAgeing (some s.agePeriodMs)).ageAll).lapsing _).toQuiet
    refine keeps_finish (Quiet.keeps ?_ []) h
    split
    · exact hq
    · exact hq.trans (steady_triggerWalk _).toQuiet
  · exact keeps_notNow h

/-- The credit after a call stays within the ratio (R111). -/
theorem credit_le_of_callChoice {s : State} {r : Ramp} {ref : Ref} {credit : Nat}
    (h : s.callChoice r = some (ref, credit)) (hc : (s.ramp r).credit ≤ (s.ramp r).ratio) :
    credit ≤ (s.ramp r).ratio := by
  unfold State.callChoice at h
  dsimp only at h
  split at h
  · cases h
  · cases h; split_ifs <;> omega
  · cases h; omega
  · split_ifs at h <;> cases h <;> omega

theorem leaveQueue_settings (s : State) (r : Ramp) (ref : Ref) :
    ((s.leaveQueue r ref).ramp r).ratio = (s.ramp r).ratio ∧ ((s.leaveQueue r ref).ramp r).credit = (s.ramp r).credit := by
  unfold State.leaveQueue
  dsimp only
  split
  · unfold State.examineGate; rw [setGate_ramp, State.ramp_setRamp_same]; exact ⟨rfl, rfl⟩
  · exact ⟨rfl, rfl⟩

theorem steady_makeCall (s : State) {r : Ramp} {u : UnitRecord} {l : Lane} {credit : Nat}
    (hc : (s.ramp r).credit ≤ (s.ramp r).ratio → credit ≤ (s.ramp r).ratio) : Steady s (s.makeCall r u l credit) := by
  have h1 : Steady s ((s.leaveQueue r u.decl.ref).setStatus u.decl.ref .called) :=
    .after (steady_setStatus _ _ nofun nofun) (steady_leaveQueue s r _)
  obtain ⟨e1, e2⟩ : (((s.leaveQueue r u.decl.ref).setStatus u.decl.ref .called).ramp r).ratio = (s.ramp r).ratio ∧
      (((s.leaveQueue r u.decl.ref).setStatus u.decl.ref .called).ramp r).credit = (s.ramp r).credit := by
    simpa using leaveQueue_settings s r u.decl.ref
  unfold State.makeCall
  dsimp only
  generalize (s.leaveQueue r u.decl.ref).setStatus u.decl.ref .called = s1 at h1 e1 e2 ⊢
  have h2 : Steady s (s1.setRamp r
      { s1.ramp r with
        called := (s1.ramp r).called ++ [u.decl.ref], remaining := (s1.ramp r).remaining - u.decl.weight,
        credit := credit }) := by
    refine .after (steady_setRamp _ id fun ⟨b1, b2, b3, b4, b5, b6, b7⟩ => ?_) h1
    exact ⟨b1, b2, b3, b4, b5, (Nat.sub_le _ _).trans b6, by rw [e1, e2] at b7; rw [e1]; exact hc b7⟩
  split
  · exact (h2.trans (steady_notify _ _)).trans (steady_timeHead _ r)
  · exact h2.trans (steady_notify _ _)

theorem orderly_execCall {s u : State} {r : Ramp} (h : execCall r s = .next u) : Orderly [] [] s u := by
  unfold execCall at h
  split at h
  · split at h
    · next ref credit hch =>
      split at h
      · split at h
        · exact orderly_finish ((steady_makeCall s (credit_le_of_callChoice hch)).orderly []) h
        · exact orderly_notNow h
      · exact orderly_notNow h
    · exact orderly_notNow h
  · exact orderly_notNow h

theorem steady_restoreBudget (s : State) (r : Ramp) (t : Timer) :
    Steady s (s.setRamp r { s.ramp r with remaining := (s.ramp r).budget, intervalTimer := t }) :=
  steady_setRamp s id fun ⟨b1, b2, b3, b4, b5, _, b7⟩ => ⟨b1, b2, b3, b4, b5, le_refl _, b7⟩

theorem orderly_execIntervalTimerExpiry {s u : State} {r : Ramp} (h : execIntervalTimerExpiry r s = .next u) :
    Orderly [] [] s u := by
  unfold execIntervalTimerExpiry at h
  split at h
  · exact orderly_finish ((steady_restoreBudget s r _).orderly []) h
  · exact orderly_notNow h

theorem steady_firstNoShow (s : State) (r : Ramp) (u : UnitRecord) (l : Lane) : Steady s (s.firstNoShow r u l) := by
  unfold State.firstNoShow
  exact .after (steady_uncallToWaiting _ _ _ _ _ _)
    (steady_modUnit s _ (fun _ => rfl) fun _ _ _ h => h.same rfl rfl rfl)

theorem steady_secondNoShow (s : State) (r : Ramp) (u : UnitRecord) : Steady s (s.secondNoShow r u) := by
  unfold State.secondNoShow
  exact .after (steady_triggerWalk _) (.after (steady_uncallNotice _ _ _ _ _) (.after (steady_leaveCalled _ _ _)
    (.after (steady_setStatus _ _ nofun nofun) (steady_release s _))))

theorem orderly_execCallTimerExpiry {s u : State} {r : Ramp} (h : execCallTimerExpiry r s = .next u) :
    Orderly [] [] s u := by
  unfold execCallTimerExpiry at h
  split at h
  · split at h
    · split at h
      · split at h
        · refine orderly_finish (Steady.orderly ?_ []) h
          split
          · exact steady_firstNoShow s r _ _
          · exact steady_secondNoShow s r _
        · exact orderly_notNow h
      · exact orderly_notNow h
    · exact orderly_notNow h
  · exact orderly_notNow h

theorem orderly_execAxleEdge {s u : State} {r : Ramp} (h : execAxleEdge r s = .next u) : Orderly [] [] s u := by
  unfold execAxleEdge at h
  split at h
  · exact orderly_notNow h
  · exact orderly_finish ((steady_openCrossing s r).orderly []) h
  · exact orderly_finish ((steady_setPlate s r _).orderly []) h

theorem orderly_execConversionComplete {s u : State} {r : Ramp} {code : BitVec 10}
    (h : execConversionComplete r code s = .next u) : Orderly [] [] s u := by
  unfold execConversionComplete at h
  split at h
  · exact orderly_finish ((steady_setPlate s r _).orderly []) h
  · exact orderly_notNow h

theorem keeps_execGapTimerExpiry {s u : State} {r : Ramp} (h : execGapTimerExpiry r s = .next u) :
    Keeps [] [] s u := by
  unfold execGapTimerExpiry at h
  dsimp only at h
  split at h
  · have hc := steady_clearPlate s r
    split at h
    · next ref _ =>
      have hl := hc.trans (steady_leaveCalled _ r ref)
      split at h
      · exact keeps_finish ((hl.toQuiet.trans ((quiet_settle _ r _ _).trans (steady_timeHead _ r).toQuiet)).keeps []) h
      · exact keeps_finish ((hl.trans (steady_timeHead _ r)).toQuiet.keeps []) h
    · exact keeps_finish (((hc.trans (steady_notify _ _)).trans (steady_timeHead _ r)).toQuiet.keeps []) h
  · exact keeps_notNow h

theorem steady_startSampling {s : State} (h : s.hlm.sampleTimer.isSome = true) : Steady s s.startSampling :=
  steady_setHlm s (by simp [h]) id id

theorem orderly_execSampleTimerExpiry {s u : State} {gradA gradB : BitVec 8} {incl : BitVec 10}
    (h : execSampleTimerExpiry gradA gradB incl s = .next u) : Orderly [] [] s u := by
  unfold execSampleTimerExpiry at h
  split at h
  · next hs =>
    exact orderly_finish (((steady_startSampling hs).trans (steady_takeSample _ _ _ _)).orderly []) h
  · exact orderly_notNow h

/-! ## Every step -/

theorem orderly_ownQueryUnit (s : State) (t : Ticket) (ref : Ref) : Orderly [t] [] s (ownQueryUnit t ref s) :=
  orderly_withUnit fun _ => orderly_fill s t _

theorem orderly_ownQueryLane (s : State) (t : Ticket) (q : Lane × Nat) : Orderly [t] [] s (ownQueryLane t q s) :=
  orderly_fill s t _

theorem orderly_ownQueryQueue (s : State) (t : Ticket) (q : QueueRequest) : Orderly [t] [] s (ownQueryQueue t q s) :=
  orderly_fill s t _

theorem orderly_ownQueryStatus (s : State) (t : Ticket) (x : Unit) : Orderly [t] [] s (ownQueryStatus t x s) :=
  orderly_fill s t _

/-- The commands that change who stands aboard, what is declared, promised or aged, or which profile is held. -/
def restows : Instr → Bool
  | .hardwareReset .. | .loadEnd .. | .vesselOpen | .vesselRelease | .book | .amend | .cancel | .checkIn | .place
  | .discharge | .profileReload | .placementServed | .walkVisit | .redirectSearch | .ageingExpiry
  | .gapTimerExpiry .. => true
  | _ => false

/-- Every other command keeps the laws and the cargo. -/
theorem orderly_exec {c : Instr} {s u : State} (hc : restows c = false) (h : exec c s = .next u) :
    Orderly [] [] s u := by
  cases c with
  | frameComplete bytes => cases h; exact orderly_receiveBytes s bytes
  | framingError bytes => cases h; exact (orderly_receiveBytes s bytes).trans (orderly_receiver _ _)
  | badKindRequest => exact orderly_execBadKindRequest s h
  | vesselSecure => exact orderly_handle (fun t req v ha => orderly_ownVesselSecure v t req ha) h
  | vesselReopen => exact orderly_handle (fun t req v ha => orderly_ownVesselReopen v t req ha) h
  | present => exact orderly_handle (fun t req v ha => orderly_ownPresent v t req (admits_present ha)) h
  | holdUnit => exact orderly_handle (fun t req v _ => orderly_ownHoldUnit v t req) h
  | releaseHold => exact orderly_handle (fun t req v ha => orderly_ownReleaseHold v t req (admits_releaseHold ha)) h
  | rampOpen => exact orderly_handle (fun t req v _ => orderly_ownRampOpen v t req) h
  | rampClose => exact orderly_handle (fun t req v _ => orderly_ownRampClose v t req) h
  | setRamp => exact orderly_handle (fun t req v _ => orderly_ownSetRamp v t req) h
  | skip => exact orderly_handle (fun t req v _ => orderly_ownSkip v t req) h
  | laneClose => exact orderly_handle (fun t req v _ => orderly_ownLaneClose v t req) h
  | laneOpen => exact orderly_handle (fun t req v _ => orderly_ownLaneOpen v t req) h
  | obstructionAdd => exact orderly_handle (fun t req v _ => orderly_ownObstructionAdd v t req) h
  | obstructionClear => exact orderly_handle (fun t req v _ => orderly_ownObstructionClear v t req) h
  | setBallast => exact orderly_handle (fun t req v _ => orderly_ownSetBallast v t req) h
  | clearFlags => exact orderly_handle (fun t req v _ => orderly_ownClearFlags v t req) h
  | profileWrite prot => exact orderly_handle (fun t req v _ => orderly_ownProfileWrite v prot t req) h
  | profileWriteEnd => exact orderly_execProfileWriteEnd s h
  | writeTimeout => exact orderly_execWriteTimeout s h
  | queryUnit => exact orderly_handle (fun t req v _ => orderly_ownQueryUnit v t req) h
  | queryLane => exact orderly_handle (fun t req v _ => orderly_ownQueryLane v t req) h
  | queryQueue => exact orderly_handle (fun t req v _ => orderly_ownQueryQueue v t req) h
  | queryStatus => exact orderly_handle (fun t req v _ => orderly_ownQueryStatus v t req) h
  | retryWalk => exact orderly_execRetryWalk h
  | call => exact orderly_execCall h
  | intervalTimerExpiry => exact orderly_execIntervalTimerExpiry h
  | callTimerExpiry => exact orderly_execCallTimerExpiry h
  | axleEdge => exact orderly_execAxleEdge h
  | conversionComplete => exact orderly_execConversionComplete h
  | sampleTimerExpiry => exact orderly_execSampleTimerExpiry h
  | frameSent => exact orderly_execFrameSent s h
  | frameDiscarded bytes => cases h; exact orderly_receiveBytes s bytes
  | _ => cases hc

/-- Every command keeps the laws of timers, budgets, lines, bounds and slots, of the memory and of the Unit Table. -/
theorem keeps_exec {c : Instr} {s u : State} (h : exec c s = .next u) : Keeps [] [] s u := by
  by_cases hc : restows c = false
  · exact (orderly_exec hc h).toKeeps
  cases c with
  | hardwareReset => exact keeps_execHardwareReset s h
  | loadEnd => exact keeps_execLoadEnd s h
  | vesselOpen => exact keeps_handle (fun t req v ha => keeps_ownVesselOpen v t req ha) h
  | vesselRelease => exact keeps_handle (fun t req v ha => keeps_ownVesselRelease v t req ha) h
  | book => exact keeps_handle (fun t req v _ => keeps_ownBook v t req) h
  | amend => exact keeps_handle (fun t req v _ => keeps_ownAmend v t req) h
  | cancel => exact keeps_handle (fun t req v _ => keeps_ownCancel v t req) h
  | checkIn => exact keeps_handle (fun t req v ha => keeps_ownCheckIn v t req (admits_checkIn ha)) h
  | place => exact keeps_handle (fun t req v _ => keeps_ownPlace v t req) h
  | discharge => exact keeps_handle (fun t req v _ => keeps_ownDischarge v t req) h
  | profileReload => exact keeps_handle (fun t req v ha => keeps_ownProfileReload v t req ha) h
  | placementServed => exact keeps_execPlacementServed h
  | walkVisit => exact keeps_execWalkVisit h
  | redirectSearch => exact keeps_execRedirectSearch h
  | ageingExpiry => exact keeps_execAgeingExpiry h
  | gapTimerExpiry => exact keeps_execGapTimerExpiry h
  | _ => exact absurd rfl hc

/-- A step is the front command's, or nothing. -/
theorem step_next {s u : State} (h : step s = .next u) :
    u = s ∨ ∃ c q, exec c (s.setPending q) = .next u := by
  unfold step at h
  split at h
  · cases h; exact .inl rfl
  · exact .inr ⟨_, _, h⟩

theorem keeps_step {s u : State} (h : step s = .next u) : Keeps [] [] s u := by
  obtain rfl | ⟨c, q, hc⟩ := step_next h
  · exact .refl [] u
  · exact ((steady_setPending s q).toQuiet.keeps []).trans (keeps_exec hc)

/-- Settles O59: each law is kept by the parts of every command (`Keeps`). -/
theorem timersBudgetsLinesBoundsAndSlotsAreKept : Obligations.TimersBudgetsLinesBoundsAndSlotsAreKept := by
  unfold Obligations.TimersBudgetsLinesBoundsAndSlotsAreKept
  exact ⟨fun _ _ hs h => (keeps_step h).clock hs, fun _ _ hs h => (keeps_step h).budget hs,
    fun _ _ hs h => (keeps_step h).line hs, fun _ _ hs h => (keeps_step h).bound hs,
    fun _ _ hs h => slotLawWith_nil.1 ((keeps_step h).slot (slotLawWith_nil.2 hs))⟩

end Sys2Proof.Machine

namespace Sys2Proof.Machine

open Sys2Proof

/-! ## The cargo's law in parts (R25, R41) -/

/-- Occupants in rising order of offset and the gap apart. -/
def Spaced (gap : Nat) (len : Ref → Nat) (os : List Occupant) : Prop :=
  os.Pairwise fun o p => o.offset < p.offset ∧ o.offset + len o.ref + gap ≤ p.offset

/-- In each lane the occupants stand apart. -/
def Apart (s : State) : Prop := ∀ l, Spaced s.vessel.gap s.lengthOf (s.lane l).occupants

/-- No deck's load is above its cap. -/
def WithinCaps (s : State) : Prop := ∀ d : Deck, s.stb.load[d] ≤ ((s.deckFixed d).cap : Int)

/-- Every occupant has a length; R1's range gives it. -/
def Tall (s : State) : Prop := ∀ l, ∀ o ∈ (s.lane l).occupants, 0 < s.lengthOf o.ref

theorem cargoLaw_iff {s : State} : CargoLaw s ↔ RecordsFit s ∧ Apart s ∧ WithinCaps s := by
  unfold CargoLaw RecordsFit RecordFits Apart Spaced WithinCaps
  tauto

theorem vessel_congr {s u : State} (h : u.pst.shadow = s.pst.shadow) : u.vessel = s.vessel := by
  unfold State.vessel State.profile; rw [h]

theorem deckFixed_congr {s u : State} (h : u.pst.shadow = s.pst.shadow) (d : Deck) : u.deckFixed d = s.deckFixed d := by
  unfold State.deckFixed State.profile; rw [h]

theorem Spaced.congr {gap : Nat} {len len' : Ref → Nat} {os : List Occupant} (h : Spaced gap len os)
    (he : ∀ o ∈ os, len' o.ref = len o.ref) : Spaced gap len' os :=
  List.Pairwise.imp_of_mem (fun ho _ hp => by rw [he _ ho]; exact hp) h

theorem Stacked.apart {s u : State} (h : Stacked s u) (hs : Apart s) : Apart u := fun l => by
  rw [h.occupants l, vessel_congr h.shadow]
  exact (hs l).congr (h.lengths l)

theorem Stacked.withinCaps {s u : State} (h : Stacked s u) (hs : WithinCaps s) : WithinCaps u := fun d => by
  rw [deckFixed_congr h.shadow]
  exact (h.loads d).trans (hs d)

theorem Stacked.tall {s u : State} (h : Stacked s u) (hs : Tall s) : Tall u := fun l o ho => by
  have ho' := h.occupants l ▸ ho
  rw [h.lengths l o ho']
  exact hs l o ho'

theorem Stacked.cargo {s u : State} (h : Stacked s u) (hr : RecordsFit u) (hs : CargoLaw s) : CargoLaw u := by
  obtain ⟨-, ha, hc⟩ := cargoLaw_iff.1 hs
  exact cargoLaw_iff.2 ⟨hr, h.apart ha, h.withinCaps hc⟩

theorem Stowed.cargo {s u : State} (h : Stowed s u) (hs : CargoLaw s) : CargoLaw u :=
  h.toStacked.cargo (h.records (cargoLaw_iff.1 hs).1) hs

/-- A vessel without occupants and loads. -/
theorem cargo_of_clear {s : State} (hr : RecordsFit s) (ho : ∀ l, (s.lane l).occupants = [])
    (hl : ∀ d : Deck, s.stb.load[d] = 0) : CargoLaw s :=
  cargoLaw_iff.2 ⟨hr, fun l => by rw [ho l]; exact .nil, fun d => by rw [hl d]; exact Int.natCast_nonneg _⟩

/-! ## What the reservation law says of occupants (R25, R26) -/

theorem unitIs_iff {s : State} {ref : Ref} {p : UnitRecord → Bool} :
    unitIs s ref p = true ↔ ∃ v, s.unit? ref = some v ∧ p v = true := by
  simp [unitIs, Option.any_eq_true]

theorem unit_ref {s : State} {ref : Ref} {v : UnitRecord} (h : s.unit? ref = some v) : v.decl.ref = ref := by
  simpa using List.find?_some h

theorem unit_mem {s : State} {ref : Ref} {v : UnitRecord} (h : s.unit? ref = some v) : v ∈ s.units :=
  List.mem_of_find?_eq_some h

theorem ReservationLaw.occupant {s : State} (h : ReservationLaw s) {l : Lane} {o : Occupant}
    (ho : o ∈ (s.lane l).occupants) : ∃ v, s.unit? o.ref = some v ∧ v.lane = some l ∧ v.status = .aboard := by
  obtain ⟨-, -, hl, -⟩ := h
  obtain ⟨-, -, -, hocc⟩ := hl l
  simpa using unitIs_iff.1 (hocc o ho)

theorem ReservationLaw.occupants_nodup {s : State} (h : ReservationLaw s) (l : Lane) :
    ((s.lane l).occupants.map (·.ref)).Nodup := by
  obtain ⟨-, -, hl, -⟩ := h
  exact (hl l).2.2.1

/-- A record that is not ABOARD stands in no occupant list. -/
theorem ReservationLaw.not_occupant {s : State} (h : ReservationLaw s) {ref : Ref} {v : UnitRecord}
    (hv : s.unit? ref = some v) (ha : v.status ≠ .aboard) : ∀ l, ∀ o ∈ (s.lane l).occupants, o.ref ≠ ref := by
  rintro l o ho rfl
  obtain ⟨w, hw, -, hab⟩ := h.occupant ho
  exact ha (Option.some.inj (hv.symm.trans hw) ▸ hab)

/-- A reference that no record holds stands in no occupant list. -/
theorem ReservationLaw.unknown_not_occupant {s : State} (h : ReservationLaw s) {ref : Ref} (hn : s.unit? ref = none) :
    ∀ l, ∀ o ∈ (s.lane l).occupants, o.ref ≠ ref := by
  rintro l o ho rfl
  obtain ⟨w, hw, -⟩ := h.occupant ho
  exact nomatch hn.symm.trans hw

theorem ReservationLaw.tall {s : State} (h : ReservationLaw s) (hr : RecordsFit s) : Tall s := fun l o ho => by
  obtain ⟨v, hv, -⟩ := h.occupant ho
  obtain ⟨⟨-, ⟨hlen, -⟩, -⟩, -⟩ := hr.2 v (unit_mem hv)
  simp only [State.lengthOf, hv]
  omega

/-- Before loading begins and without a vessel, every record is BOOKED (R161 to R168). -/
theorem ReservationLaw.all_booked {s : State} (h : ReservationLaw s) (ha : s.session ≠ .alongside)
    (hs : s.session ≠ .secured) : ∀ v ∈ s.units, v.status = .booked := by
  obtain ⟨-, -, -, -, -, -, -, -, -, -, -, -, hrest⟩ := h
  obtain ⟨-, -, hu⟩ := hrest ha
  intro v hv
  rcases hu v hv with hb | ⟨hsec, -⟩
  · exact hb
  · exact absurd hsec hs

theorem no_occupants_of_all_booked {s : State} (h : ReservationLaw s) (hb : ∀ v ∈ s.units, v.status = .booked) (l : Lane) :
    (s.lane l).occupants = [] := by
  refine List.eq_nil_iff_forall_not_mem.2 fun o ho => ?_
  obtain ⟨v, hv, -, ha⟩ := h.occupant ho
  simp [hb v (unit_mem hv)] at ha

theorem no_load_of_all_booked {s : State} (h : SumsLaw s) (hb : ∀ v ∈ s.units, v.status = .booked) (d : Deck) :
    s.stb.load[d] = 0 := by
  obtain ⟨-, -, -, -, hload⟩ := h
  have h1 : s.units.filter (fun v => decide (v.status = .aboard)) = [] :=
    List.filter_eq_nil_iff.2 fun v hv => by simp [hb v hv]
  have h2 : s.units.filter holdsReservation = [] :=
    List.filter_eq_nil_iff.2 fun v hv => by simp [holdsReservation, hb v hv]
  rw [hload d, h1, h2]
  rfl

theorem recordsFit_of_all_booked {s u : State} (hr : RecordsFit s) (hb : ∀ v ∈ s.units, v.status = .booked)
    (hu : u.units = s.units) (hl : 1 ≤ u.vessel.ageLimit) : RecordsFit u := by
  refine ⟨hl, fun v hv => ?_⟩
  rw [hu] at hv
  obtain ⟨hd, -, -, ha⟩ := hr.2 v hv
  have hb' := hb v hv
  exact ⟨hd, by rw [ha hb']; exact Nat.zero_le _, fun e => by simp [hb'] at e, fun _ => ha hb'⟩

/-! ## Occupant lists that grow and shrink (R25, R29, R156, R159) -/

/-- The occupants stay apart when one more stands beyond the last. -/
theorem Spaced.concat {gap : Nat} {len : Ref → Nat} {os : List Occupant} {x : Occupant} (h : Spaced gap len os)
    (hx : ∀ o ∈ os.getLast?, o.offset < x.offset ∧ o.offset + len o.ref + gap ≤ x.offset) : Spaced gap len (os ++ [x]) := by
  refine List.pairwise_append.2 ⟨h, List.pairwise_singleton _ _, fun o ho y hy => ?_⟩
  obtain rfl := List.mem_singleton.1 hy
  obtain ⟨init, last, rfl⟩ : ∃ init last, os = init ++ [last] := by
    simpa using (List.eq_nil_or_concat os).resolve_left (List.ne_nil_of_mem ho)
  have hlast := hx last (by simp)
  rcases List.mem_append.1 ho with hi | hl
  · have := (List.pairwise_append.1 h).2.2 o hi last (by simp)
    omega
  · obtain rfl := List.mem_singleton.1 hl
    exact hlast

/-- The occupants stay apart when one more is inserted with the gap to both neighbours. -/
theorem Spaced.insert {gap : Nat} {len : Ref → Nat} {os : List Occupant} {x : Occupant} (h : Spaced gap len os)
    (hne : ∀ o ∈ os, o.offset ≠ x.offset)
    (hin : ∀ o ∈ (os.filter fun o => decide (o.offset < x.offset)).getLast?, o.offset + len o.ref + gap ≤ x.offset)
    (hout : ∀ o ∈ os.find? fun o => decide (x.offset < o.offset), x.offset + len x.ref + gap ≤ o.offset) :
    Spaced gap len (insertOccupant x os) := by
  rw [insertOccupant_eq (h.imp fun hp => hp.1) hne]
  have hbelow : Spaced gap len (os.filter (fun o => decide (o.offset < x.offset)) ++ [x]) := by
    refine Spaced.concat (h.filter _) fun o ho => ⟨?_, hin o ho⟩
    simpa using (List.mem_filter.1 (List.mem_of_mem_getLast? ho)).2
  have habove : ∀ o ∈ os.filter fun o => decide (x.offset < o.offset),
      x.offset < o.offset ∧ x.offset + len x.ref + gap ≤ o.offset := by
    intro o ho
    refine ⟨by simpa using (List.mem_filter.1 ho).2, ?_⟩
    rw [← List.head?_filter] at hout
    cases hf : os.filter fun o => decide (x.offset < o.offset) with
    | nil => simp [hf] at ho
    | cons y rest =>
      have hy := hout y (by simp [hf])
      rw [hf] at ho
      rcases List.mem_cons.1 ho with rfl | hrest
      · exact hy
      · have hpair : Spaced gap len (y :: rest) := hf ▸ h.filter _
        have := (List.pairwise_cons.1 hpair).1 o hrest
        omega
  have happ : Spaced gap len ((os.filter (fun o => decide (o.offset < x.offset)) ++ [x]) ++
      os.filter fun o => decide (x.offset < o.offset)) := by
    refine List.pairwise_append.2 ⟨hbelow, h.filter _, fun o ho p hp => ?_⟩
    have hp' := habove p hp
    rcases List.mem_append.1 ho with hb | hb
    · have := (List.pairwise_append.1 hbelow).2.2 o hb x (by simp)
      omega
    · obtain rfl := List.mem_singleton.1 hb
      exact hp'
  simpa using happ

/-- Other lanes keep their occupants. -/
theorem apart_setLane {s : State} {l : Lane} {x : LaneRun} (hx : Spaced s.vessel.gap s.lengthOf x.occupants)
    (h : ∀ k, k ≠ l → Spaced s.vessel.gap s.lengthOf (s.lane k).occupants) : Apart (s.setLane l x) := fun k => by
  change Spaced s.vessel.gap s.lengthOf _
  by_cases hk : k = l
  · subst hk; simpa using hx
  · simpa [State.lane_setLane_other _ _ hk] using h k hk

theorem Stacked.startPoint {s u : State} (h : Stacked s u) (l : Lane) : u.startPoint l = s.startPoint l := by
  unfold State.startPoint State.physicalEnd
  rw [h.occupants l, vessel_congr h.shadow]
  cases hl : (s.lane l).occupants.getLast? with
  | none => rfl
  | some o => simp only [h.lengths l o (List.mem_of_mem_getLast? hl)]

/-- The last occupant ends the gap before the start point (R28). -/
theorem last_before_startPoint {s : State} {l : Lane} {o : Occupant} (ho : o ∈ (s.lane l).occupants.getLast?) :
    s.startPoint l = o.offset + s.lengthOf o.ref + s.vessel.gap := by
  have hne : (s.lane l).occupants ≠ [] := List.ne_nil_of_mem (List.mem_of_mem_getLast? ho)
  simp [State.startPoint, State.physicalEnd, hne, Option.mem_def.1 ho]

/-- An occupant that joins at or beyond the start point keeps the law (R25, R29). -/
theorem cargo_joinOccupants {s : State} {l : Lane} {ref : Ref} {offset : Nat} (ht : Tall s)
    (ho : s.startPoint l ≤ offset) (hs : CargoLaw s) : CargoLaw (s.joinOccupants l ref offset) := by
  obtain ⟨hr, ha, hc⟩ := cargoLaw_iff.1 hs
  refine cargoLaw_iff.2 ⟨hr, apart_setLane ((ha l).concat fun o hl => ?_) fun k _ => ha k, hc⟩
  have := last_before_startPoint hl
  have := ht l o (List.mem_of_mem_getLast? hl)
  dsimp only
  omega

/-! ## Weights that join a deck's load (R41) -/

theorem withinCaps_addLoad {s : State} {d : Deck} {w : Int} (h : s.stb.load[d] + w ≤ ((s.deckFixed d).cap : Int))
    (hs : WithinCaps s) (e : Deck) : (s.stb.addLoad d w).load[e] ≤ ((s.deckFixed e).cap : Int) := by
  rw [getElem_addLoad]
  split
  · next he => subst he; exact h
  · exact hs e

theorem cargo_addProvisional {s : State} {l : Lane} {w : Nat}
    (h : s.stb.load[(s.laneFixed l).deck] + w ≤ ((s.deckFixed (s.laneFixed l).deck).cap : Int)) (hs : CargoLaw s) :
    CargoLaw (s.addProvisional l w) := by
  obtain ⟨hr, ha, hc⟩ := cargoLaw_iff.1 hs
  exact cargoLaw_iff.2 ⟨hr, ha, withinCaps_addLoad h hc⟩

theorem cargo_addCommitted {s : State} {l : Lane} {w o n : Nat}
    (h : s.stb.load[(s.laneFixed l).deck] + w ≤ ((s.deckFixed (s.laneFixed l).deck).cap : Int)) (hs : CargoLaw s) :
    CargoLaw (s.addCommitted l w o n) := by
  obtain ⟨hr, ha, hc⟩ := cargoLaw_iff.1 hs
  exact cargoLaw_iff.2 ⟨hr, ha, withinCaps_addLoad h hc⟩

end Sys2Proof.Machine

namespace Sys2Proof.Machine

open Sys2Proof

/-- The laws under which a step keeps the cargo. -/
structure Loadable (s : State) : Prop where
  reservations : ReservationLaw s
  sums : SumsLaw s
  cargo : CargoLaw s

theorem Loadable.records {s : State} (h : Loadable s) : RecordsFit s := (cargoLaw_iff.1 h.cargo).1

theorem Loadable.tall {s : State} (h : Loadable s) : Tall s := h.reservations.tall h.records

theorem cargo_fill {s : State} {t : Ticket} {r : Reply} (h : CargoLaw s) : CargoLaw (s.fill t r) := h

theorem cargo_finish {v u : State} (h : CargoLaw v) (hu : finish v = .next u) : CargoLaw u := by
  cases hu; exact (stowed_startTx v).cargo h

theorem cargo_notNow {s u : State} (h : CargoLaw s) (hu : notNow s = .next u) : CargoLaw u := by
  cases hu; exact h

/-- A request's row keeps the cargo when its owner does. -/
theorem cargo_handle {α : Type} {k : RequestKind} {parse : State → List Byte → Option α}
    {deckOf : State → α → Option Deck} {owner : Ticket → α → State → State} {s u : State} (hs : Loadable s)
    (ho : ∀ t req v, Loadable v → (∃ bs, parse v bs = some req) → admits v.session k = true → CargoLaw (owner t req v))
    (h : handle k parse deckOf owner s = .next u) : CargoLaw u := by
  obtain rfl | ⟨f, rest, hf, ⟨r, rfl⟩ | ⟨req, hq, ha, rfl⟩⟩ := handle_next h
  · exact hs.cargo
  · exact (stowed_startTx _).cargo hs.cargo
  · have hv : Loadable (s.taken f rest) := ⟨hs.reservations, hs.sums, hs.cargo⟩
    exact (stowed_startTx _).cargo (ho f.ticket req _ hv ⟨_, hq⟩ ha)

theorem cargo_withUnit {s : State} {b : Bool} {t : Ticket} {ref : Ref} {go : UnitRecord → State} (hs : CargoLaw s)
    (h : ∀ u, s.unit? ref = some u → CargoLaw (go u)) : CargoLaw (s.withUnit b t ref go) := by
  unfold State.withUnit
  split
  · exact hs
  · next u hu =>
    split
    · exact hs
    · exact h u hu

/-! ## The Unit Table's requests -/

theorem readDeclared_inRange {bs : List Byte} {d : Declared} (h : readDeclared bs = some d) : DeclaredInRange d := by
  unfold readDeclared at h
  iterate 2 obtain ⟨⟨_, _⟩, -, h⟩ := Option.bind_eq_some_iff.1 h
  obtain ⟨_, -, h⟩ := Option.bind_eq_some_iff.1 h
  iterate 10 obtain ⟨⟨_, _⟩, -, h⟩ := Option.bind_eq_some_iff.1 h
  dsimp only at h
  split at h
  · next hr => cases h; exact declared_inRanges_iff.1 (Bool.and_eq_true_iff.1 hr).2
  · cases h

theorem readAmend_inRange {s : State} {bs : List Byte} {q : Ref × Declared} (h : readAmend s bs = some q) :
    DeclaredInRange q.2 := by
  unfold readAmend at h
  obtain ⟨⟨_, _⟩, -, h⟩ := Option.bind_eq_some_iff.1 h
  obtain ⟨d, hd, h⟩ := Option.bind_eq_some_iff.1 h
  cases h
  exact readDeclared_inRange hd

theorem readCheckIn_inRange {s : State} {bs : List Byte} {q : Ref × Option Nat} (h : readCheckIn s bs = some q) :
    ∀ n ∈ q.2, 20 ≤ n ∧ n ≤ 250 := by
  unfold readCheckIn at h
  iterate 3 obtain ⟨⟨_, _⟩, -, h⟩ := Option.bind_eq_some_iff.1 h
  dsimp only at h
  split at h
  · next hr => cases h; exact optInRange_iff.1 (Bool.and_eq_true_iff.1 hr).2
  · cases h

theorem readPlace_inRange {s : State} {bs : List Byte} {q : PlaceRequest} (h : readPlace s bs = some q) :
    DeclaredInRange q.declared := by
  unfold readPlace at h
  iterate 2 obtain ⟨⟨_, _⟩, -, h⟩ := Option.bind_eq_some_iff.1 h
  obtain ⟨_, -, h⟩ := Option.bind_eq_some_iff.1 h
  iterate 6 obtain ⟨⟨_, _⟩, -, h⟩ := Option.bind_eq_some_iff.1 h
  obtain ⟨_, -, h⟩ := Option.bind_eq_some_iff.1 h
  iterate 3 obtain ⟨⟨_, _⟩, -, h⟩ := Option.bind_eq_some_iff.1 h
  dsimp only at h
  split at h
  · next hr =>
    cases h
    obtain ⟨hr, -⟩ := Bool.and_eq_true_iff.1 hr
    exact declared_inRanges_iff.1 (Bool.and_eq_true_iff.1 hr).2
  · cases h

/-- A change of a record that is no occupant's leaves the occupants as they stand. -/
theorem stacked_modUnit_other {s : State} {ref : Ref} {f : UnitRecord → UnitRecord} (hf : KeepsRef f)
    (h : ∀ l, ∀ o ∈ (s.lane l).occupants, o.ref ≠ ref) : Stacked s (s.modUnit ref f) :=
  { Stacked.refl s with lengths := fun l o ho => lengthOf_congr (unitOf_modUnit_other s f hf (h l o ho)) }

theorem stacked_addUnit {s : State} {v : UnitRecord} (h : ∀ l, ∀ o ∈ (s.lane l).occupants, o.ref ≠ v.decl.ref) :
    Stacked s (s.addUnit v) :=
  { Stacked.refl s with lengths := fun l o ho => lengthOf_addUnit_other s (h l o ho) }

variable {s : State}

theorem cargo_ownBook (hs : Loadable s) (t : Ticket) {d : Declared} (hd : DeclaredInRange d) :
    CargoLaw (ownBook t d s) := by
  unfold ownBook
  split_ifs with hdup hfull
  · exact hs.cargo
  · exact hs.cargo
  · have hn := hs.reservations.unknown_not_occupant (Option.not_isSome_iff_eq_none.1 hdup)
    exact cargo_fill ((stacked_addUnit hn).cargo (recordsFit_addUnit hd rfl hs.records) hs.cargo)

theorem cargo_ownAmend (hs : Loadable s) (t : Ticket) {q : Ref × Declared} (hd : DeclaredInRange q.2) :
    CargoLaw (ownAmend t q s) :=
  cargo_withUnit hs.cargo fun u hu => by
    split_ifs with hr hb
    · exact hs.cargo
    · have hn := hs.reservations.not_occupant hu (by simp [hb])
      rw [modUnit_decl_eq s (not_not.1 hr)]
      refine cargo_fill (Stacked.cargo (stacked_modUnit_other (fun _ => rfl) hn) ?_ hs.cargo)
      rw [← modUnit_decl_eq s (not_not.1 hr)]
      exact recordsFit_modUnit (fun _ _ _ h => ⟨hd, h.2⟩) hs.records
    · exact hs.cargo

theorem cargo_retire {ref : Ref} (hn : ∀ l, ∀ o ∈ (s.lane l).occupants, o.ref ≠ ref) (hs : CargoLaw s) :
    CargoLaw (s.retire ref) := (steady_retire s hn).cargo hs

theorem cargo_ownCancel (hs : Loadable s) (t : Ticket) (ref : Ref) : CargoLaw (ownCancel t ref s) :=
  cargo_withUnit hs.cargo fun u hu => by
    have gone (ha : u.status ≠ .aboard) : CargoLaw (s.retire ref) :=
      cargo_retire (hs.reservations.not_occupant hu ha) hs.cargo
    have goneAfter {v : State} (h : Steady s v) (ha : u.status ≠ .aboard) : CargoLaw (v.retire ref) :=
      cargo_retire (fun l o ho => hs.reservations.not_occupant hu ha l o (h.occupants l ▸ ho)) (h.cargo hs.cargo)
    split
    case h_5 h => exact cargo_fill ((steady_triggerWalk _).cargo (goneAfter (steady_release s ref) (by simp [h])))
    case h_6 h => exact cargo_fill (goneAfter (steady_leaveUnplaced s ref) (by simp [h]))
    case h_7 | h_8 | h_9 => exact hs.cargo
    all_goals next h => exact cargo_fill (gone (by simp [h]))

theorem cargo_ownCheckIn (hs : Loadable s) (t : Ticket) {q : Ref × Option Nat} (hq : ∀ n ∈ q.2, 20 ≤ n ∧ n ≤ 250)
    (ha : s.session = .alongside) : CargoLaw (ownCheckIn t q s) :=
  cargo_withUnit hs.cargo fun u hu => by
    split_ifs with hb
    · have hn := hs.reservations.not_occupant hu (by simp [hb])
      refine (orderly_handFresh _ rfl (by simpa using ha)).cargo ((steady_setCheckIn _ _).cargo ?_)
      refine Stacked.cargo (stacked_modUnit_other (fun _ => rfl) hn) (recordsFit_modUnit ?_ hs.records) hs.cargo
      rintro limit v - ⟨⟨hr, hl, hd⟩, hv⟩
      refine ⟨⟨hr, ?_, hd⟩, hv⟩
      cases hlen : q.2 with
      | none => exact hl
      | some n => exact hq n hlen
    · exact hs.cargo

/-! ## Through cargo -/

theorem recordsFit_placed (hs : RecordsFit s) {q : PlaceRequest} (hq : DeclaredInRange q.declared) :
    RecordsFit (s.addUnit (s.placedRecord q)) := recordsFit_addUnit hq rfl hs

/-- What the geometry test of PLACE says (R154). -/
theorem placeFits_spaced {q : PlaceRequest} (h : s.placeFits q = true) :
    (∀ o ∈ (s.lane q.lane).occupants, o.offset ≠ q.offset) ∧
      (∀ o ∈ s.innerNeighbour q.lane q.offset, o.offset + s.lengthOf o.ref + s.vessel.gap ≤ q.offset) ∧
      ∀ o ∈ s.outerNeighbour q.lane q.offset, q.offset + q.length + s.vessel.gap ≤ o.offset := by
  simp only [State.placeFits, Bool.and_eq_true, and_assoc] at h
  obtain ⟨-, hne, -, hin, hout⟩ := h
  refine ⟨by simpa using hne, fun o ho => ?_, fun o ho => ?_⟩
  · rw [Option.mem_def.1 ho] at hin; simpa using hin
  · rw [Option.mem_def.1 ho] at hout; simpa using hout

theorem cargo_placeUnit (hs : Loadable s) {q : PlaceRequest} (hq : DeclaredInRange q.declared)
    (hn : s.unit? q.ref = none) (hf : s.placeFits q = true)
    (hc : s.stb.load[(s.laneFixed q.lane).deck] + q.weight ≤ ((s.deckFixed (s.laneFixed q.lane).deck).cap : Int)) :
    CargoLaw (s.placeUnit q) := by
  obtain ⟨-, ha, hw⟩ := cargoLaw_iff.1 hs.cargo
  have hocc := hs.reservations.unknown_not_occupant hn
  have hadd : Stacked s (s.addUnit (s.placedRecord q)) := stacked_addUnit hocc
  obtain ⟨hne, hin, hout⟩ := placeFits_spaced hf
  have hself : (s.addUnit (s.placedRecord q)).lengthOf q.ref = q.length := by
    have hu : (s.addUnit (s.placedRecord q)).unit? q.ref = some (s.placedRecord q) := unitOf_addUnit_self s _ hn
    rw [State.lengthOf, hu]
    rfl
  have hlen : ∀ o ∈ (s.lane q.lane).occupants, (s.addUnit (s.placedRecord q)).lengthOf o.ref = s.lengthOf o.ref :=
    hadd.lengths q.lane
  unfold State.placeUnit
  refine (steady_refill _ _).cargo (cargo_addCommitted hc (cargoLaw_iff.2 ⟨recordsFit_placed hs.records hq, ?_, hw⟩))
  refine apart_setLane (((hadd.apart ha) q.lane).insert hne (fun o ho => ?_) fun o ho => ?_) fun k _ => hadd.apart ha k
  · rw [hlen o (List.mem_filter.1 (List.mem_of_mem_getLast? ho)).1]; exact hin o ho
  · rw [hself]; exact hout o ho

theorem cargo_ownPlace (hs : Loadable s) (t : Ticket) {q : PlaceRequest} (hq : DeclaredInRange q.declared) :
    CargoLaw (ownPlace t q s) := by
  unfold ownPlace
  split
  · exact hs.cargo
  · next h =>
    obtain ⟨hn, -, hf, hc⟩ := placeRefusal_eq_none s h
    exact cargo_fill (cargo_placeUnit hs hq hn hf hc)

/-- The outermost occupant's reference stands once in the lane (R25). -/
theorem ref_ne_of_mem_dropLast {os : List Occupant} {o : Occupant} {ref : Ref} (hnd : (os.map (·.ref)).Nodup)
    (hl : os.getLast?.map (·.ref) = some ref) (ho : o ∈ os.dropLast) : o.ref ≠ ref := by
  obtain ⟨last, hlast, rfl⟩ := Option.map_eq_some_iff.1 hl
  rw [← List.dropLast_append_getLast? last hlast, List.map_append] at hnd
  exact fun he => (List.nodup_append.1 hnd).2.2 _ (List.mem_map_of_mem ho) _ (by simp) he

theorem dischargeRefusal_eq_none {u : UnitRecord} {l : Lane} (h : s.dischargeRefusal u l = none) :
    (s.lane l).occupants.getLast?.map (·.ref) = some u.decl.ref := by
  unfold State.dischargeRefusal at h
  dsimp only at h
  split_ifs at h with h1 h2 h3
  exact not_not.1 h1

theorem cargo_dischargeUnit (hs : Loadable s) {u : UnitRecord} {l : Lane} {offset : Nat}
    (hu : s.unit? u.decl.ref = some u) (hl : u.lane = some l)
    (hlast : (s.lane l).occupants.getLast?.map (·.ref) = some u.decl.ref) : CargoLaw (s.dischargeUnit u l offset) := by
  unfold State.dischargeUnit
  have h1 := (steady_subCommitted s l u.weightUsed offset u.decl.length).cargo hs.cargo
  obtain ⟨hr, ha, hc⟩ := cargoLaw_iff.1 h1
  have h2 : CargoLaw ((s.subCommitted l u.weightUsed offset u.decl.length).setLane l
      { s.lane l with occupants := (s.lane l).occupants.dropLast }) :=
    cargoLaw_iff.2 ⟨hr, apart_setLane ((ha l).sublist (List.dropLast_sublist _)) fun k _ => ha k, hc⟩
  have h3 := steady_refill ((s.subCommitted l u.weightUsed offset u.decl.length).setLane l
      { s.lane l with occupants := (s.lane l).occupants.dropLast }) (s.laneFixed l).deck
  refine cargo_retire (fun k o ho => ?_) (h3.cargo h2)
  have ho' := h3.occupants k ▸ ho
  by_cases hk : k = l
  · subst hk
    exact ref_ne_of_mem_dropLast (hs.reservations.occupants_nodup k) hlast (by simpa using ho')
  · rw [State.lane_setLane_other _ _ hk] at ho'
    rintro he
    obtain ⟨v, hv, hvl, -⟩ := hs.reservations.occupant (l := k) (o := o) ho'
    rw [he, hu] at hv
    exact hk (Option.some.inj (hvl.symm.trans (Option.some.inj hv ▸ hl)))

theorem cargo_ownDischarge (hs : Loadable s) (t : Ticket) (ref : Ref) : CargoLaw (ownDischarge t ref s) :=
  cargo_withUnit hs.cargo fun u hu => by
    split
    · next l offset _ hl _ =>
      split
      · exact hs.cargo
      · next hd =>
        refine (steady_triggerWalk _).cargo (cargo_fill (cargo_dischargeUnit hs ?_ hl (dischargeRefusal_eq_none hd)))
        rw [unit_ref hu]; exact hu
    · exact hs.cargo

end Sys2Proof.Machine

namespace Sys2Proof.Machine

open Sys2Proof

variable {s : State}

/-! ## Sessions and loads -/

theorem lane_replicate_reset (l : Lane) : (Vector.replicate 96 LaneRun.reset)[l].occupants = [] := by
  simp [LaneRun.reset]

theorem load_reset (d : Deck) : Stability.reset.load[d] = 0 := by simp [Stability.reset]

theorem cargo_ownVesselOpen (hs : Loadable s) (t : Ticket) (x : Unit) : CargoLaw (ownVesselOpen t x s) := by
  have h (n : Nat) : CargoLaw ((((((s.setSession .alongside).setCheckIn []).setAgeing (some n)).setLanes
      (Vector.replicate 96 LaneRun.reset)).setStb Stability.reset).setAlc Allocator.reset) :=
    cargo_of_clear hs.records lane_replicate_reset load_reset
  unfold ownVesselOpen
  exact cargo_fill ((steady_forDecks _ fun d s => steady_freshDeck s d).cargo
    ((steady_forRamps _ fun r s => (steady_freshRamp s r).trans (steady_setPlate _ r _)).cargo (h _)))

theorem cargo_ownVesselRelease (hs : Loadable s) (t : Ticket) (x : Unit) : CargoLaw (ownVesselRelease t x s) := by
  obtain ⟨hl, hr⟩ := hs.records
  have h (p : UnitRecord → Bool) : CargoLaw (((((s.setSession .noVessel).setUnits (s.units.filter p)).setCheckIn []).setLanes
      (Vector.replicate 96 LaneRun.reset)).setStb Stability.reset) :=
    cargo_of_clear ⟨hl, fun v hv => hr v (List.mem_filter.1 hv).1⟩ lane_replicate_reset load_reset
  unfold ownVesselRelease
  exact cargo_fill ((steady_forRamps _ fun r s => steady_releaseRamp s r).cargo
    ((steady_forDecks _ fun d s => steady_releaseDeck s d).cargo (h _)))

/-- A new profile, none included, finds nothing aboard and nothing WAITING. -/
theorem cargo_of_new_profile {u : State} (hs : Loadable s) (ha : s.session ≠ .alongside) (hsec : s.session ≠ .secured)
    (hu : u.units = s.units) (ho : ∀ l, (u.lane l).occupants = (s.lane l).occupants) (hl : u.stb.load = s.stb.load)
    (hv : 1 ≤ u.vessel.ageLimit) : CargoLaw u := by
  have hb := hs.reservations.all_booked ha hsec
  refine cargo_of_clear (recordsFit_of_all_booked hs.records hb hu hv) (fun l => ?_) fun d => ?_
  · rw [ho, no_occupants_of_all_booked hs.reservations hb]
  · rw [hl]; exact no_load_of_all_booked hs.sums hb d

theorem cargo_ownProfileReload (hs : Loadable s) (t : Ticket) (x : Unit) (h : admits s.session .profileReload = true) :
    CargoLaw (ownProfileReload t x s) := by
  have hsession := admits_profileReload h
  unfold ownProfileReload
  split_ifs with hw
  · exact hs.cargo
  · have hne : s.session ≠ .alongside ∧ s.session ≠ .secured := by rcases hsession with e | e <;> simp [e]
    exact cargo_of_new_profile hs hne.1 hne.2 (by simp) (fun l => by simp [State.lane]) (by simp) (le_refl 1)

theorem one_le_ageLimit_of_loadImage {m : List Host.Cell} {count : Nat} :
    1 ≤ ((loadImage m count).profile.getD Profile.blank).vessel.ageLimit := by
  cases h : (loadImage m count).profile with
  | none => exact le_refl 1
  | some p =>
    have hv := loadImage_vessel_inRanges h
    simp only [Vessel.inRanges, Bool.and_eq_true, inRange_iff] at hv
    exact hv.1.2.1

theorem answerLoad_cargo_frame (s : State) :
    s.answerLoad.units = s.units ∧ s.answerLoad.lanes = s.lanes ∧ s.answerLoad.stb = s.stb ∧
      s.answerLoad.pst.shadow = s.pst.shadow := by
  unfold State.answerLoad
  split <;> exact ⟨rfl, rfl, rfl, rfl⟩

/-- A load's end touches neither records, lanes nor sums. -/
theorem endLoad_cargo_frame (s : State) (x : LoadResult) (gradA gradB : BitVec 8) (incl : BitVec 10) :
    let u := s.endLoad x gradA gradB incl
    u.units = s.units ∧ u.lanes = s.lanes ∧ u.stb = s.stb ∧ u.pst.shadow = x.profile := by
  by_cases hp : x.profile.isSome = true
  · rw [endLoad_of_profile s hp]
    obtain ⟨h1, h2, h3, h4⟩ :=
      answerLoad_cargo_frame (((s.loadedWith x .noVessel).takeSample gradA gradB incl).startSampling)
    dsimp only
    rw [h1, h2, h3, h4]
    refine ⟨?_, ?_, ?_, ?_⟩ <;> simp <;> rfl
  · rw [endLoad_of_no_profile s hp]
    exact answerLoad_cargo_frame (s.loadedWith x .noProfile)

theorem cargo_execLoadEnd (hs : Loadable s) {gradA gradB : BitVec 8} {incl : BitVec 10} {u : State}
    (h : execLoadEnd gradA gradB incl s = .next u) : CargoLaw u := by
  unfold execLoadEnd at h
  split at h
  · next hl =>
    refine cargo_finish ?_ h
    obtain ⟨hunits, hlanes, hstb, hshadow⟩ := endLoad_cargo_frame s (loadImage s.pst.mem s.freeCount) gradA gradB incl
    refine cargo_of_new_profile hs (by simp [hl]) (by simp [hl]) hunits (fun l => ?_) (by rw [hstb]) ?_
    · unfold State.lane; rw [hlanes]
    · unfold State.vessel State.profile; rw [hshadow]; exact one_le_ageLimit_of_loadImage
  · exact cargo_notNow hs.cargo h

theorem cargo_resetWith (rate : Nat) (mem : List Host.Cell) (q : List Instr) (n : Nat) :
    CargoLaw (State.resetWith rate mem q n) :=
  cargo_of_clear (s := State.resetWith rate mem q n) ⟨le_refl 1, fun _ hv => absurd hv List.not_mem_nil⟩
    lane_replicate_reset load_reset

theorem cargo_execHardwareReset {baud1 baud0 : Bool} {partsDone : Nat} {mix : List Byte} {u : State}
    (h : execHardwareReset baud1 baud0 partsDone mix s = .next u) : CargoLaw u :=
  cargo_finish (cargo_resetWith _ _ _ _) h

/-! ## The Allocator -/

theorem keepBetter_eq_or (best : Option (Lane × Score)) (x : Lane × Score) :
    keepBetter best x = best ∨ keepBetter best x = some x := by
  unfold keepBetter
  cases best with
  | none => exact .inr rfl
  | some b => dsimp only; split; exacts [.inr rfl, .inl rfl]

theorem foldl_keepBetter_mem (xs : List (Lane × Score)) (best : Option (Lane × Score)) :
    xs.foldl keepBetter best = best ∨ ∃ x ∈ xs, xs.foldl keepBetter best = some x := by
  induction xs generalizing best with
  | nil => exact .inl rfl
  | cons x xs ih =>
    rw [List.foldl_cons]
    rcases ih (keepBetter best x) with h | ⟨y, hy, h⟩
    · rcases keepBetter_eq_or best x with hb | hb
      · exact .inl (h.trans hb)
      · exact .inr ⟨x, .head _, h.trans hb⟩
    · exact .inr ⟨y, .tail _ hy, h⟩

/-- The chosen lane is one of those that were scored (R72). -/
theorem chooseLane_mem {xs : List (Lane × Score)} {l : Lane} (h : chooseLane xs = some l) : ∃ x, (l, x) ∈ xs := by
  obtain ⟨⟨k, x⟩, hk, rfl⟩ := Option.map_eq_some_iff.1 h
  rcases foldl_keepBetter_mem xs none with hn | ⟨y, hy, hs⟩
  · exact nomatch hn.symm.trans hk
  · exact ⟨x, Option.some.inj (hs.symm.trans hk) ▸ hy⟩

theorem test7_iff {w : Nat} {l : Lane} :
    s.test7 w l = true ↔ s.stb.load[(s.laneFixed l).deck] + w ≤ ((s.deckFixed (s.laneFixed l).deck).cap : Int) :=
  decide_eq_true_iff

/-- A placement's lane passes the deck test (R65, R69). -/
theorem test7_of_placementLane {u : UnitRecord} {former : Option Lane} {l : Lane}
    (h : s.placementLane u former = some l) : s.test7 u.decl.weight l = true := by
  obtain ⟨x, hx⟩ := chooseLane_mem h
  obtain ⟨k, -, hk⟩ := List.mem_filterMap.1 hx
  obtain ⟨y, hy, he⟩ := Option.map_eq_some_iff.1 hk
  cases he
  unfold State.admissible at hy
  split at hy
  · split at hy
    · cases hy
    · dsimp only at hy
      split at hy
      · next hc => exact (Bool.and_eq_true_iff.1 hc).1
      · cases hy
  · cases hy

/-- A redirect's lane passes the deck test with weight_used (R84). -/
theorem test7_of_redirectLane {u : UnitRecord} {q : Redirect} {l : Lane} (h : s.redirectLane u q = some l) :
    s.test7 q.weightUsed l = true := by
  obtain ⟨x, hx⟩ := chooseLane_mem h
  obtain ⟨k, -, hk⟩ := List.mem_filterMap.1 hx
  obtain ⟨y, hy, he⟩ := Option.map_eq_some_iff.1 hk
  cases he
  unfold State.redirectAdmissible at hy
  split at hy
  · dsimp only at hy
    split at hy
    · next hc =>
      obtain ⟨hc, -⟩ := Bool.and_eq_true_iff.1 hc
      exact (Bool.and_eq_true_iff.1 hc).2
    · cases hy
  · cases hy

theorem stowed_setAlc (s : State) (x : Allocator) : Stowed s (s.setAlc x) := { Stowed.refl s with }

theorem steady_promise (s : State) (ref : Ref) (l : Lane) :
    Steady s (s.modUnit ref fun u => { u with status := .waiting, lane := some l, age := 0, mark := false }) :=
  steady_modUnit s ref (fun _ => rfl) fun _ _ hl hv => hv.fresh hl rfl rfl

theorem cargo_reserve {u : UnitRecord} {l : Lane} (h : s.test7 u.decl.weight l = true) (hs : CargoLaw s) :
    CargoLaw (s.reserve u l) := by
  unfold State.reserve
  have h1 : CargoLaw (s.setLane l { s.lane l with reservations := (s.lane l).reservations ++ [u.decl.ref] }) :=
    Stowed.cargo (Steady.toStowed (steady_setLane s id rfl)) hs
  exact (steady_promise _ _ l).cargo ((steady_joinQueue _ _ _ _ _).cargo (cargo_addProvisional (test7_iff.1 h) h1))

theorem cargo_servePlacement {u : UnitRecord} {former : Option Lane} (hs : CargoLaw s) :
    CargoLaw (s.servePlacement u former) := by
  unfold State.servePlacement
  split
  · next h => exact cargo_reserve (test7_of_placementLane h) hs
  · exact (steady_failPlacement s _).cargo hs

theorem stowed_fill (s : State) (t : Ticket) (r : Reply) : Stowed s (s.fill t r) := stowed_modLink s _

theorem stowed_tellPlacement (s : State) (ref : Ref) (cause : Cause) : Stowed s (s.tellPlacement ref cause) := by
  cases cause with
  | checkIn t => exact stowed_fill s t _
  | present t => exact stowed_fill s t _
  | releaseHold t => exact stowed_fill s t _
  | reallocation former =>
    unfold State.tellPlacement
    dsimp only
    split
    · exact (steady_notify s _).toStowed
    · exact .refl s

theorem cargo_execPlacementServed (hs : CargoLaw s) {u : State} (h : execPlacementServed s = .next u) : CargoLaw u := by
  unfold execPlacementServed at h
  split at h
  · split at h
    · next rest _ =>
      have h1 := (stowed_setAlc s { s.alc with service := rest }).cargo hs
      dsimp only at h
      split at h
      · exact cargo_finish ((stowed_tellPlacement _ _ _).cargo (cargo_servePlacement h1)) h
      · exact cargo_finish ((stowed_tellPlacement _ _ _).cargo h1) h
    · exact cargo_notNow hs h
  · exact cargo_notNow hs h

theorem cargo_visit {u : UnitRecord} (hs : CargoLaw s) : CargoLaw (s.visit u) := by
  unfold State.visit
  split
  · next hl => exact cargo_reserve (test7_of_placementLane hl) ((steady_leaveUnplaced s _).cargo hs)
  · exact hs

theorem cargo_execWalkVisit (hs : CargoLaw s) {u : State} (h : execWalkVisit s = .next u) : CargoLaw u := by
  unfold execWalkVisit at h
  split at h
  · exact cargo_notNow hs h
  · next rest _ =>
    have h1 := (stowed_setAlc s { s.alc with walk := rest }).cargo hs
    dsimp only at h
    split at h
    · exact cargo_finish (cargo_visit h1) h
    · exact cargo_finish h1 h

/-- A unit that becomes ABOARD beyond the occupants, on a deck that bears it, keeps the cargo (R85, R136). -/
theorem cargo_board {u : UnitRecord} {l : Lane} {offset w : Nat} {x : CrossingResult} {b : Bool} (ht : Tall s)
    (ho : s.startPoint l ≤ offset)
    (hw : s.stb.load[(s.laneFixed l).deck] + w ≤ ((s.deckFixed (s.laneFixed l).deck).cap : Int)) (hs : CargoLaw s) :
    CargoLaw (s.board u l offset w x b) := by
  unfold State.board
  have h : CargoLaw ((s.joinOccupants l u.decl.ref offset).addCommitted l w offset u.decl.length) :=
    cargo_addCommitted hw (cargo_joinOccupants ht ho hs)
  exact (steady_refill _ _).cargo ((steady_writeCrossing _ _ _ _).cargo ((steady_aboard _ _ _ _).cargo h))

theorem cargo_serveRedirect {u : UnitRecord} {q : Redirect} (ht : Tall s) (hs : CargoLaw s) :
    CargoLaw (s.serveRedirect u q) := by
  unfold State.serveRedirect
  split
  · next l h =>
    exact (steady_notify _ _).cargo
      (cargo_board ht (startPoint_le_commitOffset s l _) (test7_iff.1 (test7_of_redirectLane h)) hs)
  · exact (steady_notify _ _).cargo ((steady_writeCrossing _ _ _ _).cargo
      ((steady_setStatus s _ (x := .held) nofun nofun).cargo hs))

theorem cargo_execRedirectSearch (ht : Tall s) (hs : CargoLaw s) {u : State} (h : execRedirectSearch s = .next u) :
    CargoLaw u := by
  unfold execRedirectSearch at h
  split at h
  · split at h
    · next rest _ =>
      have h1 := stowed_setAlc s { s.alc with service := rest }
      dsimp only at h
      split at h
      · exact cargo_finish (cargo_serveRedirect (h1.tall ht) (h1.cargo hs)) h
      · exact cargo_finish (h1.cargo hs) h
    · exact cargo_notNow hs h
  · exact cargo_notNow hs h

/-! ## Crossings -/

theorem subProvisional_load (s : State) (l : Lane) (w : Nat) :
    (s.subProvisional l w).stb.load[(s.laneFixed l).deck] = s.stb.load[(s.laneFixed l).deck] - w := by
  simp only [State.subProvisional, State.setStb_stb, getElem_addLoad, if_pos]
  rfl

/-- Once the promise is taken back, the commit test bounds the deck's load with weight_used (R135). -/
theorem load_of_commitPasses {r : Ramp} {p : Plate} {u : UnitRecord} {l : Lane} (h : s.commitPasses r p u l = true) :
    let v := (s.leaveLane l u.decl.ref).subProvisional l u.decl.weight
    v.stb.load[(v.laneFixed l).deck] + p.weightUsed u ≤ ((v.deckFixed (v.laneFixed l).deck).cap : Int) := by
  unfold State.commitPasses at h
  simp only [Bool.and_eq_true, decide_eq_true_eq] at h
  have hload := subProvisional_load (s.leaveLane l u.decl.ref) l u.decl.weight
  simp only [State.leaveLane_frame] at hload
  simp only [State.subProvisional_frame, State.leaveLane_frame, hload]
  exact h.1.2

theorem cargo_commit {r : Ramp} {p : Plate} {u : UnitRecord} {l : Lane} (ht : Tall s)
    (h : s.commitPasses r p u l = true) (hs : CargoLaw s) : CargoLaw (s.commit r p u l) := by
  have h1 : Steady s ((s.leaveLane l u.decl.ref).subProvisional l u.decl.weight) :=
    (steady_leaveLane s l _).trans (steady_subProvisional _ l _)
  have hb {x : CrossingResult} : CargoLaw (((s.leaveLane l u.decl.ref).subProvisional l u.decl.weight).board u l
      (s.commitOffset l u.decl.length) (p.weightUsed u) x false) :=
    cargo_board (h1.tall ht) (h1.startPoint l ▸ startPoint_le_commitOffset s l _) (load_of_commitPasses h) (h1.cargo hs)
  unfold State.commit
  dsimp only
  split
  · exact (steady_triggerWalk _).cargo ((steady_notify _ _).cargo hb)
  · exact (steady_notify _ _).cargo hb

theorem cargo_settle {r : Ramp} {p : Plate} {u : UnitRecord} (ht : Tall s) (hs : CargoLaw s) :
    CargoLaw (s.settle r p u) := by
  unfold State.settle
  split
  · split
    · next h => exact cargo_commit ht h hs
    · exact (steady_triggerWalk _).cargo ((steady_handItem _ rfl).cargo ((steady_release s _).cargo hs))
  · exact (steady_handItem s rfl).cargo hs

theorem cargo_execGapTimerExpiry {r : Ramp} (ht : Tall s) (hs : CargoLaw s) {u : State}
    (h : execGapTimerExpiry r s = .next u) : CargoLaw u := by
  unfold execGapTimerExpiry at h
  dsimp only at h
  split at h
  · have hc := steady_clearPlate s r
    split at h
    · next ref _ =>
      have hl := hc.trans (steady_leaveCalled _ r ref)
      split at h
      · exact cargo_finish ((steady_timeHead _ r).cargo (cargo_settle (hl.tall ht) (hl.cargo hs))) h
      · exact cargo_finish ((steady_timeHead _ r).cargo (hl.cargo hs)) h
    · exact cargo_finish ((steady_timeHead _ r).cargo ((steady_notify _ _).cargo (hc.cargo hs))) h
  · exact cargo_notNow hs h

/-! ## Ageing (R17 to R19)

Between the ageing and the lapses, the records that are about to lapse stand at the limit. -/

/-- `RecordsFit`, but that the WAITING units named may have reached the limit. -/
def RecordsFitBut (refs : List Ref) (s : State) : Prop :=
  1 ≤ s.vessel.ageLimit ∧ ∀ v ∈ s.units, DeclaredInRange v.decl ∧ v.age ≤ s.vessel.ageLimit ∧
    (v.status = .waiting → v.age < s.vessel.ageLimit ∨ v.decl.ref ∈ refs) ∧ (v.status = .booked → v.age = 0)

theorem recordsFitBut_nil : RecordsFitBut [] s ↔ RecordsFit s := by
  simp [RecordsFitBut, RecordsFit, RecordFits]

/-- An expiry leaves exactly the units that lapse at the limit (R18, R19). -/
theorem recordsFitBut_ageAll (h : RecordsFit s) : RecordsFitBut s.ageAll.lapsing s.ageAll := by
  obtain ⟨hl, hr⟩ := h
  refine ⟨hl, fun v hv => ?_⟩
  obtain ⟨w, hw, rfl⟩ := List.mem_map.1 hv
  obtain ⟨hd, ha, hwait, hb⟩ := hr w hw
  have hlimit : s.ageAll.vessel = s.vessel := rfl
  rw [hlimit]
  by_cases hc : w.status = .waiting ∧ w.mark = false
  · rw [if_pos hc] at hv ⊢
    have hlt := hwait hc.1
    refine ⟨hd, hlt, fun _ => ?_, fun e => by simp [hc.1] at e⟩
    by_cases he : w.age + 1 = s.vessel.ageLimit
    · refine .inr (List.mem_map.2 ⟨_, List.mem_filter.2 ⟨hv, ?_⟩, rfl⟩)
      simp [hc.1, hc.2, hlimit, he]
    · exact .inl (show w.age + 1 < _ by omega)
  · rw [if_neg hc]
    exact ⟨hd, ha, fun e => .inl (hwait e), hb⟩

theorem release_setUnits (s : State) (ref : Ref) :
    (s.release ref).units = s.units ∨
      (s.release ref).units = s.units.map fun v => if v.decl.ref == ref then { v with lane := none } else v := by
  unfold State.release
  split
  · exact .inl rfl
  · split
    · exact .inl rfl
    · exact .inr (by simp [State.modUnit])

/-- A release changes no more of a record than its lane. -/
theorem mem_release {ref : Ref} {v : UnitRecord} (h : v ∈ (s.release ref).units) :
    ∃ w ∈ s.units, v.decl = w.decl ∧ v.age = w.age ∧ v.status = w.status := by
  rcases release_setUnits s ref with e | e <;> rw [e] at h
  · exact ⟨v, h, rfl, rfl, rfl⟩
  · obtain ⟨w, hw, rfl⟩ := List.mem_map.1 h
    refine ⟨w, hw, ?_, ?_, ?_⟩ <;> split <;> rfl

theorem recordsFitBut_lapse {ref : Ref} {refs : List Ref} (h : RecordsFitBut (ref :: refs) s) :
    RecordsFitBut refs (s.lapse ref) := by
  obtain ⟨hl, hr⟩ := h
  have hvessel : (s.lapse ref).vessel = s.vessel := vessel_congr (steady_lapse s ref).shadow
  refine ⟨by rw [hvessel]; exact hl, fun v hv => ?_⟩
  rw [hvessel]
  obtain ⟨w, hw, rfl⟩ := List.mem_map.1 hv
  obtain ⟨x, hx, hd, ha, hst⟩ := mem_release hw
  obtain ⟨h1, h2, h3, h4⟩ := hr x hx
  rw [← hd, ← ha, ← hst] at *
  split
  · exact ⟨h1, h2, nofun, nofun⟩
  · next hne =>
    refine ⟨h1, h2, fun e => ?_, h4⟩
    rcases h3 e with hlt | hmem
    · exact .inl hlt
    · exact .inr ((List.mem_cons.1 hmem).resolve_left (by simpa using hne))

theorem recordsFit_foldl_lapse {refs : List Ref} (h : RecordsFitBut refs s) : RecordsFit (refs.foldl State.lapse s) := by
  induction refs generalizing s with
  | nil => exact recordsFitBut_nil.1 h
  | cons ref refs ih => exact ih (recordsFitBut_lapse h)

theorem stacked_ageAll (s : State) : Stacked s s.ageAll :=
  { Stacked.refl s with
    lengths := fun _ o _ => by
      have hf : ∀ u : UnitRecord,
          (if u.status = .waiting ∧ u.mark = false then { u with age := u.age + 1 } else u).decl = u.decl :=
        fun u => by split <;> rfl
      simp only [State.lengthOf, State.unit?, State.ageAll, State.setUnits_units, List.find?_map, Function.comp_def, hf]
      cases s.units.find? _ <;> simp [hf] }

theorem cargo_execAgeingExpiry (hs : CargoLaw s) {u : State} (h : execAgeingExpiry s = .next u) : CargoLaw u := by
  unfold execAgeingExpiry at h
  split at h
  · have hfit := recordsFit_foldl_lapse
      (recordsFitBut_ageAll (s := s.setAgeing (some s.agePeriodMs)) (cargoLaw_iff.1 hs).1)
    have hcargo := ((stacked_ageAll (s.setAgeing (some s.agePeriodMs))).trans
      (Steady.foldl steady_lapse ((s.setAgeing (some s.agePeriodMs)).ageAll).lapsing _).toStacked).cargo hfit hs
    refine cargo_finish ?_ h
    split
    · exact hcargo
    · exact (steady_triggerWalk _).cargo hcargo
  · exact cargo_notNow hs h

/-! ## Every step -/

theorem cargo_exec {c : Instr} {u : State} (hs : Loadable s) (h : exec c s = .next u) : CargoLaw u := by
  by_cases hc : restows c = false
  · exact (orderly_exec hc h).cargo hs.cargo
  cases c with
  | hardwareReset => exact cargo_execHardwareReset h
  | loadEnd => exact cargo_execLoadEnd hs h
  | vesselOpen => exact cargo_handle hs (fun t req _ hv _ _ => cargo_ownVesselOpen hv t req) h
  | vesselRelease => exact cargo_handle hs (fun t req _ hv _ _ => cargo_ownVesselRelease hv t req) h
  | book => exact cargo_handle hs (fun t _ _ hv ⟨_, hq⟩ _ => cargo_ownBook hv t (readDeclared_inRange hq)) h
  | amend => exact cargo_handle hs (fun t _ _ hv ⟨_, hq⟩ _ => cargo_ownAmend hv t (readAmend_inRange hq)) h
  | cancel => exact cargo_handle hs (fun t req _ hv _ _ => cargo_ownCancel hv t req) h
  | checkIn =>
    exact cargo_handle hs
      (fun t _ _ hv ⟨_, hq⟩ ha => cargo_ownCheckIn hv t (readCheckIn_inRange hq) (admits_checkIn ha)) h
  | place => exact cargo_handle hs (fun t _ _ hv ⟨_, hq⟩ _ => cargo_ownPlace hv t (readPlace_inRange hq)) h
  | discharge => exact cargo_handle hs (fun t req _ hv _ _ => cargo_ownDischarge hv t req) h
  | profileReload => exact cargo_handle hs (fun t req _ hv _ ha => cargo_ownProfileReload hv t req ha) h
  | placementServed => exact cargo_execPlacementServed hs.cargo h
  | walkVisit => exact cargo_execWalkVisit hs.cargo h
  | redirectSearch => exact cargo_execRedirectSearch hs.tall hs.cargo h
  | ageingExpiry => exact cargo_execAgeingExpiry hs.cargo h
  | gapTimerExpiry => exact cargo_execGapTimerExpiry hs.tall hs.cargo h
  | _ => exact absurd rfl hc

theorem cargo_step {u : State} (hs : Loadable s) (h : step s = .next u) : CargoLaw u := by
  obtain rfl | ⟨c, q, hc⟩ := step_next h
  · exact hs.cargo
  · exact cargo_exec (s := s.setPending q) ⟨hs.reservations, hs.sums, hs.cargo⟩ hc

/-- Settles O54: memory and Unit Table by `Keeps`, the cargo by what each command leaves of occupants, loads and records. -/
theorem tablesKeepTheirForm : Obligations.TablesKeepTheirForm := by
  unfold Obligations.TablesKeepTheirForm
  exact ⟨fun _ _ hs h => (keeps_step h).memory hs, fun _ _ hs h => (keeps_step h).table hs,
    fun _ _ hr hm hc h => cargo_step ⟨hr, hm, hc⟩ h⟩

end Sys2Proof.Machine

namespace Sys2Proof.Machine

open Sys2Proof

/-! ## Frames (what an operation leaves alone) -/

theorem OnlyChanges.refl (bs : List Block) (s : State) : OnlyChanges bs s s := fun b _ => by
  cases b <;> rfl

theorem OnlyChanges.mono {bs cs : List Block} {s u : State} (h : OnlyChanges bs s u) (hb : bs ⊆ cs) :
    OnlyChanges cs s u := fun b hc => h b fun hm => hc (hb hm)

theorem OnlyChanges.trans {bs : List Block} {s t u : State} (h : OnlyChanges bs s t) (k : OnlyChanges bs t u) :
    OnlyChanges bs s u := fun b hb => by
  have h' := h b hb
  have k' := k b hb
  cases b <;> exact Eq.trans k' h'

theorem onlyChanges_modLink (s : State) (f : Link → Link) : OnlyChanges [.link] s (s.modLink f) := fun b hb => by
  cases b with
  | link => simp at hb
  | _ => rfl

theorem onlyChanges_setUnits (s : State) (us : List UnitRecord) : OnlyChanges [.units] s (s.setUnits us) := fun b hb => by
  cases b with
  | units => simp at hb
  | _ => rfl

theorem onlyChanges_modUnit (s : State) (ref : Ref) (f : UnitRecord → UnitRecord) :
    OnlyChanges [.units] s (s.modUnit ref f) := onlyChanges_setUnits s _

theorem onlyChanges_setStatus (s : State) (ref : Ref) (x : Status) : OnlyChanges [.units] s (s.setStatus ref x) :=
  onlyChanges_modUnit s ref _

theorem onlyChanges_setCheckIn (s : State) (rs : List Ref) : OnlyChanges [.checkIn] s (s.setCheckIn rs) := fun b hb => by
  cases b with
  | checkIn => simp at hb
  | _ => rfl

theorem onlyChanges_setAlc (s : State) (x : Allocator) : OnlyChanges [.alc] s (s.setAlc x) := fun b hb => by
  cases b with
  | alc => simp at hb
  | _ => rfl

theorem onlyChanges_setRamp (s : State) (r : Ramp) (x : RampRun) : OnlyChanges [.ramp r] s (s.setRamp r x) :=
  fun b hb => by
  cases b with
  | ramp q => exact State.ramp_setRamp_other s x (by simpa using hb)
  | _ => rfl

theorem onlyChanges_retire (s : State) (ref : Ref) : OnlyChanges [.units, .checkIn] s (s.retire ref) :=
  .trans ((onlyChanges_setUnits s _).mono (by simp)) ((onlyChanges_setCheckIn _ _).mono (by simp))

theorem onlyChanges_notify (s : State) (n : Notice) : OnlyChanges [.link] s (s.notify n) := by
  unfold State.notify
  split
  · exact onlyChanges_modLink s _
  · exact onlyChanges_modLink s _

theorem onlyChanges_triggerWalk (s : State) : OnlyChanges [.alc] s s.triggerWalk := by
  unfold State.triggerWalk
  split
  · exact .refl _ s
  · exact onlyChanges_setAlc s _

theorem onlyChanges_leaveUnplaced (s : State) (ref : Ref) : OnlyChanges [.alc] s (s.leaveUnplaced ref) :=
  onlyChanges_setAlc s _

theorem onlyChanges_leaveCalled (s : State) (r : Ramp) (ref : Ref) : OnlyChanges [.ramp r] s (s.leaveCalled r ref) := by
  unfold State.leaveCalled
  dsimp only
  split
  · exact .trans (onlyChanges_setRamp s r _) (onlyChanges_setRamp _ r _)
  · exact onlyChanges_setRamp s r _

theorem onlyChanges_handItem (s : State) (x : Item) : OnlyChanges [.alc] s (s.handItem x) := onlyChanges_setAlc s _

theorem onlyChanges_handFresh (s : State) (ref : Ref) (cause : Cause) :
    OnlyChanges [.units, .alc] s (s.handFresh ref cause) :=
  .trans ((onlyChanges_modUnit s ref _).mono (by simp)) ((onlyChanges_handItem _ _).mono (by simp))

/-- A frame that is taken and a slot that is filled change the link alone. -/
theorem onlyChanges_fill {s v : State} {f : Frame} {rest : List Frame} {bs : List Block} (t : Ticket) (r : Reply)
    (hb : Block.link ∈ bs) (h : OnlyChanges bs (s.taken f rest) v) : OnlyChanges bs s (v.fill t r) :=
  have hl : [Block.link] ⊆ bs := by simpa using hb
  .trans (.trans ((onlyChanges_modLink s _).mono hl) h) ((onlyChanges_modLink v _).mono hl)

/-! ## Answers on the link -/

/-- A request that is answered after nothing else touched the link, besides what else holds. -/
theorem answered_of_link {s v : State} {f : Frame} {rest : List Frame} {r : Reply} {p : Prop}
    (h : v.link = (s.taken f rest).link) (hp : p) :
    Replied s (v.fill f.ticket r) f rest r ∧ NoNews s (v.fill f.ticket r) ∧ p :=
  ⟨replied_of_fill r (onlyNews_of_link h), by simp [NoNews, fill_link, h, State.taken, State.modLink], hp⟩

/-- A request that waits for its answer after nothing else touched the link, besides what else holds. -/
theorem awaited_of_link {s v : State} {f : Frame} {rest : List Frame} {p : Prop}
    (h : v.link = (s.taken f rest).link) (hp : p) : Awaited s v f rest ∧ NoNews s v ∧ p := by
  refine ⟨⟨?_, ?_, ?_, ?_⟩, ?_, hp⟩ <;> simp [NoNews, h, State.taken, State.modLink]

/-- What an answer leaves that nothing else comes with. -/
theorem filled_outcome (s : State) (f : Frame) (rest : List Frame) (r : Reply) :
    Replied s ((s.taken f rest).fill f.ticket r) f rest r ∧ NoNews s ((s.taken f rest).fill f.ticket r) ∧
      OnlyChanges [.link] s ((s.taken f rest).fill f.ticket r) :=
  answered_of_link rfl (onlyChanges_fill _ _ (by simp) (.refl _ _))

/-- What every refusal leaves (R171, R175). -/
theorem refused_outcome (s : State) (f : Frame) (rest : List Frame) (r : Result) :
    Replied s ((s.taken f rest).refuse f.ticket r) f rest (.refused r) ∧
      NoNews s ((s.taken f rest).refuse f.ticket r) ∧ OnlyChanges [.link] s ((s.taken f rest).refuse f.ticket r) :=
  filled_outcome s f rest (.refused r)

/-! ## Changes of one record (R9, R20, R90) -/

theorem UnitBecomes.trans {s t u : State} {ref : Ref} {v w : UnitRecord} (h : UnitBecomes s t ref v)
    (k : UnitBecomes t u ref w) : UnitBecomes s u ref w :=
  ⟨k.1, fun r hr => (k.2 r hr).trans (h.2 r hr)⟩

theorem UnitBecomes.of_eq {s t u : State} {ref : Ref} {v : UnitRecord} (h : UnitBecomes s t ref v)
    (e : ∀ r, u.unit? r = t.unit? r) : UnitBecomes s u ref v :=
  ⟨(e ref).trans h.1, fun r hr => (e r).trans (h.2 r hr)⟩

/-- A record that is one of the others at first, and then retired. -/
theorem UnitBecomes.retired {s t u : State} {ref : Ref} {v : UnitRecord} (h : UnitBecomes s t ref v)
    (hc : t.checkIn = s.checkIn) (k : Retired t u ref) : Retired s u ref := by
  obtain ⟨hnone, hother, hlist⟩ := k
  exact ⟨hnone, fun r hr => (hother r hr).trans (h.2 r hr), by rw [hlist, hc]⟩

theorem unitBecomes_modUnit {s : State} {ref : Ref} {v : UnitRecord} (hu : s.unit? ref = some v)
    (g : UnitRecord → UnitRecord) (hg : KeepsRef g) : UnitBecomes s (s.modUnit ref g) ref (g v) :=
  ⟨by rw [unitOf_modUnit_self s ref g hg, hu]; rfl, fun _ hr => unitOf_modUnit_other s g hg hr⟩

theorem unitBecomes_setStatus {s : State} {ref : Ref} {v : UnitRecord} (x : Status) (hu : s.unit? ref = some v) :
    UnitBecomes s (s.setStatus ref x) ref { v with status := x } :=
  unitBecomes_modUnit hu (fun u => { u with status := x }) fun _ => rfl

/-- The hand-over writes the classification and the mark (R6, R90). -/
theorem unitBecomes_handFresh {s : State} {ref : Ref} {v : UnitRecord} (cause : Cause) (hu : s.unit? ref = some v) :
    UnitBecomes s (s.handFresh ref cause) ref { v with cls := s.classification v, mark := true } :=
  unitBecomes_modUnit hu (fun u => { u with cls := s.classification u, mark := true }) fun _ => rfl

/-- A declared part that carries the record's own reference replaces the record's (R9). -/
theorem unitBecomes_amend {s : State} {ref : Ref} {d : Declared} {v : UnitRecord} (hd : d.ref = ref)
    (hu : s.unit? ref = some v) : UnitBecomes s (s.modUnit ref fun u => { u with decl := d }) ref { v with decl := d } := by
  rw [modUnit_decl_eq s hd]
  refine ⟨(unitOf_modUnit_self s ref _ ?_).trans ?_, fun r hr => unitOf_modUnit_other s _ (fun _ => rfl) hr⟩
  · exact fun _ => rfl
  · rw [hu, Option.map_some, unit_ref hu, ← hd]

/-! ## What a later operation leaves of an effect -/

theorem triggerWalk_lists (s : State) :
    s.triggerWalk.alc.unplaced = s.alc.unplaced ∧ s.triggerWalk.alc.walk = s.alc.walk := by
  unfold State.triggerWalk
  split <;> exact ⟨rfl, rfl⟩

theorem WalkAsked.of_eq {s t u : State} (h : WalkAsked t u) (e : t.alc = s.alc) : WalkAsked s u := by
  unfold WalkAsked at *; rw [h, e]

theorem LaneLeft.of_eq {s t u : State} {l : Lane} {ref : Ref} (h : LaneLeft s t l ref) (e : u.lane l = t.lane l) :
    LaneLeft s u l ref := e.trans h

theorem SumsLeft.of_eq {s t u : State} {l : Lane} {w : Nat} (h : SumsLeft s t l w) (e : u.stb = t.stb) :
    SumsLeft s u l w := e.trans h

theorem QueueLeft.of_eq {s t u : State} {r : Ramp} {ref : Ref} (h : QueueLeft s t r ref) (e : u.ramp r = t.ramp r)
    (k : u.link.flags = t.link.flags) : QueueLeft s u r ref := ⟨e.trans h.1, k.trans h.2⟩

/-! ## The lookup of a request that names a unit (R6, R7) -/

variable {s : State} {f : Frame} {rest : List Frame} {ref : Ref} {v : UnitRecord}

theorem withUnit_unknown (b : Bool) (t : Ticket) (go : UnitRecord → State) (h : s.unit? ref = none) :
    s.withUnit b t ref go = s.refuse t .unknownUnit := by simp [State.withUnit, h]

theorem withUnit_marked (t : Ticket) (go : UnitRecord → State) (h : s.unit? ref = some v) (hm : v.mark = true) :
    s.withUnit true t ref go = s.refuse t .busy := by simp [State.withUnit, h, hm]

theorem withUnit_found {b : Bool} (t : Ticket) (go : UnitRecord → State) (h : s.unit? ref = some v)
    (hm : b = true → v.mark = false) : s.withUnit b t ref go = go v := by
  cases b with
  | false => simp [State.withUnit, h]
  | true => simp [State.withUnit, h, hm rfl]

/-- What an owner does with the record it has looked up, in the state that the handler left. -/
def AnswersStatus (k : RequestKind) (s : State) (f : Frame) (rest : List Frame) (go : UnitRecord → State) : Prop :=
  ∀ (v : UnitRecord) (r : Result), (∀ q, k = .amend → readAmend s f.payload = some q → q.2.ref = q.1) →
    statusRefusal k v.status = some r → go v = (s.taken f rest).refuse f.ticket r

/-- A request that carries a reference alone, and whose unit's deck the mask reads, is its owner's (R174). -/
theorem handle_of_readRef {k : RequestKind} {owner : Ticket → Ref → State → State}
    (hm : maskDeck k s f.payload = (readRef s f.payload).bind (deckOfRef s)) (hn : readRef s f.payload = some ref)
    (hh : Handed k (maskDeck k s f.payload) s f rest) :
    handle k readRef deckOfRef owner s = .next (owner f.ticket ref (s.taken f rest)).startTx :=
  handle_of_handed hh hn (by rw [hm, hn]; rfl)

/-- A request that names a unit looks it up first, and then, but for AMEND's references, reads its status (R7). -/
theorem exec_of_unitNamed {c : Instr} {k : RequestKind} (hc : requestOf c = some k)
    (hn : unitNamed k s f.payload = some ref) (hh : Handed k (maskDeck k s f.payload) s f rest) :
    ∃ go, exec c s = .next ((s.taken f rest).withUnit (busyWhenMarked k) f.ticket ref go).startTx ∧
      AnswersStatus k s f rest go := by
  cases c with
  | amend =>
    cases hc
    obtain ⟨q, hq, rfl⟩ := Option.map_eq_some_iff.1 hn
    refine ⟨_, handle_of_handed hh hq rfl, fun v r ha hr => ?_⟩
    have href := ha q rfl hq
    cases hs : v.status <;> simp_all [statusRefusal]
  | checkIn =>
    cases hc
    obtain ⟨q, hq, rfl⟩ := Option.map_eq_some_iff.1 hn
    refine ⟨_, handle_of_handed hh hq rfl, fun v r _ hr => ?_⟩
    cases hs : v.status <;> simp_all [statusRefusal]
  | cancel =>
    cases hc
    refine ⟨_, handle_of_handed hh hn rfl, fun v r _ hr => ?_⟩
    cases hs : v.status <;> simp_all [statusRefusal]
  | present =>
    cases hc
    refine ⟨_, handle_of_readRef rfl hn hh, fun v r _ hr => ?_⟩
    cases hs : v.status <;> simp_all [statusRefusal]
  | holdUnit =>
    cases hc
    refine ⟨_, handle_of_readRef rfl hn hh, fun v r _ hr => ?_⟩
    cases hs : v.status <;> simp_all [statusRefusal]
  | releaseHold =>
    cases hc
    refine ⟨_, handle_of_handed hh hn rfl, fun v r _ hr => ?_⟩
    cases hs : v.status <;> simp_all [statusRefusal]
  | discharge =>
    cases hc
    refine ⟨_, handle_of_readRef rfl hn hh, fun v r _ hr => ?_⟩
    cases hs : v.status <;> simp_all [statusRefusal]
  | skip =>
    cases hc
    refine ⟨_, handle_of_readRef rfl hn hh, fun v r _ hr => ?_⟩
    cases hs : v.status <;> simp_all [statusRefusal]
  | queryUnit =>
    cases hc
    exact ⟨_, handle_of_readRef rfl hn hh, fun v r _ hr => by cases hr⟩
  | _ => cases hc <;> cases hn

end Sys2Proof.Machine

namespace Sys2Proof.Machine

open Sys2Proof

/-! ## Refusals by lookup and status (R6, R7) -/

/-- Settles O5: the lookup refuses before anything else is done. -/
theorem unknownOrMarkedUnitIsRefused : Obligations.UnknownOrMarkedUnitIsRefused := by
  unfold Obligations.UnknownOrMarkedUnitIsRefused
  refine ⟨fun c k s f rest ref hc hn hh hu => ?_, fun c k s f rest ref v hc hb hn hh hu hm => ?_⟩
  · obtain ⟨go, hx, -⟩ := exec_of_unitNamed hc hn hh
    rw [withUnit_unknown (s := s.taken f rest) _ _ _ hu] at hx
    exact ⟨_, hx, refused_outcome s f rest .unknownUnit⟩
  · obtain ⟨go, hx, -⟩ := exec_of_unitNamed hc hn hh
    rw [hb, withUnit_marked (s := s.taken f rest) _ _ hu hm] at hx
    exact ⟨_, hx, refused_outcome s f rest .busy⟩

/-- Settles O6: the owner's table of statuses refuses. -/
theorem statusRefusesRequests : Obligations.StatusRefusesRequests := by
  unfold Obligations.StatusRefusesRequests
  intro c k s f rest ref v r hc hn hh hu hm ha hr
  obtain ⟨go, hx, hgo⟩ := exec_of_unitNamed hc hn hh
  rw [withUnit_found (s := s.taken f rest) _ _ hu hm, hgo v r ha hr] at hx
  exact ⟨_, hx, refused_outcome s f rest r⟩

/-! ## BOOK and AMEND (R8, R9) -/

/-- Settles O7: the checks in order, and the record entered. -/
theorem bookCreatesTheRecord : Obligations.BookCreatesTheRecord := by
  unfold Obligations.BookCreatesTheRecord
  refine ⟨fun s f rest d hh hq hu hlen => ?_, fun s f rest d hh hq hfull => ?_⟩
  · have hnew : (s.taken f rest).unit? d.ref = none := hu
    have hown : ownBook f.ticket d (s.taken f rest) = ((s.taken f rest).addUnit d.booked).fill f.ticket .done := by
      have hfree : (s.taken f rest).tableFull = false := decide_eq_false (not_le.2 hlen)
      simp [ownBook, hnew, hfree]
    refine ⟨_, handle_of_handed hh hq rfl, ?_⟩
    rw [hown]
    exact answered_of_link rfl
      ⟨⟨unitOf_addUnit_self _ d.booked hnew, fun r hr => unitOf_addUnit_other _ d.booked hr⟩, length_insertUnit _ _,
        onlyChanges_fill _ _ (by simp) ((onlyChanges_setUnits _ _).mono (by simp))⟩
  · have hown : ownBook f.ticket d (s.taken f rest) =
        (s.taken f rest).refuse f.ticket (if s.unit? d.ref = none then .tableFull else .duplicate) := by
      by_cases hu : s.unit? d.ref = none
      · have hnew : (s.taken f rest).unit? d.ref = none := hu
        have hfree : (s.taken f rest).tableFull = true := decide_eq_true (hfull.resolve_left (not_not.2 hu))
        simp [ownBook, hnew, hu, hfree]
      · simp [ownBook, hu]
    refine ⟨_, handle_of_handed hh hq rfl, ?_⟩
    rw [hown]
    exact refused_outcome s f rest _

/-- Settles O8: the references are compared, then the declared part is replaced. -/
theorem amendReplacesTheDeclaredPart : Obligations.AmendReplacesTheDeclaredPart := by
  unfold Obligations.AmendReplacesTheDeclaredPart
  intro s f rest ref d v hh hq hu hm
  have hx : exec .amend s = .next (ownAmend f.ticket (ref, d) (s.taken f rest)).startTx := handle_of_handed hh hq rfl
  unfold ownAmend at hx
  rw [withUnit_found (s := s.taken f rest) _ _ hu fun _ => hm] at hx
  refine ⟨fun hd hb => ?_, fun hd => ?_⟩
  · simp only [hd, ne_eq, not_true, if_false, hb, if_true] at hx
    exact ⟨_, hx, answered_of_link rfl ⟨unitBecomes_amend (s := s.taken f rest) hd hu,
      onlyChanges_fill _ _ (by simp) ((onlyChanges_modUnit _ _ _).mono (by simp))⟩⟩
  · simp only [ne_eq, hd, not_false_eq_true, if_true] at hx
    exact ⟨_, hx, refused_outcome s f rest .badField⟩

/-! ## CANCEL (R10, R20) -/

/-- The lookup of a request that carries a reference alone and names no deck for the mask. -/
theorem owner_of_found {s : State} {f : Frame} {rest : List Frame} {ref : Ref} {v : UnitRecord} {go : UnitRecord → State}
    (hu : s.unit? ref = some v) (hm : v.mark = false) :
    (s.taken f rest).withUnit true f.ticket ref go = go v :=
  withUnit_found (s := s.taken f rest) _ _ hu fun _ => hm

/-- A record that holds no reservation is retired (R10). -/
theorem cancel_unreserved {s : State} {f : Frame} {rest : List Frame} {ref : Ref} (w : State)
    (hw : w.link = (s.taken f rest).link) (hunits : ∀ r, w.unit? r = s.unit? r) (hlist : w.checkIn = s.checkIn)
    (hframe : OnlyChanges [.alc] (s.taken f rest) w) :
    let u := (w.retire ref).fill f.ticket .done
    Replied s u f rest .done ∧ NoNews s u ∧ Retired s u ref ∧ OnlyChanges [.link, .units, .checkIn, .alc] s u := by
  obtain ⟨hnone, hother, hcheck⟩ := retired_retire w ref
  exact answered_of_link hw
    ⟨⟨hnone, fun r hr => (hother r hr).trans (hunits r), hcheck.trans (by rw [hlist])⟩,
      onlyChanges_fill _ _ (by simp) (.trans (hframe.mono (by simp)) ((onlyChanges_retire w ref).mono (by simp)))⟩

/-- What the release of a WAITING unit's reservation leaves when a change of its record, the trigger of a walk and the
answer follow (R10, R15, R77). -/
theorem release_then_walk {s x : State} {f : Frame} {rest : List Frame} {ref : Ref} {v : UnitRecord} {l : Lane}
    (hu : s.unit? ref = some v) (hl : v.lane = some l)
    (hq : ref ∈ (s.ramp (s.laneFixed l).ramp).prio ∨ ref ∈ (s.ramp (s.laneFixed l).ramp).ord)
    (hx : OnlyChanges [.units, .checkIn] ((s.taken f rest).release ref) x) :
    let u := x.triggerWalk.fill f.ticket .done
    Replied s u f rest .done ∧ Notified s u [] ∧ LaneLeft s u l ref ∧ SumsLeft s u l v.decl.weight ∧
      QueueLeft s u (s.laneFixed l).ramp ref ∧ WalkAsked s u ∧ u.alc.unplaced = s.alc.unplaced ∧
      u.alc.walk = s.alc.walk := by
  have hu' : (s.taken f rest).unit? ref = some v := hu
  obtain ⟨hlane, hsums, hqueue, -⟩ := release_waiting hu' hl hq
  have hnews := release_onlyNews (s.taken f rest) ref
  obtain ⟨hnot, hsticky⟩ := release_notices (s.taken f rest) ref
  have hlink : x.link = ((s.taken f rest).release ref).link := hx .link (by simp)
  have halc : x.alc = s.alc := Eq.trans (hx .alc (by simp)) (by simp)
  obtain ⟨hunplaced, hwalk⟩ := triggerWalk_lists x
  have hlink' : x.triggerWalk.link = x.link := by simp
  have hfill (r : Reply) : (x.triggerWalk.fill f.ticket r).link.notices = x.triggerWalk.link.notices ∧
      (x.triggerWalk.fill f.ticket r).link.sticky = x.triggerWalk.link.sticky ∧
      (x.triggerWalk.fill f.ticket r).link.flags = x.triggerWalk.link.flags := ⟨rfl, rfl, rfl⟩
  obtain ⟨hn, hst, hfl⟩ := hfill .done
  rw [hlink', hlink] at hn hst hfl
  refine ⟨replied_of_fill _ (hnews.trans (onlyNews_of_link (hlink'.trans hlink))), notified_nil (hn.trans hnot)
    (hst.trans hsticky), LaneLeft.of_eq (s := s) hlane ?_, SumsLeft.of_eq (s := s) hsums ?_,
    QueueLeft.of_eq (s := s) hqueue ?_ hfl, (walkAsked_triggerWalk x).of_eq halc, ?_, ?_⟩
  · simpa [sameBlock] using hx (.lane l) (by simp)
  · simpa [sameBlock] using hx .stb (by simp)
  · simpa [sameBlock] using hx (.ramp (s.laneFixed l).ramp) (by simp)
  · exact hunplaced.trans (by rw [halc])
  · exact hwalk.trans (by rw [halc])

/-- Settles O9: the record is retired, and a WAITING unit's reservation is released before. -/
theorem cancelRetiresTheUnit : Obligations.CancelRetiresTheUnit := by
  unfold Obligations.CancelRetiresTheUnit
  refine ⟨fun s f rest ref v hh hq hu hm hs => ?_, fun s f rest ref v l hh hq hu hm hs hl hqueue => ?_⟩
  · have hx : exec .cancel s = .next (ownCancel f.ticket ref (s.taken f rest)).startTx := handle_of_handed hh hq rfl
    unfold ownCancel at hx
    rw [owner_of_found hu hm] at hx
    by_cases hun : v.status = .unplaced
    · obtain ⟨hreplied, hnews, hretired, hframe⟩ := cancel_unreserved (s := s) (f := f) (rest := rest) (ref := ref)
        ((s.taken f rest).leaveUnplaced ref) rfl (fun _ => rfl) rfl (onlyChanges_leaveUnplaced _ _)
      simp only [hun] at hx
      exact ⟨_, hx, hreplied, hnews, hretired, rfl, by simp [hun]; rfl, hframe⟩
    · obtain ⟨hreplied, hnews, hretired, hframe⟩ := cancel_unreserved (s := s) (f := f) (rest := rest) (ref := ref)
        (s.taken f rest) rfl (fun _ => rfl) rfl (.refl _ _)
      have hx' : exec .cancel s = .next (((s.taken f rest).retire ref).fill f.ticket .done).startTx := by
        rcases hs with e | e | e | e | e
        any_goals simpa only [e] using hx
        exact absurd e hun
      exact ⟨_, hx', hreplied, hnews, hretired, rfl, by rw [if_neg hun]; rfl, hframe⟩
  · have hx : exec .cancel s = .next (ownCancel f.ticket ref (s.taken f rest)).startTx := handle_of_handed hh hq rfl
    unfold ownCancel at hx
    rw [owner_of_found hu hm] at hx
    simp only [hs] at hx
    obtain ⟨-, -, -, hrec, hframe⟩ := release_waiting (s := s.taken f rest) hu hl hqueue
    obtain ⟨hreplied, hnotified, hlane, hsums, hqueued, hasked, hunplaced, hwalk⟩ := release_then_walk hu hl hqueue (onlyChanges_retire _ ref)
    obtain ⟨hnone, hother, hlist⟩ := hrec.retired (by simp) (retired_retire ((s.taken f rest).release ref) ref)
    refine ⟨_, hx, hreplied, hnotified, ⟨?_, fun r hr => ?_, ?_⟩, hlane, hsums, hqueued, hasked, hunplaced, hwalk, ?_⟩
    · simpa using hnone
    · simpa using hother r hr
    · simpa using hlist
    · refine onlyChanges_fill (f := f) (rest := rest) _ _ (by simp) (.trans (hframe.mono (by simp)) (.trans
        ((onlyChanges_retire _ ref).mono (by simp)) ((onlyChanges_triggerWalk _).mono (by simp))))

/-! ## CHECK_IN, PRESENT, RELEASE_HOLD (R11 to R16) -/

/-- Settles O10: CHECK_IN's and RELEASE_HOLD's changes of the record, and the hand-over. -/
theorem checkInAndReleaseHoldHandTheUnitOver : Obligations.CheckInAndReleaseHoldHandTheUnitOver := by
  unfold Obligations.CheckInAndReleaseHoldHandTheUnitOver
  refine ⟨fun s f rest ref length v hh hq hu hm hs => ?_, fun s f rest ref v hh hq hu hm hs => ?_⟩
  · have hx : exec .checkIn s = .next (ownCheckIn f.ticket (ref, length) (s.taken f rest)).startTx :=
      handle_of_handed hh hq rfl
    unfold ownCheckIn at hx
    rw [owner_of_found hu hm] at hx
    simp only [hs, if_true] at hx
    have hrec := unitBecomes_modUnit (s := s.taken f rest) hu (fun u =>
      { u with decl := { u.decl with length := length.getD u.decl.length }, gate := some f.ticket.stn.toNat })
      fun _ => rfl
    refine ⟨_, hx, awaited_of_link rfl
      ⟨hrec.trans (unitBecomes_handFresh (.checkIn f.ticket) hrec.1), rfl, rfl, ?_⟩⟩
    exact .trans ((onlyChanges_modLink s _).mono (by simp)) (.trans ((onlyChanges_modUnit _ _ _).mono (by simp))
      (.trans ((onlyChanges_setCheckIn _ _).mono (by simp)) ((onlyChanges_handFresh _ _ _).mono (by simp))))
  · have hx : exec .releaseHold s = .next (ownReleaseHold f.ticket ref (s.taken f rest)).startTx :=
      handle_of_handed hh hq rfl
    unfold ownReleaseHold at hx
    rw [owner_of_found hu hm] at hx
    simp only [hs, if_true] at hx
    have hrec := unitBecomes_modUnit (s := s.taken f rest) hu (fun u => { u with noShow := 0 }) fun _ => rfl
    refine ⟨_, hx, awaited_of_link rfl
      ⟨hrec.trans (unitBecomes_handFresh (.releaseHold f.ticket) hrec.1), rfl, ?_⟩⟩
    exact .trans ((onlyChanges_modLink s _).mono (by simp)) (.trans ((onlyChanges_modUnit _ _ _).mono (by simp))
      ((onlyChanges_handFresh _ _ _).mono (by simp)))

/-- Settles O11: the age of a WAITING unit, the hand-over of a LAPSED one. -/
theorem presentConfirmsOrReturnsAUnit : Obligations.PresentConfirmsOrReturnsAUnit := by
  unfold Obligations.PresentConfirmsOrReturnsAUnit
  intro s f rest ref v hh hq hu hm
  have hx : exec .present s = .next (ownPresent f.ticket ref (s.taken f rest)).startTx := handle_of_handed hh hq rfl
  unfold ownPresent at hx
  rw [owner_of_found hu hm] at hx
  refine ⟨fun hs => ?_, fun hs => ?_⟩
  · simp only [hs] at hx
    have hrec := unitBecomes_modUnit (s := s.taken f rest) hu (fun u => { u with age := 0 }) fun _ => rfl
    have hreply : ((s.taken f rest).modUnit ref fun u => { u with age := 0 }).allocationReply ref =
        .allocation .waiting v.cls.priority
          (v.lane.map fun l => { lane := l, deck := (s.laneFixed l).deck, ramp := (s.laneFixed l).ramp }) := by
      simp only [State.allocationReply, hrec.1, hs]
      rfl
    rw [hreply] at hx
    exact ⟨_, hx, answered_of_link rfl
      ⟨hrec, onlyChanges_fill _ _ (by simp) ((onlyChanges_modUnit _ _ _).mono (by simp))⟩⟩
  · simp only [hs] at hx
    refine ⟨_, hx, awaited_of_link rfl
      ⟨unitBecomes_handFresh (s := s.taken f rest) (.present f.ticket) hu, rfl, ?_⟩⟩
    exact .trans ((onlyChanges_modLink s _).mono (by simp)) ((onlyChanges_handFresh _ _ _).mono (by simp))

/-! ## HOLD_UNIT (R15) -/

/-- Settles O12: the release, the unplaced list, or neither, and the status. -/
theorem holdUnitTurnsBackAnUncalledUnit : Obligations.HoldUnitTurnsBackAnUncalledUnit := by
  unfold Obligations.HoldUnitTurnsBackAnUncalledUnit
  intro s f rest ref v hh hq hu hm
  have hx : exec .holdUnit s = .next (ownHoldUnit f.ticket ref (s.taken f rest)).startTx := handle_of_handed hh hq rfl
  unfold ownHoldUnit at hx
  rw [owner_of_found hu hm] at hx
  refine ⟨fun l hs hl hqueue => ?_, fun hs => ?_⟩
  · simp only [hs] at hx
    obtain ⟨-, -, -, hrec, hframe⟩ := release_waiting (s := s.taken f rest) hu hl hqueue
    have hset := onlyChanges_setStatus ((s.taken f rest).release ref) ref .held
    obtain ⟨hreplied, hnotified, hlane, hsums, hqueued, hasked, hunplaced, hwalk⟩ := release_then_walk hu hl hqueue (hset.mono (by simp))
    have hheld := hrec.trans (unitBecomes_setStatus .held hrec.1)
    refine ⟨_, hx, hreplied, hnotified, hheld.of_eq fun r => by simp, hlane, hsums, hqueued, hasked, hunplaced, hwalk, ?_⟩
    exact onlyChanges_fill (f := f) (rest := rest) _ _ (by simp) (.trans (hframe.mono (by simp))
      (.trans (hset.mono (by simp)) ((onlyChanges_triggerWalk _).mono (by simp))))
  · have hheld := unitBecomes_setStatus (s := s.taken f rest) .held hu
    rcases hs with hs | hs
    · simp only [hs] at hx
      exact ⟨_, hx, answered_of_link rfl ⟨hheld, rfl, by simp [hs]; rfl, onlyChanges_fill (f := f) (rest := rest) _ _
        (by simp) (.trans ((onlyChanges_leaveUnplaced _ _).mono (by simp)) ((onlyChanges_setStatus _ _ _).mono (by simp)))⟩⟩
    · simp only [hs] at hx
      exact ⟨_, hx, answered_of_link rfl ⟨hheld, rfl, by simp [hs], onlyChanges_fill (f := f) (rest := rest) _ _
        (by simp) ((onlyChanges_setStatus _ _ _).mono (by simp))⟩⟩

end Sys2Proof.Machine

namespace Sys2Proof.Machine

open Sys2Proof

/-! ## HOLD_UNIT of a CALLED unit (R15, R114, R120) -/

/-- All that a release does to a unit that stands in no queue. -/
theorem release_unqueued {s : State} {ref : Ref} {v : UnitRecord} {l : Lane} (h : s.unit? ref = some v)
    (hl : v.lane = some l) (hp : ref ∉ (s.ramp (s.laneFixed l).ramp).prio)
    (ho : ref ∉ (s.ramp (s.laneFixed l).ramp).ord) :
    LaneLeft s (s.release ref) l ref ∧ SumsLeft s (s.release ref) l v.decl.weight ∧
      UnitBecomes s (s.release ref) ref { v with lane := none } ∧ OnlyChanges [.units, .lane l, .stb] s (s.release ref) := by
  have hq : ((s.leaveLane l ref).subProvisional l v.decl.weight).leaveQueue (s.laneFixed l).ramp ref =
      (s.leaveLane l ref).subProvisional l v.decl.weight := leaveQueue_absent _ _ _ (by simpa using hp) (by simpa using ho)
  rw [release_eq h hl, hq]
  have hrec := unitBecomes_modUnit (s := (s.leaveLane l ref).subProvisional l v.decl.weight) (ref := ref) (v := v)
    (by simpa using h) (fun u => { u with lane := none }) fun _ => rfl
  refine ⟨?_, ?_, ⟨hrec.1, fun r hr => (hrec.2 r hr).trans (by simp)⟩, ?_⟩
  · exact (laneLeft_leaveLane s l ref).of_eq (by simp)
  · simpa [SumsLeft] using sumsLeft_subProvisional (s.leaveLane l ref) l v.decl.weight
  · intro b hb
    cases b with
    | lane k => simp at hb; simp [sameBlock, leaveLane_other _ _ hb]
    | units => simp at hb
    | stb => simp at hb
    | _ => simp [sameBlock]

/-- The call timer of R114 reads the called list, the statuses, the plate and the profile. -/
theorem headTimer_congr {s u : State} {r : Ramp} (hr : (u.ramp r).called = (s.ramp r).called)
    (hs : ∀ ref, u.statusOf ref = s.statusOf ref) (hp : u.plate r = s.plate r) (hf : u.rampFixed r = s.rampFixed r) :
    headTimer u r = headTimer s r := by
  simp only [headTimer, hr, hs, hp, hf]

theorem notify_flags (s : State) (n : Notice) : (s.notify n).link.flags = s.link.flags := by
  unfold State.notify
  split <;> rfl

/-- What follows once a CALLED unit's reservation is released: it leaves the called list, its uncall is told, a walk is asked
for and the request is answered (R15, R120). -/
theorem uncall_then_walk {s w : State} {f : Frame} {rest : List Frame} {ref : Ref} {l : Lane} {r : Ramp}
    (hw : OnlyChanges [.units, .lane l, .stb] (s.taken f rest) w) :
    let u := (((w.leaveCalled r ref).uncallNotice r .held none ref).triggerWalk).fill f.ticket .done
    Replied s u f rest .done ∧ u.link.flags = s.link.flags ∧ Notified s u [.uncall r ref .held none] ∧
      u.ramp r =
        { s.ramp r with
          called := (s.ramp r).called.erase ref
          callTimer := if (s.ramp r).called.head? = some ref then headTimer u r else (s.ramp r).callTimer } ∧
      WalkAsked s u ∧ u.alc.unplaced = s.alc.unplaced ∧ u.alc.walk = s.alc.walk ∧
      OnlyChanges [.link, .units, .lane l, .stb, .ramp r, .alc] s u := by
  have hramp : w.ramp r = s.ramp r := hw (.ramp r) (by simp)
  have halc : w.alc = s.alc := hw .alc (by simp)
  have hleft : (w.leaveCalled r ref).link = (s.taken f rest).link :=
    (onlyChanges_leaveCalled w r ref .link (by simp)).trans (hw .link (by simp))
  have hnotified := notified_notify (w.leaveCalled r ref) (.uncall r ref .held none)
  obtain ⟨hunplaced, hwalk⟩ := triggerWalk_lists ((w.leaveCalled r ref).uncallNotice r .held none ref)
  have hwalked := walkAsked_triggerWalk ((w.leaveCalled r ref).uncallNotice r .held none ref)
  refine ⟨?_, ?_, ?_, ?_, ?_, ?_, ?_, ?_⟩
  · have htold := onlyNews_notify (w.leaveCalled r ref) (.uncall r ref .held none)
    exact replied_of_fill _ (.trans (onlyNews_of_link hleft) (.trans htold (onlyNews_of_link (by simp; rfl))))
  · have hflags := notify_flags (w.leaveCalled r ref) (.uncall r ref .held none)
    rw [hleft] at hflags
    simpa [fill_link, State.uncallNotice, State.taken] using hflags
  · unfold Notified at hnotified ⊢
    rw [hleft] at hnotified
    simpa [fill_link, State.uncallNotice, State.taken] using hnotified
  · have hhead := headTimer_congr (r := r) (s := w.leaveCalled r ref)
      (u := (((w.leaveCalled r ref).uncallNotice r .held none ref).triggerWalk).fill f.ticket .done)
      (by simp) (fun q => by simp) (by simp) (by simp)
    rw [hhead]
    simpa [hramp] using leaveCalled_ramp w r ref
  · exact hwalked.of_eq (by simpa using halc)
  · exact hunplaced.trans (by simp [halc])
  · exact hwalk.trans (by simp [halc])
  · refine onlyChanges_fill (f := f) (rest := rest) _ _ (by simp) (.trans (hw.mono (by simp)) (.trans
      ((onlyChanges_leaveCalled _ _ _).mono (by simp)) (.trans ((onlyChanges_notify _ _).mono (by simp))
      ((onlyChanges_triggerWalk _).mono (by simp)))))

/-- Settles O13: the release, and what follows it. -/
theorem holdUnitUncallsACalledUnit : Obligations.HoldUnitUncallsACalledUnit := by
  unfold Obligations.HoldUnitUncallsACalledUnit
  intro s f rest ref v l hh hq hu hm hs hl hprio hord
  have hx : exec .holdUnit s = .next (ownHoldUnit f.ticket ref (s.taken f rest)).startTx := handle_of_handed hh hq rfl
  unfold ownHoldUnit at hx
  rw [owner_of_found hu hm] at hx
  simp only [hs, hl, Option.map_some, Option.getD_some, State.taken_reads] at hx
  obtain ⟨hlane, hsums, hrec, hframe⟩ := release_unqueued (s := s.taken f rest) hu hl hprio hord
  have hset := onlyChanges_setStatus ((s.taken f rest).release ref) ref .held
  have hheld := hrec.trans (unitBecomes_setStatus .held hrec.1)
  obtain ⟨hreplied, hflags, hnotified, hcalled, hasked, hunplaced, hwalk, hall⟩ :=
    uncall_then_walk (ref := ref) (r := (s.laneFixed l).ramp) (.trans hframe (hset.mono (by simp)))
  exact ⟨_, hx, hreplied, hflags, hnotified, hheld.of_eq fun q => by simp, hlane.of_eq (by simp), hsums.of_eq (by simp),
    hcalled, hasked, hunplaced, hwalk, hall⟩

end Sys2Proof.Machine

namespace Sys2Proof.Machine

open Sys2Proof

/-! ## The four queries (R21, R44, R122, R180) -/

/-- Units ahead in the lane list that are CALLED or CROSSING (R109). -/
theorem laneOrderMet_iff {s : State} {v : UnitRecord} :
    s.laneOrderMet v = true ↔ ∃ l, v.lane = some l ∧
      ∀ q ∈ (s.lane l).reservations.takeWhile (· != v.decl.ref),
        s.statusOf q = some .called ∨ s.statusOf q = some .crossing := by
  unfold State.laneOrderMet
  cases v.lane <;> simp

/-- The eligibility that the scheduler computes is R109's. -/
theorem eligible_iff {s : State} {r : Ramp} {ref : Ref} : s.eligible r ref = true ↔ Eligible s r ref := by
  unfold State.eligible Eligible
  cases hu : s.unit? ref with
  | none => simp
  | some v =>
    have hcomp : (decide ((s.comp r).state ≠ .restricted) || decide (v.decl.kind ≠ .lowbed)) = true ↔
        ((s.comp r).state = .restricted → v.decl.kind ≠ .lowbed) := by
      simp [imp_iff_not_or]
    have hheavy : (!s.hlm.hold || !s.heavy v) = true ↔ (s.hlm.hold = true → v.decl.weight < s.vessel.heavyThreshold) := by
      simp [State.heavy, imp_iff_not_or]
    have hbudget : (decide (v.decl.weight ≤ (s.ramp r).remaining) || decide ((s.ramp r).remaining = (s.ramp r).budget)) =
        true ↔ (v.decl.weight ≤ (s.ramp r).remaining ∨ (s.ramp r).remaining = (s.ramp r).budget) := by simp
    simp only [Bool.and_eq_true, laneOrderMet_iff, hcomp, hheavy, hbudget, unit_ref hu, Option.some.injEq]
    constructor
    · rintro ⟨⟨⟨⟨l, hl, ho⟩, hc⟩, hh⟩, hb⟩
      exact ⟨v, l, rfl, hl, ho, hc, hh, hb⟩
    · rintro ⟨w, l, rfl, hl, ho, hc, hh, hb⟩
      exact ⟨⟨⟨⟨l, hl, ho⟩, hc⟩, hh⟩, hb⟩

/-- An entry of QUERY_QUEUE for a unit that is held in the table (R122). -/
theorem queueEntry_reads {s : State} {r : Ramp} {name : ListName} {ref : Ref} (h : s.unit? ref ≠ none) :
    let e := s.queueEntry r name ref
    ∃ v, s.unit? e.ref = some v ∧ e.lane = v.lane ∧ e.weight = v.decl.weight ∧ e.status = v.status ∧
      (e.eligible = true ↔ name ≠ .called ∧ Eligible s r e.ref) ∧
      (e.head = true ↔ name = .called ∧ (s.ramp r).called.head? = some e.ref) := by
  obtain ⟨v, hv⟩ := Option.ne_none_iff_exists'.1 h
  refine ⟨v, hv, ?_, ?_, ?_, ?_, ?_⟩ <;> simp [State.queueEntry, hv, eligible_iff]

theorem map_ref_queueEntry (s : State) (r : Ramp) (name : ListName) (refs : List Ref) :
    (refs.map (s.queueEntry r name)).map (·.ref) = refs := by
  simp [State.queueEntry, Function.comp_def]

theorem warnings_eq (s : State) : s.decks.map (·.warning) = Vector.ofFn fun d => (s.deck d).warning := by
  ext d hd
  simp [State.deck]

/-- Settles O49: each owner fills the slot with what it reads. -/
theorem queriesReportTheState : Obligations.QueriesReportTheState := by
  unfold Obligations.QueriesReportTheState
  intro s f rest
  refine ⟨fun ref v hh hq hu => ?_, fun l start hh hq => ?_, fun q hh hq hknown => ?_, fun hh hq => ?_⟩
  · have hx : exec .queryUnit s = .next (ownQueryUnit f.ticket ref (s.taken f rest)).startTx := handle_of_handed hh hq rfl
    unfold ownQueryUnit at hx
    rw [withUnit_found (s := s.taken f rest) (b := false) _ _ hu nofun] at hx
    exact ⟨_, hx, filled_outcome s f rest _⟩
  · have hx : exec .queryLane s = .next (ownQueryLane f.ticket (l, start) (s.taken f rest)).startTx :=
      handle_of_handed hh hq rfl
    exact ⟨_, hx, filled_outcome s f rest _⟩
  · have hx : exec .queryQueue s = .next (ownQueryQueue f.ticket q (s.taken f rest)).startTx := handle_of_handed hh hq rfl
    obtain ⟨hreplied, hnews, hframe⟩ := filled_outcome s f rest (.queueReport (s.queueReport q))
    have hmem {ref : Ref} (h : ref ∈ runOf q.start ((s.ramp q.ramp).named q.named)) : s.unit? ref ≠ none :=
      hknown ref (List.mem_of_mem_drop (List.mem_of_mem_take h))
    refine ⟨_, (s.queueReport q).run, hx, ?_, ?_, fun e he => ?_, hnews, hframe⟩
    · obtain ⟨r, name, start⟩ := q
      cases name <;> exact hreplied
    · obtain ⟨r, name, start⟩ := q
      cases name <;> exact map_ref_queueEntry s r _ _
    · obtain ⟨ref, hr, rfl⟩ := List.mem_map.1 he
      exact queueEntry_reads (hmem hr)
  · have hx : exec .queryStatus s = .next (ownQueryStatus f.ticket ⟨⟩ (s.taken f rest)).startTx :=
      handle_of_handed hh hq rfl
    refine ⟨_, hx, ?_⟩
    dsimp only
    rw [← warnings_eq]
    exact filled_outcome s f rest _

end Sys2Proof.Machine

namespace Sys2Proof.Machine

open Sys2Proof

/-! ## Gate holds under falling counts (R121) -/

/-- The threshold at which the gate hold is lifted lies below the one at which it is set (R102). -/
theorem gateOffAdjusted_lt {x : RampFixed} (h : 1 ≤ x.gateOn) : x.gateOffAdjusted < x.gateOn := by
  unfold RampFixed.gateOffAdjusted; split <;> omega

theorem gateAfter_true {x : RampFixed} {n : Nat} : gateAfter x true n = !decide (n < x.gateOffAdjusted) := rfl

theorem gateAfter_false {x : RampFixed} {n : Nat} : gateAfter x false n = decide (x.gateOn ≤ n) := rfl

/-- Two examinations against falling counts, from a hold that agrees with its count, come to the second alone. -/
theorem gateAfter_falling {x : RampFixed} {g : Bool} {n a b : Nat} (h1 : 1 ≤ x.gateOn) (hn : gateAfter x g n = g)
    (ha : a ≤ n) (hb : b ≤ a) : gateAfter x (gateAfter x g a) b = gateAfter x g b := by
  have hoff := gateOffAdjusted_lt h1
  cases g with
  | false =>
    rw [gateAfter_false] at hn
    have : gateAfter x false a = false := by rw [gateAfter_false]; simp at hn ⊢; omega
    rw [this]
  | true =>
    by_cases hlow : a < x.gateOffAdjusted
    · have hlow' : b < x.gateOffAdjusted := by omega
      have hlow'' : b < x.gateOn := by omega
      simp [gateAfter_true, gateAfter_false, hlow, hlow', hlow'']
    · simp [gateAfter_true, hlow]

/-- A hold that has been lifted stays lifted while the count falls. -/
theorem gateAfter_lifted {x : RampFixed} {g : Bool} {n a b : Nat} (hn : gateAfter x g n = g) (ha : a ≤ n) (hb : b ≤ a)
    (h : gateAfter x g a ≠ g) : gateAfter x g b = gateAfter x g a := by
  cases g with
  | false => simp [gateAfter_false] at hn h; omega
  | true =>
    simp only [gateAfter_true] at h ⊢
    simp at h
    simp [h, hb.trans_lt h]

/-! ## Lapses one after another (R10, R19) -/

/-- What the reservation law says of units that lapse: they wait, each in its lane and its queue (R26, R103). -/
structure LapseReady (s : State) (gone : List Ref) : Prop where
  nodup : gone.Nodup
  waits : ∀ ref ∈ gone, ∃ v l, s.unit? ref = some v ∧ v.lane = some l ∧ ref ∈ (s.lane l).reservations ∧
    (ref ∈ (s.ramp (s.laneFixed l).ramp).prio ∨ ref ∈ (s.ramp (s.laneFixed l).ramp).ord)
  reservations : ∀ l, (s.lane l).reservations.Nodup
  queues : ∀ r, (s.ramp r).prio.Nodup ∧ (s.ramp r).ord.Nodup
  queued : ∀ r ref, ref ∈ (s.ramp r).prio ∨ ref ∈ (s.ramp r).ord →
    ∃ l, laneOf s ref = some l ∧ (s.laneFixed l).ramp = r
  gate : ∀ r, 1 ≤ (s.rampFixed r).gateOn ∧
    gateAfter (s.rampFixed r) (s.ramp r).gateHold ((s.ramp r).prio.length + (s.ramp r).ord.length) = (s.ramp r).gateHold

theorem LapseReady.init {s : State} {gone : List Ref} {ref : Ref} (h : LapseReady s (gone ++ [ref])) :
    LapseReady s gone :=
  { h with
    nodup := (List.nodup_append.1 h.nodup).1
    waits := fun q hq => h.waits q (List.mem_append_left _ hq) }

/-- What lapses leave of a state. -/
structure Lapses (s u : State) (gone : List Ref) : Prop where
  unit : ∀ ref, u.unit? ref =
    (s.unit? ref).map fun v => if ref ∈ gone then { v with status := .lapsed, lane := none } else v
  lanes : LanesReleased s u gone
  sums : SumsReleased s u gone
  queues : QueuesReleased s u gone
  notified : Notified s u []
  news : OnlyNews s u
  frame : OnlyChanges ([.link, .units, .stb, .ramp .a, .ramp .b] ++ anyLane) s u

theorem lapses_nil (s : State) : Lapses s s [] where
  unit ref := by simp
  lanes l := by simp
  sums := by simp [SumsReleased]
  queues r := by simp
  notified := notified_nil rfl rfl
  news := onlyNews_refl s
  frame := .refl _ s

section Snoc

variable {s w u : State} {gone : List Ref} {ref : Ref} {v : UnitRecord} {l : Lane}

/-- The lists without the units that have gone, and then without one more. -/
theorem erase_filter_gone {xs : List Ref} (h : xs.Nodup) :
    (xs.filter fun q => !gone.contains q).erase ref = xs.filter fun q => !(gone ++ [ref]).contains q := by
  rw [(h.filter _).erase_eq_filter, List.filter_filter]
  refine List.filter_congr fun q _ => ?_
  by_cases hq : q = ref <;> simp [hq]

theorem filter_gone_of_notMem {xs : List Ref} (h : ref ∉ xs) :
    (xs.filter fun q => !(gone ++ [ref]).contains q) = xs.filter fun q => !gone.contains q := by
  refine List.filter_congr fun q hq => ?_
  have : q ≠ ref := fun e => h (e ▸ hq)
  simp [this]

/-- A lane's reservation list without the units of the lane that have gone. -/
def restIn (s : State) (gone : List Ref) (l : Lane) : List Ref :=
  (s.lane l).reservations.filter fun ref => !(gone.contains ref && decide (laneOf s ref = some l))

theorem restIn_snoc_other {k : Lane} (hl : laneOf s ref = some l) (hk : k ≠ l) :
    restIn s (gone ++ [ref]) k = restIn s gone k := by
  refine List.filter_congr fun q _ => ?_
  by_cases hq : q = ref
  · simp [hq, hl, Ne.symm hk]
  · simp [hq]

theorem restIn_snoc_same (hl : laneOf s ref = some l) (hn : (s.lane l).reservations.Nodup) :
    restIn s (gone ++ [ref]) l = (restIn s gone l).erase ref := by
  unfold restIn
  rw [(hn.filter _).erase_eq_filter, List.filter_filter]
  refine List.filter_congr fun q _ => ?_
  by_cases hq : q = ref
  · simp [hq, hl]
  · simp [hq]

theorem lanesReleased_snoc (hw : LanesReleased s w gone) (hu : LaneLeft w u l ref)
    (hk : ∀ k, k ≠ l → u.lane k = w.lane k) (hl : laneOf s ref = some l) (hm : ref ∈ (s.lane l).reservations)
    (hg : ref ∉ gone) (hn : (s.lane l).reservations.Nodup) : LanesReleased s u (gone ++ [ref]) := by
  intro k
  change u.lane k = if restIn s (gone ++ [ref]) k = (s.lane k).reservations then s.lane k else
    { s.lane k with
      reservations := restIn s (gone ++ [ref]) k
      state := if (s.lane k).state = .closing ∧ restIn s (gone ++ [ref]) k = [] then .closed else (s.lane k).state }
  by_cases hkl : k = l
  · subst hkl
    have hmem : ref ∈ restIn s gone k := by simp [restIn, hm, hg]
    have hwl : w.lane k = { s.lane k with reservations := restIn s gone k } := by
      have h := hw k
      change w.lane k = if restIn s gone k = (s.lane k).reservations then s.lane k else
        { s.lane k with
          reservations := restIn s gone k
          state := if (s.lane k).state = .closing ∧ restIn s gone k = [] then .closed else (s.lane k).state } at h
      rw [h]
      split
      · next he => rw [he]
      · simp [List.ne_nil_of_mem hmem]
    have hgone : ref ∉ restIn s (gone ++ [ref]) k := by simp [restIn, hl]
    have hne : restIn s (gone ++ [ref]) k ≠ (s.lane k).reservations := fun e => hgone (e ▸ hm)
    rw [if_neg hne, hu, hwl, restIn_snoc_same hl hn]
  · rw [hk k hkl, restIn_snoc_other hl hkl]
    exact hw k

theorem sumsReleased_snoc (hw : SumsReleased s w gone) (hu : SumsLeft w u l v.decl.weight) (hv : s.unit? ref = some v)
    (hl : v.lane = some l) (hf : w.laneFixed l = s.laneFixed l) : SumsReleased s u (gone ++ [ref]) := by
  obtain ⟨hml, hmt, hload, hrest⟩ := hw
  unfold SumsLeft at hu
  simp only [hf] at hu
  unfold SumsReleased
  rw [hu]
  have hlane : laneOf s ref = some l := by simp [laneOf, hv, hl]
  refine ⟨?_, ?_, fun d => ?_, hrest⟩
  · simp only [hml, List.map_append, List.map_cons, List.map_nil, List.sum_append, List.sum_cons, List.sum_nil,
      promisedMl, hv, hlane]
    omega
  · simp only [hmt, List.map_append, List.map_cons, List.map_nil, List.sum_append, List.sum_cons, List.sum_nil,
      promisedMt, hv, hlane]
    omega
  · have hset : (w.stb.load.set (s.laneFixed l).deck (w.stb.load[(s.laneFixed l).deck] - v.decl.weight))[d] =
        w.stb.load[d] - promisedLoad s d ref := by
      simp only [promisedLoad, hv, hlane, Fin.getElem_fin, Vector.getElem_set]
      by_cases hd : (s.laneFixed l).deck = d
      · subst hd; simp
      · have : (s.laneFixed l).deck.val ≠ d.val := fun e => hd (Fin.ext e)
        simp [hd, this]
    simp only [hset, hload d, List.map_append, List.map_cons, List.map_nil, List.sum_append, List.sum_cons, List.sum_nil]
    omega

/-- A gate hold's pending flag after a change of one ramp's gate hold (R177). -/
theorem isPending_gateHold {r q : Ramp} {c : Prop} [Decidable c]
    (h : u.link.flags = if c then w.link.flags else flagged [.gateHold r] w.link.flags) :
    u.isPending (.gateHold q) = true ↔ w.isPending (.gateHold q) = true ∨ (q = r ∧ ¬ c) := by
  unfold State.isPending
  rw [h]
  by_cases hc : c
  · simp [hc]
  · by_cases hq : q = r
    · subst hq; simp [hc, flagged]
    · have : (Subject.gateHold r).index.val ≠ (Subject.gateHold q).index.val := by
        revert hq; cases q <;> cases r <;> decide
      simp [hc, hq, flagged, this]

/-- A queue without the units that have gone. -/
def still (gone xs : List Ref) : List Ref := xs.filter fun ref => !gone.contains ref

/-- The gate hold that a ramp's remaining queues give (R121). -/
def gateWithout (s : State) (gone : List Ref) (r : Ramp) : Bool :=
  gateAfter (s.rampFixed r) (s.ramp r).gateHold
    ((still gone (s.ramp r).prio).length + (still gone (s.ramp r).ord).length)

/-- Someone has left a ramp's queues. -/
def SomeLeft (s : State) (gone : List Ref) (r : Ramp) : Prop :=
  (s.ramp r).prio ≠ still gone (s.ramp r).prio ∨ (s.ramp r).ord ≠ still gone (s.ramp r).ord

theorem queuesReleased_iff : QueuesReleased s u gone ↔ ∀ r,
    (SomeLeft s gone r → u.ramp r =
      { s.ramp r with
        prio := still gone (s.ramp r).prio, ord := still gone (s.ramp r).ord, gateHold := gateWithout s gone r
        lineHigh := gateWithout s gone r }) ∧
    (¬ SomeLeft s gone r → u.ramp r = s.ramp r) ∧
    (u.isPending (.gateHold r) = true ↔
      s.isPending (.gateHold r) = true ∨ (SomeLeft s gone r ∧ gateWithout s gone r ≠ (s.ramp r).gateHold)) := by
  refine forall_congr' fun r => ?_
  by_cases h : SomeLeft s gone r
  · have h' := h
    unfold SomeLeft still at h'
    simp only [h, true_imp_iff, not_true, false_imp_iff, true_and]
    exact and_congr (by rw [if_pos h']; rfl) (iff_congr .rfl (or_congr .rfl (and_iff_right h')))
  · have h' := h
    unfold SomeLeft still at h'
    simp only [h, not_false_eq_true, true_imp_iff, false_imp_iff, true_and, false_and]
    exact and_congr (by rw [if_neg h']) (iff_congr .rfl (or_congr .rfl (iff_false_intro fun e => h' e.1)))

theorem length_still_le (gone xs : List Ref) : (still gone xs).length ≤ xs.length := List.length_filter_le _ _

theorem still_snoc {xs : List Ref} (h : xs.Nodup) : still (gone ++ [ref]) xs = (still gone xs).erase ref :=
  (erase_filter_gone h).symm

theorem still_snoc_of_notMem {xs : List Ref} (h : ref ∉ xs) : still (gone ++ [ref]) xs = still gone xs :=
  filter_gone_of_notMem h

theorem length_still_fall {xs ys : List Ref} (hx : xs.Nodup) (hy : ys.Nodup) :
    (still (gone ++ [ref]) xs).length + (still (gone ++ [ref]) ys).length ≤
      (still gone xs).length + (still gone ys).length := by
  rw [still_snoc hx, still_snoc hy]
  exact Nat.add_le_add (List.length_erase_le) (List.length_erase_le)

theorem ne_still_of_mem {xs : List Ref} (hg : ref ∈ gone) (hm : ref ∈ xs) : xs ≠ still gone xs := by
  intro e
  rw [e] at hm
  simp [still, hg] at hm

/-- A ramp from whose queues some units have gone, whether or not any stood there. -/
theorem ramp_of_queuesReleased (hs : LapseReady s gone) (hw : QueuesReleased s w gone) (r : Ramp) :
    (w.ramp r).prio = still gone (s.ramp r).prio ∧ (w.ramp r).ord = still gone (s.ramp r).ord ∧
      (w.ramp r).gateHold = gateWithout s gone r ∧
      ∀ prio ord g, { w.ramp r with prio := prio, ord := ord, gateHold := g, lineHigh := g } =
        { s.ramp r with prio := prio, ord := ord, gateHold := g, lineHigh := g } := by
  obtain ⟨hleft, hstay, -⟩ := queuesReleased_iff.1 hw r
  by_cases h : SomeLeft s gone r
  · rw [hleft h]
    exact ⟨rfl, rfl, rfl, fun _ _ _ => rfl⟩
  · obtain ⟨hp, ho⟩ := not_or.1 h
    rw [hstay h]
    refine ⟨not_not.1 hp, not_not.1 ho, ?_, fun _ _ _ => rfl⟩
    unfold gateWithout
    rw [← not_not.1 hp, ← not_not.1 ho]
    exact (hs.gate r).2.symm

theorem queuesReleased_snoc (hs : LapseReady s gone) (hw : QueuesReleased s w gone) {r : Ramp} (hu : QueueLeft w u r ref)
    (hother : ∀ q, q ≠ r → u.ramp q = w.ramp q) (hf : ∀ q, w.rampFixed q = s.rampFixed q)
    (hr : ref ∈ (s.ramp r).prio ∨ ref ∈ (s.ramp r).ord)
    (habsent : ∀ q, q ≠ r → ref ∉ (s.ramp q).prio ∧ ref ∉ (s.ramp q).ord) : QueuesReleased s u (gone ++ [ref]) := by
  obtain ⟨hramp, hflags⟩ := hu
  refine queuesReleased_iff.2 fun q => ?_
  obtain ⟨hleft, hstay, hpend⟩ := queuesReleased_iff.1 hw q
  have hpend' := isPending_gateHold (q := q) hflags
  by_cases hq : q = r
  · subst hq
    obtain ⟨hp, ho, hg, hset⟩ := ramp_of_queuesReleased hs hw q
    obtain ⟨hpn, hon⟩ := hs.queues q
    obtain ⟨h1, hn⟩ := hs.gate q
    have hfall := length_still_fall (ref := ref) (gone := gone) hpn hon
    have hgate : gateAfter (w.rampFixed q) (w.ramp q).gateHold
        (((w.ramp q).prio.erase ref).length + ((w.ramp q).ord.erase ref).length) = gateWithout s (gone ++ [ref]) q := by
      rw [hf, hp, ho, hg, ← still_snoc hpn, ← still_snoc hon]
      exact gateAfter_falling h1 hn (Nat.add_le_add (length_still_le _ _) (length_still_le _ _)) hfall
    have hsome : SomeLeft s (gone ++ [ref]) q := hr.imp (ne_still_of_mem (by simp)) (ne_still_of_mem (by simp))
    have hlifted (h : gateWithout s gone q ≠ (s.ramp q).gateHold) :
        gateWithout s (gone ++ [ref]) q = gateWithout s gone q :=
      gateAfter_lifted hn (Nat.add_le_add (length_still_le _ _) (length_still_le _ _)) hfall h
    have hleft' (h : gateWithout s gone q ≠ (s.ramp q).gateHold) : SomeLeft s gone q := by
      by_contra hno
      exact h (hg.symm.trans (congrArg RampRun.gateHold (hstay hno)))
    refine ⟨fun _ => ?_, fun h => absurd hsome h, ?_⟩
    · dsimp only at hramp
      rw [hramp, hgate, hset, hp, ho, ← still_snoc hpn, ← still_snoc hon]
    · rw [hpend', hpend, hgate, hg]
      simp only [hsome, true_and]
      by_cases h : gateWithout s gone q = (s.ramp q).gateHold
      · simp [h]
      · simp [h, hleft' h, hlifted h]
  · obtain ⟨hp, ho⟩ := habsent q hq
    have hsome : SomeLeft s (gone ++ [ref]) q ↔ SomeLeft s gone q := by
      simp only [SomeLeft, still_snoc_of_notMem hp, still_snoc_of_notMem ho]
    have hgate : gateWithout s (gone ++ [ref]) q = gateWithout s gone q := by
      simp only [gateWithout, still_snoc_of_notMem hp, still_snoc_of_notMem ho]
    rw [hsome, hgate, still_snoc_of_notMem hp, still_snoc_of_notMem ho, hother q hq, hpend', hpend]
    exact ⟨hleft, hstay, by simp [hq]⟩

end Snoc

theorem laneFixed_congr {s u : State} (h : u.pst = s.pst) (l : Lane) : u.laneFixed l = s.laneFixed l := by
  unfold State.laneFixed State.profile; rw [h]

theorem rampFixed_congr {s u : State} (h : u.pst = s.pst) (r : Ramp) : u.rampFixed r = s.rampFixed r := by
  unfold State.rampFixed State.profile; rw [h]

theorem mem_anyLane (l : Lane) : Block.lane l ∈ anyLane := List.mem_map_of_mem (List.mem_finRange l)

/-- What a release changes is among what lapses change. -/
theorem release_blocks_subset (l : Lane) (r : Ramp) :
    [Block.link, .units, .lane l, .stb, .ramp r] ⊆ [Block.link, .units, .stb, .ramp .a, .ramp .b] ++ anyLane := by
  have := mem_anyLane l
  cases r <;> simp [this]

/-- One more unit lapses: its release is that of a unit that waits in a queue (R10, R19). -/
theorem Lapses.snoc {s w : State} {gone : List Ref} {ref : Ref} (hs : LapseReady s (gone ++ [ref]))
    (hw : Lapses s w gone) : Lapses s (w.lapse ref) (gone ++ [ref]) := by
  obtain ⟨v, l, hv, hl, hm, hq⟩ := hs.waits ref (by simp)
  have hg : ref ∉ gone := fun h => (List.nodup_append.1 hs.nodup).2.2 ref h ref (by simp) rfl
  have hpst : w.pst = s.pst := hw.frame .pst (by simp [anyLane])
  have hfixed := laneFixed_congr hpst l
  have hwv : w.unit? ref = some v := by rw [hw.unit, hv]; simp [hg]
  have hlane : laneOf s ref = some l := by simp [laneOf, hv, hl]
  obtain ⟨hprio, hord, -⟩ := ramp_of_queuesReleased hs.init hw.queues (s.laneFixed l).ramp
  have hwq : ref ∈ (w.ramp (w.laneFixed l).ramp).prio ∨ ref ∈ (w.ramp (w.laneFixed l).ramp).ord := by
    rw [hfixed, hprio, hord]
    exact hq.imp (fun h => by simp [still, h, hg]) fun h => by simp [still, h, hg]
  obtain ⟨hleft, hsums, hqueue, hrec, hframe⟩ := release_waiting hwv hl hwq
  have hframe' : OnlyChanges [.link, .units, .lane l, .stb, .ramp (s.laneFixed l).ramp] w (w.lapse ref) := by
    rw [hfixed] at hframe
    exact .trans hframe ((onlyChanges_setStatus _ ref .lapsed).mono (by simp))
  have hlapsed : UnitBecomes w (w.lapse ref) ref { v with lane := none, status := .lapsed } :=
    hrec.trans (unitBecomes_setStatus .lapsed hrec.1)
  obtain ⟨hn, hst⟩ := release_notices w ref
  rw [hfixed] at hqueue
  refine ⟨fun r => ?_, ?_, ?_, ?_, ?_, ?_, ?_⟩
  · by_cases hr : r = ref
    · rw [hr, hlapsed.1, hv]; simp
    · rw [hlapsed.2 r hr, hw.unit]; simp [hr]
  · exact lanesReleased_snoc hw.lanes hleft (fun k hk => hframe' (.lane k) (by simp [hk])) hlane hm hg (hs.reservations l)
  · exact sumsReleased_snoc hw.sums hsums hv hl hfixed
  · refine queuesReleased_snoc hs.init hw.queues hqueue (fun q hne => hframe' (.ramp q) (by simp [hne]))
      (rampFixed_congr hpst) hq fun q hne => ?_
    have hno (h : ref ∈ (s.ramp q).prio ∨ ref ∈ (s.ramp q).ord) : False := by
      obtain ⟨k, hk, hkq⟩ := hs.queued q ref h
      obtain rfl := Option.some.inj (hlane.symm.trans hk)
      exact hne hkq.symm
    exact ⟨fun h => hno (.inl h), fun h => hno (.inr h)⟩
  · exact Notified.trans hw.notified (notified_nil hn hst)
  · exact hw.news.trans (release_onlyNews w ref)
  · exact .trans hw.frame (hframe'.mono (release_blocks_subset l _))

theorem lapses_foldl {s : State} {gone : List Ref} (hs : LapseReady s gone) : Lapses s (gone.foldl State.lapse s) gone := by
  induction gone using List.reverseRecOn with
  | nil => exact lapses_nil s
  | append_singleton gone ref ih =>
    rw [List.foldl_append]
    exact (ih hs.init).snoc hs

/-! ## The units that lapse (R17 to R19) -/

theorem unit_of_mem {s : State} (h : UnitsRise s.units) {v : UnitRecord} (hv : v ∈ s.units) :
    s.unit? v.decl.ref = some v := by
  have hsome : (s.unit? v.decl.ref).isSome = true := List.find?_isSome.2 ⟨v, hv, by simp⟩
  obtain ⟨w, hw⟩ := Option.isSome_iff_exists.1 hsome
  have hnd : (s.units.map (·.decl.ref)).Nodup := by
    rw [List.Nodup, List.pairwise_map]; exact h.imp fun hlt => Nat.ne_of_lt hlt
  rw [hw, List.inj_on_of_nodup_map hnd (unit_mem hw) hv (unit_ref hw)]

/-- An unmarked WAITING record (R18). -/
def UnitRecord.ages (v : UnitRecord) : Bool := decide (v.status = .waiting) && !v.mark

/-- A record that lapses at an expiry (R19). -/
def UnitRecord.lapses (limit : Nat) (v : UnitRecord) : Bool := v.ages && decide (v.age + 1 = limit)

/-- The record after an expiry, before it lapses (R18). -/
def UnitRecord.aged (v : UnitRecord) : UnitRecord := if v.ages then { v with age := v.age + 1 } else v

/-- The units that lapse at an expiry, lowest reference first (R19). -/
def State.gone (s : State) : List Ref := (s.units.filter (UnitRecord.lapses s.vessel.ageLimit)).map (·.decl.ref)

theorem units_ageAll (s : State) : s.ageAll.units = s.units.map UnitRecord.aged := by
  simp [State.ageAll, UnitRecord.aged, UnitRecord.ages]

theorem aged_decl (v : UnitRecord) : v.aged.decl = v.decl := by unfold UnitRecord.aged; split <;> rfl

theorem aged_lane (v : UnitRecord) : v.aged.lane = v.lane := by unfold UnitRecord.aged; split <;> rfl

theorem unit_ageAll (s : State) (ref : Ref) : s.ageAll.unit? ref = (s.unit? ref).map UnitRecord.aged := by
  simp only [State.unit?, units_ageAll, List.find?_map, Function.comp_def, aged_decl]

theorem laneOf_ageAll (s : State) (ref : Ref) : laneOf s.ageAll ref = laneOf s ref := by
  simp only [laneOf, unit_ageAll]
  cases s.unit? ref <;> simp [aged_lane]

/-- The units at the limit once all have aged are those one below it before (R18, R19). -/
theorem lapsing_ageAll (s : State) : s.ageAll.lapsing = s.gone := by
  have hp (v : UnitRecord) : (decide (v.aged.status = .waiting) && !v.aged.mark && decide (v.aged.age = s.vessel.ageLimit)) =
      v.lapses s.vessel.ageLimit := by
    unfold UnitRecord.lapses UnitRecord.aged UnitRecord.ages
    by_cases h : (decide (v.status = .waiting) && !v.mark) = true
    · rw [if_pos h, h]
    · rw [if_neg h]; simp [h]
  have hlimit : s.ageAll.vessel = s.vessel := rfl
  simp only [State.lapsing, State.gone, units_ageAll, hlimit, List.filter_map, List.map_map,
    Function.comp_def, hp, aged_decl]

theorem mem_gone_iff {s : State} (h : UnitsRise s.units) {ref : Ref} {v : UnitRecord} (hv : s.unit? ref = some v) :
    ref ∈ s.gone ↔ v.lapses s.vessel.ageLimit = true := by
  unfold State.gone
  simp only [List.mem_map, List.mem_filter]
  constructor
  · rintro ⟨w, ⟨hw, hl⟩, rfl⟩
    have := (unit_of_mem h hw).symm.trans hv
    exact Option.some.inj this ▸ hl
  · exact fun hl => ⟨v, ⟨unit_mem hv, hl⟩, unit_ref hv⟩

end Sys2Proof.Machine

namespace Sys2Proof.Machine

open Sys2Proof

/-! ## What the reservation law says of the units that lapse (R26, R103) -/

theorem ReservationLaw.rise {s : State} (h : ReservationLaw s) : UnitsRise s.units := h.1

/-- A WAITING record stands in its lane's list and in the queue of its class. -/
theorem ReservationLaw.waiting {s : State} (h : ReservationLaw s) {v : UnitRecord} (hv : v ∈ s.units)
    (hw : v.status = .waiting) : ∃ l, v.lane = some l ∧ v.decl.ref ∈ (s.lane l).reservations ∧
      (v.decl.ref ∈ (s.ramp (s.laneFixed l).ramp).prio ∨ v.decl.ref ∈ (s.ramp (s.laneFixed l).ramp).ord) := by
  obtain ⟨-, hstands, -⟩ := h
  have hs := hstands v hv
  unfold recordStands at hs
  cases hl : v.lane with
  | none => simp [hw, hl] at hs
  | some l =>
    simp only [hw, hl, Bool.and_eq_true] at hs
    obtain ⟨⟨-, hres⟩, hq⟩ := hs
    refine ⟨l, rfl, by simpa using hres, ?_⟩
    split at hq
    · exact .inl (by simpa using hq)
    · exact .inr (by simpa using hq)

/-- A queue's units are reserved in lanes of the queue's ramp. -/
theorem ReservationLaw.queued {s : State} (h : ReservationLaw s) {r : Ramp} {ref : Ref}
    (hq : ref ∈ (s.ramp r).prio ∨ ref ∈ (s.ramp r).ord) : ∃ l, laneOf s ref = some l ∧ (s.laneFixed l).ramp = r := by
  obtain ⟨-, -, -, hramps, -⟩ := h
  obtain ⟨-, -, hprio, hord, -⟩ := hramps r
  have hv : ∃ v, s.unit? ref = some v ∧ v.lane.any (fun l => decide ((s.laneFixed l).ramp = r)) = true := by
    rcases hq with hq | hq
    · obtain ⟨v, hv, hp⟩ := unitIs_iff.1 (hprio ref hq)
      exact ⟨v, hv, (Bool.and_eq_true_iff.1 hp).2⟩
    · obtain ⟨v, hv, hp⟩ := unitIs_iff.1 (hord ref hq)
      exact ⟨v, hv, (Bool.and_eq_true_iff.1 hp).2⟩
  obtain ⟨v, hv, hl⟩ := hv
  cases hlane : v.lane with
  | none => simp [hlane] at hl
  | some l => exact ⟨l, by simp [laneOf, hv, hlane], by simpa [hlane] using hl⟩

theorem nodup_gone {s : State} (h : UnitsRise s.units) : s.gone.Nodup := by
  unfold State.gone
  rw [List.Nodup, List.pairwise_map]
  exact (h.filter _).imp fun hlt => Nat.ne_of_lt hlt

theorem lapseReady_of_law {s : State} (h : ReservationLaw s) : LapseReady s.ageAll s.gone where
  nodup := nodup_gone h.rise
  waits ref hr := by
    obtain ⟨v, hv, rfl⟩ := List.mem_map.1 hr
    obtain ⟨hv, hl⟩ := List.mem_filter.1 hv
    have hw : v.status = .waiting := by simp [UnitRecord.lapses, UnitRecord.ages] at hl; exact hl.1.1
    obtain ⟨l, hlane, hres, hq⟩ := h.waiting hv hw
    exact ⟨v.aged, l, by rw [unit_ageAll, unit_of_mem h.rise hv]; rfl, (aged_lane v).trans hlane, hres, hq⟩
  reservations l := by
    obtain ⟨-, -, hlanes, -⟩ := h
    exact (hlanes l).1
  queues r := by
    obtain ⟨-, -, -, hramps, -⟩ := h
    obtain ⟨hnd, -⟩ := hramps r
    exact ⟨(List.nodup_append.1 hnd).1, (List.nodup_append.1 hnd).2.1⟩
  queued r ref hq := by rw [laneOf_ageAll]; exact h.queued hq
  gate r := by
    obtain ⟨-, -, -, hramps, -⟩ := h
    obtain ⟨-, -, -, -, -, -, hon, hgate, -⟩ := hramps r
    exact ⟨hon, hgate⟩

/-! ## From the aged state back to the state before -/

theorem promised_ageAll (s : State) :
    promisedMl s.ageAll = promisedMl s ∧ promisedMt s.ageAll = promisedMt s ∧
      ∀ d, promisedLoad s.ageAll d = promisedLoad s d := by
  have hfixed (l : Lane) : s.ageAll.laneFixed l = s.laneFixed l := rfl
  refine ⟨funext fun ref => ?_, funext fun ref => ?_, fun d => funext fun ref => ?_⟩ <;>
    · simp only [promisedMl, promisedMt, promisedLoad, laneOf_ageAll, unit_ageAll, hfixed]
      cases s.unit? ref <;> cases laneOf s ref <;> simp only [Option.map_none, Option.map_some, aged_decl]

theorem lanesReleased_ageAll {s u : State} {gone : List Ref} (h : LanesReleased s.ageAll u gone) :
    LanesReleased s u gone := by
  unfold LanesReleased at h
  simp only [laneOf_ageAll] at h
  exact h

theorem sumsReleased_ageAll {s u : State} {gone : List Ref} (h : SumsReleased s.ageAll u gone) :
    SumsReleased s u gone := by
  obtain ⟨hml, hmt, hload⟩ := promised_ageAll s
  unfold SumsReleased at h
  simp only [hml, hmt, hload] at h
  exact h

/-- An ageing record, and then a lapsing one, in one step. -/
theorem aged_lapsed {limit : Nat} (v : UnitRecord) :
    (if v.lapses limit = true then { v.aged with status := .lapsed, lane := none } else v.aged) =
      if v.lapses limit = true then { v with age := v.age + 1, status := .lapsed, lane := none }
      else if v.ages = true then { v with age := v.age + 1 } else v := by
  by_cases hl : v.lapses limit = true
  · have ha : v.ages = true := (Bool.and_eq_true_iff.1 hl).1
    simp [hl, UnitRecord.aged, ha]
  · simp [hl, UnitRecord.aged]

theorem onlyChanges_setAgeing (s : State) (t : Timer) : OnlyChanges [.ageing] s (s.setAgeing t) := fun b hb => by
  cases b with
  | ageing => simp at hb
  | _ => rfl

theorem lapse_blocks_subset : [Block.link, .units, .stb, .ramp .a, .ramp .b] ++ anyLane ⊆
    [Block.link, .units, .ageing, .stb, .ramp .a, .ramp .b, .alc] ++ anyLane := by
  intro b hb
  simp only [List.mem_append, List.mem_cons] at hb ⊢
  tauto

theorem alc_foldl_lapse (refs : List Ref) (s : State) : (refs.foldl State.lapse s).alc = s.alc := by
  induction refs generalizing s with
  | nil => rfl
  | cons ref refs ih => exact (ih _).trans (by simp [State.lapse])

/-- What an expiry leaves, whether or not a walk is asked for after the lapses. -/
theorem ageing_outcome {s u : State} {n : Nat} (hlaw : ReservationLaw s)
    (hu : OnlyChanges [.alc] (s.gone.foldl State.lapse (s.setAgeing (some n)).ageAll) u) :
    u.ageing = some n ∧
      (∀ ref, u.unit? ref = (s.unit? ref).map fun v =>
        if v.lapses s.vessel.ageLimit = true then { v with age := v.age + 1, status := .lapsed, lane := none }
        else if v.ages = true then { v with age := v.age + 1 } else v) ∧
      LanesReleased s u s.gone ∧ SumsReleased s u s.gone ∧ QueuesReleased s u s.gone ∧ Notified s u [] ∧ OnlyNews s u ∧
      OnlyChanges ([.link, .units, .ageing, .stb, .ramp .a, .ramp .b, .alc] ++ anyLane) s u := by
  have hw : Lapses (s.setAgeing (some n)).ageAll (s.gone.foldl State.lapse (s.setAgeing (some n)).ageAll) s.gone :=
    lapses_foldl (lapseReady_of_law (s := s.setAgeing (some n)) hlaw)
  generalize s.gone.foldl State.lapse (s.setAgeing (some n)).ageAll = w at hu hw
  have hlink : u.link = w.link := hu .link (by simp)
  have hunits : u.units = w.units := hu .units (by simp)
  refine ⟨?_, fun ref => ?_, ?_, ?_, ?_, ?_, ?_, ?_⟩
  · exact (hu .ageing (by simp)).trans (hw.frame .ageing (by simp [anyLane]))
  · have hunit : u.unit? ref = w.unit? ref := by unfold State.unit?; rw [hunits]
    rw [hunit, hw.unit, unit_ageAll, Option.map_map]
    refine Option.map_congr fun v hv => ?_
    exact (if_congr (mem_gone_iff hlaw.rise hv) rfl rfl).trans (aged_lapsed v)
  · exact lanesReleased_ageAll fun l => (hu (.lane l) (by simp)).trans (hw.lanes l)
  · refine sumsReleased_ageAll (s := s.setAgeing (some n)) ?_
    have hstb : u.stb = w.stb := hu .stb (by simp)
    unfold SumsReleased
    rw [hstb]
    exact hw.sums
  · intro r
    obtain ⟨hramp, hpend⟩ := hw.queues r
    refine ⟨(hu (.ramp r) (by simp)).trans hramp, ?_⟩
    have : u.isPending (.gateHold r) = w.isPending (.gateHold r) := by unfold State.isPending; rw [hlink]
    rw [this]
    exact hpend
  · unfold Notified
    rw [hlink]
    exact hw.notified
  · exact hw.news.trans (onlyNews_of_link hlink)
  · have haged : OnlyChanges [.ageing, .units] s (s.setAgeing (some n)).ageAll :=
      .trans ((onlyChanges_setAgeing s _).mono (by simp)) ((onlyChanges_setUnits _ _).mono (by simp))
    exact .trans (haged.mono (by simp)) (.trans (hw.frame.mono lapse_blocks_subset) (hu.mono (by simp)))

/-- Settles O14: all age, those at the limit lapse one after another, and a walk is asked for if one did. -/
theorem ageingExpiryAgesAndLapses : Obligations.AgeingExpiryAgesAndLapses := by
  unfold Obligations.AgeingExpiryAgesAndLapses
  intro s
  have hx : exec .ageingExpiry s = execAgeingExpiry s := rfl
  refine ⟨fun hstopped => ?_, fun hruns hlaw => ?_⟩
  · rw [hx, execAgeingExpiry, hstopped]
    rfl
  · have hlapsing : (s.setAgeing (some s.agePeriodMs)).ageAll.lapsing = s.gone := lapsing_ageAll _
    rw [hx, execAgeingExpiry, if_pos hruns]
    dsimp only
    rw [hlapsing]
    have halc := alc_foldl_lapse s.gone (s.setAgeing (some s.agePeriodMs)).ageAll
    by_cases hgone : s.gone = []
    · obtain ⟨htimer, hunit, hlanes, hsums, hqueues, hnotified, hnews, hframe⟩ := ageing_outcome hlaw (n := s.agePeriodMs) (.refl _ _)
      rw [if_pos (by simp [hgone])]
      refine ⟨_, rfl, htimer, hunit, hlanes, hsums, hqueues, ?_, hnotified, hnews, hframe⟩
      exact (if_pos hgone).mpr halc
    · obtain ⟨htimer, hunit, hlanes, hsums, hqueues, hnotified, hnews, hframe⟩ :=
        ageing_outcome hlaw (n := s.agePeriodMs) (onlyChanges_triggerWalk _)
      obtain ⟨hunplaced, hwalk⟩ := triggerWalk_lists (s.gone.foldl State.lapse (s.setAgeing (some s.agePeriodMs)).ageAll)
      rw [if_neg (by simp [hgone])]
      refine ⟨_, rfl, htimer, hunit, hlanes, hsums, hqueues, ?_, hnotified, hnews, hframe⟩
      exact (if_neg hgone).mpr ⟨(walkAsked_triggerWalk _).of_eq halc, hunplaced.trans (congrArg Allocator.unplaced halc),
        hwalk.trans (congrArg Allocator.walk halc)⟩

end Sys2Proof.Machine

namespace Sys2Proof.Machine

open Sys2Proof

/-! ## The order of the lane lists (R26, R104) -/

/-- A lane's share of its ramp's called list: the entries whose records hold the lane. -/
def calledIn (s : State) (l : Lane) : List Ref :=
  (s.ramp (s.laneFixed l).ramp).called.filter fun ref => decide (laneOf s ref = some l)

/-- LaneOrderLaw, with what the parts of an event need beside it: each lane's list names each unit once, and only units
whose records hold the lane. -/
structure LanesOrdered (s : State) : Prop where
  nodup : ∀ l, (s.lane l).reservations.Nodup
  housed : ∀ l, ∀ ref ∈ (s.lane l).reservations, laneOf s ref = some l
  order : LaneOrderLaw s

/-- A reference stands in a reservation list or a called list. -/
def Listed (s : State) (ref : Ref) : Prop :=
  (∃ l, ref ∈ (s.lane l).reservations) ∨ ∃ r, ref ∈ (s.ramp r).called

/-- Two states agree on the reservation lists and the called lists, and on status and lane of the units in them. -/
structure Agrees (s u : State) : Prop where
  ramps : ∀ l, (u.laneFixed l).ramp = (s.laneFixed l).ramp
  reservations : ∀ l, (u.lane l).reservations = (s.lane l).reservations
  called : ∀ r, (u.ramp r).called = (s.ramp r).called
  units : ∀ q, Listed s q → u.statusOf q = s.statusOf q ∧ laneOf u q = laneOf s q

/-- Two states agree on all that, but for one unit. -/
structure AgreesBut (ref : Ref) (s u : State) : Prop where
  ramps : ∀ l, (u.laneFixed l).ramp = (s.laneFixed l).ramp
  reservations : ∀ l, (u.lane l).reservations.filter (· != ref) = (s.lane l).reservations.filter (· != ref)
  called : ∀ r, (u.ramp r).called.filter (· != ref) = (s.ramp r).called.filter (· != ref)
  units : ∀ q, q ≠ ref → Listed s q → u.statusOf q = s.statusOf q ∧ laneOf u q = laneOf s q

theorem Agrees.listed {s u : State} (h : Agrees s u) (q : Ref) : Listed u q ↔ Listed s q := by
  simp only [Listed, h.reservations, h.called]

theorem Agrees.refl (s : State) : Agrees s s := ⟨fun _ => rfl, fun _ => rfl, fun _ => rfl, fun _ _ => ⟨rfl, rfl⟩⟩

theorem Agrees.trans {s t u : State} (h : Agrees s t) (k : Agrees t u) : Agrees s u where
  ramps l := (k.ramps l).trans (h.ramps l)
  reservations l := (k.reservations l).trans (h.reservations l)
  called r := (k.called r).trans (h.called r)
  units q hq := by
    obtain ⟨hs, hl⟩ := h.units q hq
    obtain ⟨ks, kl⟩ := k.units q ((h.listed q).2 hq)
    exact ⟨ks.trans hs, kl.trans hl⟩

theorem Agrees.but {s u : State} (h : Agrees s u) (ref : Ref) : AgreesBut ref s u :=
  ⟨h.ramps, fun l => by rw [h.reservations], fun r => by rw [h.called], fun q _ => h.units q⟩

theorem AgreesBut.listed {ref q : Ref} {s u : State} (h : AgreesBut ref s u) (hq : q ≠ ref) :
    Listed u q ↔ Listed s q := by
  have mem {xs : List Ref} : q ∈ xs ↔ q ∈ xs.filter (· != ref) := by simp [hq]
  unfold Listed
  refine or_congr (exists_congr fun l => ?_) (exists_congr fun r => ?_)
  · rw [mem, h.reservations, ← mem]
  · rw [mem, h.called, ← mem]

theorem AgreesBut.trans {ref : Ref} {s t u : State} (h : AgreesBut ref s t) (k : AgreesBut ref t u) :
    AgreesBut ref s u where
  ramps l := (k.ramps l).trans (h.ramps l)
  reservations l := (k.reservations l).trans (h.reservations l)
  called r := (k.called r).trans (h.called r)
  units q hne hq := by
    obtain ⟨hs, hl⟩ := h.units q hne hq
    obtain ⟨ks, kl⟩ := k.units q hne ((h.listed hne).2 hq)
    exact ⟨ks.trans hs, kl.trans hl⟩

theorem Agrees.share {s u : State} (h : Agrees s u) (l : Lane) : calledIn u l = calledIn s l := by
  unfold calledIn
  rw [h.ramps, h.called]
  refine List.filter_congr fun q hq => ?_
  rw [(h.units q (.inr ⟨_, hq⟩)).2]

theorem LanesOrdered.split {s : State} (h : LanesOrdered s) (l : Lane) : ∃ behind,
    (s.lane l).reservations = calledIn s l ++ behind ∧ ∀ ref ∈ behind, s.statusOf ref = some .waiting := by
  obtain ⟨ahead, behind, hr, hb, rfl⟩ := h.order l
  exact ⟨behind, hr, hb⟩

/-- An operation that leaves the lists alone keeps their order. -/
theorem Agrees.ordered {s u : State} (h : Agrees s u) (hs : LanesOrdered s) : LanesOrdered u where
  nodup l := by rw [h.reservations]; exact hs.nodup l
  housed l ref hr := by
    rw [h.reservations] at hr
    exact (h.units ref (.inl ⟨l, hr⟩)).2.trans (hs.housed l ref hr)
  order l := by
    obtain ⟨behind, hr, hb⟩ := hs.split l
    refine ⟨calledIn u l, behind, by rw [h.reservations, h.share, hr], fun ref hm => ?_, rfl⟩
    have hmem : ref ∈ (s.lane l).reservations := hr ▸ List.mem_append_right _ hm
    exact (h.units ref (.inl ⟨l, hmem⟩)).1.trans (hb ref hm)

theorem filter_ne_of_notMem {xs : List Ref} {ref : Ref} (h : ref ∉ xs) : xs.filter (· != ref) = xs :=
  List.filter_eq_self.2 fun q hq => by simpa using fun e : q = ref => h (e ▸ hq)

/-- What becomes of the lane lists when one unit is gone from them: the others keep their order. -/
theorem AgreesBut.ordered {ref : Ref} {s u : State} (h : AgreesBut ref s u) (hs : LanesOrdered s)
    (hres : ∀ l, ref ∉ (u.lane l).reservations) (hcal : ∀ l, ref ∉ calledIn u l) : LanesOrdered u := by
  have lists (l : Lane) : (u.lane l).reservations = (s.lane l).reservations.filter (· != ref) := by
    rw [← h.reservations, filter_ne_of_notMem (hres l)]
  have share (l : Lane) : calledIn u l = (calledIn s l).filter (· != ref) := by
    rw [← filter_ne_of_notMem (hcal l)]
    unfold calledIn
    rw [List.filter_filter, List.filter_filter, h.ramps]
    simp only [Bool.and_comm _ (decide _)]
    rw [← List.filter_filter, ← List.filter_filter, h.called]
    refine List.filter_congr fun q hq => ?_
    obtain ⟨hq, hne⟩ := List.mem_filter.1 hq
    rw [(h.units q (by simpa using hne) (.inr ⟨_, hq⟩)).2]
  refine ⟨fun l => by rw [lists]; exact (hs.nodup l).filter _, fun l q hq => ?_, fun l => ?_⟩
  · rw [lists] at hq
    obtain ⟨hq, hne⟩ := List.mem_filter.1 hq
    exact (h.units q (by simpa using hne) (.inl ⟨l, hq⟩)).2.trans (hs.housed l q hq)
  · obtain ⟨behind, hr, hb⟩ := hs.split l
    refine ⟨calledIn u l, behind.filter (· != ref), by rw [lists, share, hr, List.filter_append], fun q hm => ?_, rfl⟩
    obtain ⟨hm, hne⟩ := List.mem_filter.1 hm
    have hmem : q ∈ (s.lane l).reservations := hr ▸ List.mem_append_right _ hm
    exact (h.units q (by simpa using hne) (.inl ⟨l, hmem⟩)).1.trans (hb q hm)

/-- Empty lists are in order. -/
theorem lanesOrdered_of_empty {s : State} (hl : ∀ l, (s.lane l).reservations = [])
    (hr : ∀ r, (s.ramp r).called = []) : LanesOrdered s :=
  ⟨fun l => by simp [hl l], fun l ref h => by simp [hl l] at h, fun l => ⟨[], [], by simp [hl l], nofun, by simp [hr]⟩⟩

end Sys2Proof.Machine

namespace Sys2Proof.Machine

open Sys2Proof

/-! ## What each operation leaves of the lane lists and the called lists -/

section

variable (s : State)

@[simp] theorem called_setGate (r q : Ramp) (g : Bool) : ((s.setGate r g).ramp q).called = (s.ramp q).called := by
  by_cases h : q = r
  · rw [h, setGate_ramp]
  · rw [setGate_other _ _ h]

@[simp] theorem called_examineGate (r q : Ramp) : ((s.examineGate r).ramp q).called = (s.ramp q).called :=
  called_setGate s r q _

@[simp] theorem called_setRampState (r q : Ramp) (x : RampState) :
    ((s.setRampState r x).ramp q).called = (s.ramp q).called := by
  by_cases h : q = r
  · rw [h, setRampState_ramp]
  · unfold State.setRampState; dsimp only; split <;> simp [State.ramp_setRamp_other _ _ h]

/-- A ramp's called list is changed only where the ramp's record is given another. -/
theorem called_setRamp {r : Ramp} {x : RampRun} (h : x.called = (s.ramp r).called) (q : Ramp) :
    ((s.setRamp r x).ramp q).called = (s.ramp q).called := by
  by_cases hq : q = r
  · rw [hq, State.ramp_setRamp_same, h]
  · rw [State.ramp_setRamp_other _ _ hq]

@[simp] theorem called_timeHead (r q : Ramp) : ((s.timeHead r).ramp q).called = (s.ramp q).called := by
  unfold State.timeHead; exact called_setRamp s (by rfl) q

@[simp] theorem called_joinQueue (r q : Ramp) (p b : Bool) (ref : Ref) :
    ((s.joinQueue r p b ref).ramp q).called = (s.ramp q).called := by
  unfold State.joinQueue
  rw [called_examineGate, called_setRamp]
  split <;> rfl

@[simp] theorem called_leaveQueue (r q : Ramp) (ref : Ref) :
    ((s.leaveQueue r ref).ramp q).called = (s.ramp q).called := by
  unfold State.leaveQueue
  dsimp only
  split
  · exact (called_examineGate _ r q).trans (called_setRamp s (by rfl) q)
  · rfl

@[simp] theorem called_release (q : Ramp) (ref : Ref) : ((s.release ref).ramp q).called = (s.ramp q).called := by
  unfold State.release
  split
  · rfl
  · split <;> simp

@[simp] theorem called_closeRamp (r q : Ramp) : ((s.closeRamp r).ramp q).called = (s.ramp q).called := by
  simp [State.closeRamp]

theorem called_leaveCalled (r : Ramp) (ref : Ref) :
    ((s.leaveCalled r ref).ramp r).called = (s.ramp r).called.erase ref := by
  rw [leaveCalled_ramp]

theorem reservations_setLane {l : Lane} {x : LaneRun} (h : x.reservations = (s.lane l).reservations) (k : Lane) :
    ((s.setLane l x).lane k).reservations = (s.lane k).reservations := by
  by_cases hk : k = l
  · rw [hk, State.lane_setLane_same, h]
  · rw [State.lane_setLane_other _ _ hk]

theorem reservations_leaveLane (l : Lane) (ref : Ref) :
    ((s.leaveLane l ref).lane l).reservations = (s.lane l).reservations.erase ref := by
  rw [laneLeft_leaveLane s l ref]

@[simp] theorem laneOf_leaveLane (l : Lane) (ref q : Ref) : laneOf (s.leaveLane l ref) q = laneOf s q := by
  simp [laneOf]

/-- A release leaves the unit's record without a lane, and every other record as it was. -/
theorem unitOf_release (ref q : Ref) :
    (s.release ref).unit? q = (s.unit? q).map fun u => if q = ref then { u with lane := none } else u := by
  cases h : s.unit? ref with
  | none =>
    rw [show s.release ref = s by simp [State.release, h]]
    cases hq : s.unit? q with
    | none => rfl
    | some v => simp [show q ≠ ref from fun e => by rw [e, h] at hq; cases hq]
  | some u =>
    cases hl : u.lane with
    | none =>
      rw [release_noLane h hl]
      by_cases hq : q = ref
      · rw [hq, h]; simp [← hl]
      · simp [hq]
    | some l =>
      rw [release_eq h hl]
      exact (unitOf_modUnit _ ref q (fun u => { u with lane := none }) fun _ => rfl).trans (by simp)

theorem laneOf_release (ref q : Ref) : laneOf (s.release ref) q = if q = ref then none else laneOf s q := by
  unfold laneOf
  rw [unitOf_release]
  cases s.unit? q with
  | none => simp
  | some u => by_cases hq : q = ref <;> simp [hq]

@[simp] theorem statusOf_release (ref q : Ref) : (s.release ref).statusOf q = s.statusOf q := by
  unfold State.statusOf
  rw [unitOf_release]
  cases s.unit? q with
  | none => rfl
  | some u => by_cases hq : q = ref <;> simp [hq]

theorem laneOf_modUnit_other {ref q : Ref} {f : UnitRecord → UnitRecord} (hf : KeepsRef f) (h : q ≠ ref) :
    laneOf (s.modUnit ref f) q = laneOf s q := by
  unfold laneOf; rw [unitOf_modUnit_other s f hf h]

theorem statusOf_modUnit_other {ref q : Ref} {f : UnitRecord → UnitRecord} (hf : KeepsRef f) (h : q ≠ ref) :
    (s.modUnit ref f).statusOf q = s.statusOf q := by
  unfold State.statusOf; rw [unitOf_modUnit_other s f hf h]

/-- A change of a record that keeps its lane. -/
theorem laneOf_modUnit_same (ref q : Ref) {f : UnitRecord → UnitRecord} (hf : KeepsRef f)
    (h : ∀ u, (f u).lane = u.lane) : laneOf (s.modUnit ref f) q = laneOf s q := by
  unfold laneOf
  rw [unitOf_modUnit s ref q f hf]
  cases s.unit? q with
  | none => rfl
  | some u => by_cases hq : q = ref <;> simp [hq, h]

@[simp] theorem laneOf_returnToWaiting (r : Ramp) (back : Bool) (ref q : Ref) :
    laneOf (s.returnToWaiting r back ref) q = laneOf s q := by
  have h := laneOf_modUnit_same (s.leaveCalled r ref) ref q (f := fun u => { u with status := .waiting, age := 0 })
    (fun _ => rfl) fun _ => rfl
  simpa [State.returnToWaiting, laneOf] using h

@[simp] theorem laneOf_setStatus (ref q : Ref) (x : Status) : laneOf (s.setStatus ref x) q = laneOf s q :=
  laneOf_modUnit_same s ref q (fun _ => rfl) fun _ => rfl

/-- A change of a record that leaves it without a lane. -/
theorem laneOf_modUnit_none {ref : Ref} {f : UnitRecord → UnitRecord} (hf : KeepsRef f) (h : ∀ u, (f u).lane = none) :
    laneOf (s.modUnit ref f) ref = none := by
  unfold laneOf
  rw [unitOf_modUnit_self s ref f hf]
  cases s.unit? ref <;> simp [h]

theorem handOver_eq (ref : Ref) (l : Lane) :
    s.handOver ref l = (s.modUnit ref reallocatedRecord).handItem (.placement ref (.reallocation l)) := rfl

theorem keepsRef_reallocatedRecord : KeepsRef reallocatedRecord := fun _ => rfl

theorem laneOf_handOver (ref q : Ref) (l : Lane) :
    laneOf (s.handOver ref l) q = if q = ref then none else laneOf s q := by
  rw [handOver_eq]
  change laneOf (s.modUnit ref reallocatedRecord) q = _
  by_cases hq : q = ref
  · rw [if_pos hq, hq, laneOf_modUnit_none s keepsRef_reallocatedRecord fun _ => rfl]
  · rw [if_neg hq, laneOf_modUnit_other s keepsRef_reallocatedRecord hq]

/-! ## Operations that leave the lists alone -/

variable {s}

/-- Lists and records are as they were. -/
theorem agrees_of_tables {u : State} (hu : u.units = s.units) (hp : u.pst = s.pst)
    (hl : ∀ l, (u.lane l).reservations = (s.lane l).reservations) (hc : ∀ r, (u.ramp r).called = (s.ramp r).called) :
    Agrees s u :=
  ⟨fun l => by rw [laneFixed_congr hp], hl, hc, fun q _ => by
    simp only [State.statusOf, laneOf, State.unit?, hu, and_self]⟩

/-- What the arbiter and the link do is none of the lists' business. -/
theorem agrees_modLink (f : Link → Link) : Agrees s (s.modLink f) := { Agrees.refl s with }

theorem agrees_startTx (s : State) : Agrees s s.startTx := by
  rw [startTx_eq_modLink]; exact agrees_modLink _

theorem agrees_fill (s : State) (t : Ticket) (r : Reply) : Agrees s (s.fill t r) := agrees_modLink _

theorem agrees_notify (s : State) (n : Notice) : Agrees s (s.notify n) :=
  agrees_of_tables (by simp) (by simp) (by simp) (by simp)

theorem agrees_setAlc (s : State) (x : Allocator) : Agrees s (s.setAlc x) := { Agrees.refl s with }

theorem agrees_triggerWalk (s : State) : Agrees s s.triggerWalk :=
  agrees_of_tables (by simp) (by simp) (by simp) (by simp)

theorem agrees_setPlate (s : State) (r : Ramp) (x : Plate) : Agrees s (s.setPlate r x) := { Agrees.refl s with }

theorem agrees_setRamp {r : Ramp} {x : RampRun} (h : x.called = (s.ramp r).called) : Agrees s (s.setRamp r x) :=
  agrees_of_tables rfl rfl (fun _ => rfl) (called_setRamp s h)

theorem agrees_setRampState (s : State) (r : Ramp) (x : RampState) : Agrees s (s.setRampState r x) :=
  agrees_of_tables (by simp) (by simp) (by simp) (by simp)

theorem agrees_timeHead (s : State) (r : Ramp) : Agrees s (s.timeHead r) :=
  agrees_of_tables (by simp) (by simp) (by simp) (by simp)

theorem agrees_setLane {l : Lane} {x : LaneRun} (h : x.reservations = (s.lane l).reservations) :
    Agrees s (s.setLane l x) :=
  agrees_of_tables rfl rfl (reservations_setLane s h) fun _ => rfl

theorem agrees_closeRamp (s : State) (r : Ramp) : Agrees s (s.closeRamp r) :=
  .trans (agrees_setRampState s r _) (agrees_setPlate _ r _)

/-- A change of a record that keeps status and lane, or of a unit that stands in no list. -/
theorem agrees_modUnit {ref : Ref} {f : UnitRecord → UnitRecord} (hf : KeepsRef f)
    (h : Listed s ref → ∀ u, (f u).status = u.status ∧ (f u).lane = u.lane) : Agrees s (s.modUnit ref f) :=
  { Agrees.refl s with
    units := fun q hq => by
      by_cases he : q = ref
      · subst he
        unfold State.statusOf laneOf
        rw [unitOf_modUnit_self s q f hf]
        cases s.unit? q with
        | none => exact ⟨rfl, rfl⟩
        | some u => simp [h hq u]
      · exact ⟨statusOf_modUnit_other s hf he, laneOf_modUnit_other s hf he⟩ }

/-! ## Operations on one unit -/

theorem agreesBut_modUnit (s : State) (ref : Ref) {f : UnitRecord → UnitRecord} (hf : KeepsRef f) :
    AgreesBut ref s (s.modUnit ref f) :=
  { (Agrees.refl s).but ref with
    units := fun _ hq _ => ⟨statusOf_modUnit_other s hf hq, laneOf_modUnit_other s hf hq⟩ }

theorem filter_erase_ne (xs : List Ref) (ref : Ref) : (xs.erase ref).filter (· != ref) = xs.filter (· != ref) := by
  induction xs with
  | nil => rfl
  | cons x xs ih =>
    by_cases h : x = ref
    · subst h; simp
    · have hb : (x == ref) = false := by simpa using h
      simp [hb, h, ih]

theorem agreesBut_leaveLane (s : State) (l : Lane) (ref : Ref) : AgreesBut ref s (s.leaveLane l ref) where
  ramps k := by simp
  reservations k := by
    by_cases hk : k = l
    · subst hk; rw [reservations_leaveLane, filter_erase_ne]
    · rw [leaveLane_other _ _ hk]
  called r := by simp
  units q _ _ := by simp

theorem agreesBut_leaveCalled (s : State) (r : Ramp) (ref : Ref) : AgreesBut ref s (s.leaveCalled r ref) where
  ramps k := by simp
  reservations k := by simp
  called q := by
    by_cases hq : q = r
    · subst hq; rw [called_leaveCalled, filter_erase_ne]
    · rw [leaveCalled_other _ _ hq]
  units q _ _ := by simp [laneOf]

theorem agreesBut_release (s : State) (ref : Ref) : AgreesBut ref s (s.release ref) where
  ramps k := by simp
  reservations k := by
    unfold State.release
    split
    · rfl
    · split
      · rfl
      · simpa using (agreesBut_leaveLane s _ ref).reservations k
  called r := by simp
  units q hq _ := by simp [laneOf_release, hq]

theorem agreesBut_retire (s : State) (ref : Ref) : AgreesBut ref s (s.retire ref) where
  ramps k := by simp
  reservations k := by simp
  called r := by simp
  units q hq _ := by simp [State.statusOf, laneOf, unitOf_retire, hq]

theorem agreesBut_handOver (s : State) (ref : Ref) (l : Lane) : AgreesBut ref s (s.handOver ref l) :=
  (agreesBut_modUnit s ref keepsRef_reallocatedRecord).trans ((agrees_setAlc _ _).but ref)

end

end Sys2Proof.Machine

namespace Sys2Proof.Machine

open Sys2Proof

/-! ## What the reservation law says of the units in the lists (R26, R104) -/

/-- A reserved unit's record holds the lane, and waits, is called or crosses. -/
theorem ReservationLaw.reserved {s : State} (h : ReservationLaw s) {l : Lane} {ref : Ref}
    (hr : ref ∈ (s.lane l).reservations) : ∃ v, s.unit? ref = some v ∧ v.lane = some l ∧
      (v.status = .waiting ∨ v.status = .called ∨ v.status = .crossing) := by
  obtain ⟨-, hstands, hlanes, -⟩ := h
  obtain ⟨-, hres, -⟩ := hlanes l
  obtain ⟨v, hv, hp⟩ := unitIs_iff.1 (hres ref hr)
  simp only [Bool.and_eq_true, decide_eq_true_eq] at hp
  obtain ⟨hl, ha⟩ := hp
  have hs := hstands v (unit_mem hv)
  refine ⟨v, hv, hl, ?_⟩
  unfold recordStands at hs
  rw [hl] at hs
  cases hst : v.status <;> simp [hst] at hs ha ⊢

/-- A unit in a called list is CALLED in a lane of the ramp, or stands on the ramp's plate. -/
theorem ReservationLaw.calledUnit {s : State} (h : ReservationLaw s) {r : Ramp} {ref : Ref}
    (hr : ref ∈ (s.ramp r).called) : ∃ v, s.unit? ref = some v ∧
      ((v.status = .called ∧ ∃ l, v.lane = some l ∧ (s.laneFixed l).ramp = r) ∨
        (v.status = .crossing ∧ (s.plate r).unit = some ref)) := by
  obtain ⟨-, -, -, hramps, -⟩ := h
  obtain ⟨-, -, -, -, hcalled, -⟩ := hramps r
  obtain ⟨v, hv, hp⟩ := unitIs_iff.1 (hcalled ref hr)
  simp only [Bool.or_eq_true, Bool.and_eq_true, decide_eq_true_eq] at hp
  refine ⟨v, hv, hp.imp_left fun ⟨hs, hl⟩ => ⟨hs, ?_⟩⟩
  simpa [Option.any_eq_true] using hl

/-- The unit on a plate heads the ramp's called list and crosses from a lane of the ramp, if it holds one. -/
theorem ReservationLaw.onPlate {s : State} (h : ReservationLaw s) {r : Ramp} {ref : Ref}
    (hr : (s.plate r).unit = some ref) : (s.ramp r).called.head? = some ref ∧
      ∃ v, s.unit? ref = some v ∧ v.status = .crossing ∧ ∀ l, v.lane = some l → (s.laneFixed l).ramp = r := by
  obtain ⟨-, -, -, hramps, -⟩ := h
  obtain ⟨-, -, -, -, -, hplate, -⟩ := hramps r
  obtain ⟨-, hhead, hunit⟩ := hplate ref hr
  obtain ⟨v, hv, hp⟩ := unitIs_iff.1 hunit
  simp only [Bool.and_eq_true, decide_eq_true_eq] at hp
  refine ⟨hhead, v, hv, hp.1, fun l hl => ?_⟩
  simpa [hl] using hp.2

theorem ReservationLaw.called_nodup {s : State} (h : ReservationLaw s) (r : Ramp) : (s.ramp r).called.Nodup := by
  obtain ⟨-, -, -, hramps, -⟩ := h
  exact (hramps r).2.1

/-- The units in the lists wait, are called or cross. -/
theorem ReservationLaw.listed {s : State} (h : ReservationLaw s) {ref : Ref} (hr : Listed s ref) :
    ∃ v, s.unit? ref = some v ∧ (v.status = .waiting ∨ v.status = .called ∨ v.status = .crossing) := by
  rcases hr with ⟨l, hr⟩ | ⟨r, hr⟩
  · obtain ⟨v, hv, -, hs⟩ := h.reserved hr
    exact ⟨v, hv, hs⟩
  · obtain ⟨v, hv, ⟨hs, -⟩ | ⟨hs, -⟩⟩ := h.calledUnit hr
    · exact ⟨v, hv, .inr (.inl hs)⟩
    · exact ⟨v, hv, .inr (.inr hs)⟩

theorem ReservationLaw.unlisted {s : State} (h : ReservationLaw s) {ref : Ref} {v : UnitRecord}
    (hv : s.unit? ref = some v) (hw : v.status ≠ .waiting) (hc : v.status ≠ .called) (hx : v.status ≠ .crossing) :
    ¬ Listed s ref := fun hr => by
  obtain ⟨w, hw', hs⟩ := h.listed hr
  obtain rfl := Option.some.inj (hv.symm.trans hw')
  tauto

theorem ReservationLaw.unknown_unlisted {s : State} (h : ReservationLaw s) {ref : Ref} (hn : s.unit? ref = none) :
    ¬ Listed s ref := fun hr => by
  obtain ⟨w, hw, -⟩ := h.listed hr
  exact nomatch hn.symm.trans hw

/-- Where every record is BOOKED nothing is reserved and nothing called. -/
theorem ReservationLaw.no_lists {s : State} (h : ReservationLaw s) (hb : ∀ v ∈ s.units, v.status = .booked) :
    (∀ l, (s.lane l).reservations = []) ∧ ∀ r, (s.ramp r).called = [] := by
  have hn (ref : Ref) : ¬ Listed s ref := fun hr => by
    obtain ⟨v, hv, hs⟩ := h.listed hr
    simp [hb v (unit_mem hv)] at hs
  exact ⟨fun l => List.eq_nil_iff_forall_not_mem.2 fun ref hr => hn ref (.inl ⟨l, hr⟩),
    fun r => List.eq_nil_iff_forall_not_mem.2 fun ref hr => hn ref (.inr ⟨r, hr⟩)⟩

/-- The laws under which a step keeps the order of the lane lists. -/
structure OrderReady (s : State) : Prop where
  law : ReservationLaw s
  order : LaneOrderLaw s

theorem OrderReady.lanes {s : State} (h : OrderReady s) : LanesOrdered s where
  nodup l := by
    obtain ⟨-, -, hlanes, -⟩ := h.law
    exact (hlanes l).1
  housed l ref hr := by
    obtain ⟨v, hv, hl, -⟩ := h.law.reserved hr
    simp [laneOf, hv, hl]
  order := h.order

/-! ## Units that leave the lists -/

variable {s : State}

theorem notMem_calledIn_of_laneless {ref : Ref} (h : laneOf s ref = none) (l : Lane) : ref ∉ calledIn s l := by
  simp [calledIn, h]

theorem LanesOrdered.notMem_of_laneless (hs : LanesOrdered s) {ref : Ref} (h : laneOf s ref = none) (l : Lane) :
    ref ∉ (s.lane l).reservations := fun hr => nomatch h.symm.trans (hs.housed l ref hr)

/-- A released unit stands in no reservation list. -/
theorem notMem_release (hn : ∀ l, (s.lane l).reservations.Nodup)
    (hh : ∀ l, ∀ q ∈ (s.lane l).reservations, laneOf s q = some l) (ref : Ref) (l : Lane) :
    ref ∉ ((s.release ref).lane l).reservations := by
  have same (e : laneOf s ref = none) : ref ∉ (s.lane l).reservations := fun hr => nomatch e.symm.trans (hh l ref hr)
  cases hu : s.unit? ref with
  | none =>
    rw [show s.release ref = s by simp [State.release, hu]]
    exact same (by simp [laneOf, hu])
  | some u =>
    cases hl : u.lane with
    | none => rw [release_noLane hu hl]; exact same (by simp [laneOf, hu, hl])
    | some k =>
      have hlane : ((s.release ref).lane l).reservations = ((s.leaveLane k ref).lane l).reservations := by
        rw [release_eq hu hl]; simp
      rw [hlane]
      by_cases hk : l = k
      · subst hk; rw [reservations_leaveLane]; exact (hn l).not_mem_erase
      · rw [leaveLane_other _ _ hk]
        intro hr
        have := hh l ref hr
        simp [laneOf, hu, hl] at this
        exact hk this.symm

theorem LanesOrdered.release (hs : LanesOrdered s) (ref : Ref) : LanesOrdered (s.release ref) :=
  (agreesBut_release s ref).ordered hs (notMem_release hs.nodup hs.housed ref)
    (notMem_calledIn_of_laneless (by simp [laneOf_release]))

/-- A unit without a lane that stays without one. -/
theorem AgreesBut.ordered_laneless {u : State} {ref : Ref} (h : AgreesBut ref s u) (hs : LanesOrdered s)
    (hn : laneOf s ref = none) (hr : ∀ l, (u.lane l).reservations = (s.lane l).reservations)
    (hl : laneOf u ref = none) : LanesOrdered u :=
  h.ordered hs (fun l => by rw [hr]; exact hs.notMem_of_laneless hn l) (notMem_calledIn_of_laneless hl)

theorem LanesOrdered.handOver (hs : LanesOrdered s) {ref : Ref} (hn : laneOf s ref = none) (l : Lane) :
    LanesOrdered (s.handOver ref l) :=
  (agreesBut_handOver s ref l).ordered_laneless hs hn (by simp) (by simp [laneOf_handOver])

theorem LanesOrdered.retire (hs : LanesOrdered s) {ref : Ref} (hn : laneOf s ref = none) : LanesOrdered (s.retire ref) :=
  (agreesBut_retire s ref).ordered_laneless hs hn (by simp) (by simp [laneOf, unitOf_retire])

theorem LanesOrdered.leaveCalled (hs : LanesOrdered s) {ref : Ref} (hn : laneOf s ref = none) (r : Ramp) :
    LanesOrdered (s.leaveCalled r ref) :=
  (agreesBut_leaveCalled s r ref).ordered_laneless hs hn (by simp) (by simpa [laneOf] using hn)

/-- A change of a record that leaves a unit without a lane. -/
theorem LanesOrdered.modUnit (hs : LanesOrdered s) {ref : Ref} (hn : laneOf s ref = none) {f : UnitRecord → UnitRecord}
    (hf : KeepsRef f) (hl : ∀ u, u.lane = none → (f u).lane = none) : LanesOrdered (s.modUnit ref f) := by
  refine (agreesBut_modUnit s ref hf).ordered_laneless hs hn (by simp) ?_
  unfold laneOf at hn ⊢
  rw [unitOf_modUnit_self s ref f hf]
  cases hu : s.unit? ref with
  | none => rfl
  | some u => exact hl u (by simpa [hu] using hn)

theorem LanesOrdered.setStatus (hs : LanesOrdered s) {ref : Ref} (hn : laneOf s ref = none) (x : Status) :
    LanesOrdered (s.setStatus ref x) := hs.modUnit hn (fun _ => rfl) fun _ => id

theorem LanesOrdered.lapse (hs : LanesOrdered s) (ref : Ref) : LanesOrdered (s.lapse ref) :=
  (hs.release ref).setStatus (by simp [laneOf_release]) .lapsed

theorem LanesOrdered.releaseFromLane (hs : LanesOrdered s) (l : Lane) (ref : Ref) :
    LanesOrdered (s.releaseFromLane l ref) := by
  unfold State.releaseFromLane
  dsimp only
  split
  · exact (hs.release ref).leaveCalled (by simp [laneOf_release]) _
  · exact hs.release ref

theorem laneOf_releaseFromLane (l : Lane) (ref q : Ref) :
    laneOf (s.releaseFromLane l ref) q = if q = ref then none else laneOf s q := by
  rw [← laneOf_release]
  unfold State.releaseFromLane
  dsimp only
  split
  · simp [laneOf]
  · rfl

/-- A CALLED unit that a ramp close releases (R106). -/
theorem LanesOrdered.closeCalled (hs : LanesOrdered s) (r : Ramp) (ref : Ref) : LanesOrdered (s.closeCalled r ref) := by
  have h : AgreesBut ref s (s.closeCalled r ref) :=
    .trans (agreesBut_leaveCalled s r ref) (.trans ((agrees_notify _ _).but ref) (agreesBut_release _ ref))
  refine h.ordered hs (notMem_release (by simpa using hs.nodup) (fun l q hq => ?_) ref)
    (notMem_calledIn_of_laneless (by simp [State.closeCalled, laneOf_release]))
  simpa [laneOf] using hs.housed l q (by simpa using hq)

/-- Operations on several units, one after another. -/
theorem LanesOrdered.foldl {f : State → Ref → State} (h : ∀ s, LanesOrdered s → ∀ ref, LanesOrdered (f s ref))
    (refs : List Ref) (hs : LanesOrdered s) : LanesOrdered (refs.foldl f s) := by
  induction refs generalizing s with
  | nil => exact hs
  | cons ref refs ih => exact ih (h s hs ref)

/-- Operations that need a unit without a lane, and give none a lane. -/
theorem LanesOrdered.foldl_laneless {f : State → Ref → State}
    (h : ∀ s, LanesOrdered s → ∀ ref, laneOf s ref = none → LanesOrdered (f s ref))
    (hl : ∀ s ref q, laneOf s q = none → laneOf (f s ref) q = none) {refs : List Ref} (hs : LanesOrdered s)
    (hn : ∀ ref ∈ refs, laneOf s ref = none) : LanesOrdered (refs.foldl f s) := by
  induction refs generalizing s with
  | nil => exact hs
  | cons ref refs ih =>
    exact ih (h s hs ref (hn ref (.head _))) fun q hq => hl s ref q (hn q (.tail _ hq))

/-- Units that have been released stay without a lane. -/
theorem laneless_foldl {f : State → Ref → State} (h : ∀ s ref q, laneOf (f s ref) q = if q = ref then none else laneOf s q)
    (refs : List Ref) (s : State) {q : Ref} (hq : q ∈ refs ∨ laneOf s q = none) : laneOf (refs.foldl f s) q = none := by
  induction refs generalizing s with
  | nil => simpa using hq
  | cons ref refs ih =>
    refine ih _ ?_
    rw [h]
    by_cases he : q = ref
    · exact .inr (if_pos he)
    · rw [if_neg he]
      simpa [he] using hq

theorem laneOf_handOver_none {ref q : Ref} {l : Lane} (h : laneOf s q = none) : laneOf (s.handOver ref l) q = none := by
  rw [laneOf_handOver]; split <;> simp [h]

theorem LanesOrdered.handOverAll (hs : LanesOrdered s) {refs : List Ref} (hn : ∀ ref ∈ refs, laneOf s ref = none)
    (l : Lane) : LanesOrdered (refs.foldl (fun s ref => s.handOver ref l) s) :=
  hs.foldl_laneless (fun _ ht _ hl => ht.handOver hl l) (fun _ _ _ => laneOf_handOver_none) hn

theorem LanesOrdered.reallocateAll (hs : LanesOrdered s) (refs : List Ref) (l : Lane) :
    LanesOrdered (s.reallocateAll refs l) :=
  LanesOrdered.handOverAll (LanesOrdered.foldl (fun _ ht => ht.release) refs hs)
    (fun _ hr => laneless_foldl (laneOf_release) refs s (.inl hr)) l

theorem ordered_uncallNotices (hs : LanesOrdered s) (r : Ramp) (x : UncallReason) (l : Option Lane) (refs : List Ref) :
    LanesOrdered (refs.foldl (fun s ref => s.uncallNotice r x l ref) s) :=
  LanesOrdered.foldl (fun _ ht _ => (agrees_notify _ _).ordered ht) refs hs

theorem laneOf_uncallNotice (r : Ramp) (x : UncallReason) (l : Option Lane) (ref q : Ref) :
    laneOf (s.uncallNotice r x l ref) q = laneOf s q := by simp [laneOf]

theorem laneOf_uncallNotices (r : Ramp) (x : UncallReason) (l : Option Lane) (refs : List Ref) (q : Ref) :
    laneOf (refs.foldl (fun s ref => s.uncallNotice r x l ref) s) q = laneOf s q := by
  induction refs generalizing s with
  | nil => rfl
  | cons ref refs ih => rw [List.foldl_cons, ih, laneOf_uncallNotice]

theorem LanesOrdered.refit (hs : LanesOrdered s) (l : Lane) : LanesOrdered (s.refit l).1 := by
  unfold State.refit
  dsimp only
  generalize (s.lane l).reservations.drop _ = gone
  have h1 := LanesOrdered.foldl (f := fun s ref => s.releaseFromLane l ref) (fun _ ht => ht.releaseFromLane l) gone.reverse hs
  have h2 := ordered_uncallNotices h1 (s.laneFixed l).ramp .released none (s.withStatus .called gone)
  have h3 := h2.handOverAll (refs := s.reallocated gone) (fun ref hr => ?_) l
  · split
    · exact h3
    · exact (agrees_triggerWalk _).ordered h3
  · rw [laneOf_uncallNotices]
    refine laneless_foldl (fun s ref q => laneOf_releaseFromLane l ref q) _ s (.inl ?_)
    exact List.mem_reverse.2 (List.mem_filter.1 hr).1

theorem LanesOrdered.withdraw (hs : LanesOrdered s) (l : Lane) : LanesOrdered (s.withdraw l).1 := by
  unfold State.withdraw
  split
  · exact hs
  · dsimp only
    have h1 : LanesOrdered ((s.setLane l { s.lane l with state := .withdrawn }).notify
        (.laneWithdrawn l (s.laneFixed l).deck)) :=
      (agrees_notify _ _).ordered ((agrees_setLane (by rfl)).ordered hs)
    refine LanesOrdered.handOverAll (LanesOrdered.foldl (fun t ht ref => ?_) _ h1) (fun ref hr => ?_) l
    · split
      · exact (agrees_notify _ _).ordered (ht.releaseFromLane l ref)
      · exact ht.releaseFromLane l ref
    · refine laneless_foldl (fun t ref q => ?_) _ _ (.inl (List.mem_filter.1 hr).1)
      rw [← laneOf_releaseFromLane (s := t) l ref q]
      split
      · exact laneOf_uncallNotice _ _ _ _ _
      · rfl

end Sys2Proof.Machine

namespace Sys2Proof.Machine

open Sys2Proof

variable {s : State}

/-! ## Units that join a lane's list, are called, and are uncalled (R73, R112, R117) -/

theorem laneOf_modUnit_self {ref : Ref} {f : UnitRecord → UnitRecord} (hf : KeepsRef f) {v : UnitRecord}
    (h : s.unit? ref = some v) : laneOf (s.modUnit ref f) ref = (f v).lane := by
  simp [laneOf, unitOf_modUnit_self s ref f hf, h]

theorem statusOf_modUnit_self {ref : Ref} {f : UnitRecord → UnitRecord} (hf : KeepsRef f) {v : UnitRecord}
    (h : s.unit? ref = some v) : (s.modUnit ref f).statusOf ref = some (f v).status := by
  simp [State.statusOf, unitOf_modUnit_self s ref f hf, h]

/-- A unit from outside the lists joins the end of a lane's list and waits (R73). -/
theorem LanesOrdered.reserve (hs : LanesOrdered s) {v w : UnitRecord} {l : Lane} (hk : s.unit? v.decl.ref = some w)
    (hn : ¬ Listed s v.decl.ref) : LanesOrdered (s.reserve v l) := by
  have hf : KeepsRef fun u => { u with status := .waiting, lane := some l, age := 0, mark := false } := fun _ => rfl
  have hne {q : Ref} (hq : Listed s q) : q ≠ v.decl.ref := fun e => hn (e ▸ hq)
  have hsame {q : Ref} (hq : q ≠ v.decl.ref) : (s.reserve v l).statusOf q = s.statusOf q ∧
      laneOf (s.reserve v l) q = laneOf s q := by
    unfold State.reserve
    exact ⟨(statusOf_modUnit_other _ hf hq).trans (by simp), (laneOf_modUnit_other _ hf hq).trans (by simp [laneOf])⟩
  have hlane : laneOf (s.reserve v l) v.decl.ref = some l := by
    unfold State.reserve
    exact laneOf_modUnit_self hf (v := w) (by simpa using hk)
  have hstatus : (s.reserve v l).statusOf v.decl.ref = some .waiting := by
    unfold State.reserve
    exact statusOf_modUnit_self hf (v := w) (by simpa using hk)
  have hres (k : Lane) : ((s.reserve v l).lane k).reservations =
      if k = l then (s.lane k).reservations ++ [v.decl.ref] else (s.lane k).reservations := by
    unfold State.reserve
    by_cases hkl : k = l
    · subst hkl; simp
    · simp [hkl, State.lane_setLane_other]
  have hcal (k : Lane) : calledIn (s.reserve v l) k = calledIn s k := by
    have hc (r : Ramp) : ((s.reserve v l).ramp r).called = (s.ramp r).called := by unfold State.reserve; simp
    have hr : (s.reserve v l).laneFixed k = s.laneFixed k := by simp
    unfold calledIn
    rw [hc, hr]
    exact List.filter_congr fun q hq => by rw [(hsame (hne (.inr ⟨_, hq⟩))).2]
  refine ⟨fun k => ?_, fun k q hq => ?_, fun k => ?_⟩
  · rw [hres]
    split
    · simpa using (hs.nodup k).concat fun hm => hn (.inl ⟨k, hm⟩)
    · exact hs.nodup k
  · rw [hres] at hq
    have hold (hm : q ∈ (s.lane k).reservations) : laneOf (s.reserve v l) q = some k :=
      (hsame (hne (.inl ⟨k, hm⟩))).2.trans (hs.housed k q hm)
    split at hq
    · next hkl =>
      rcases List.mem_append.1 hq with hm | hm
      · exact hold hm
      · rw [List.mem_singleton.1 hm, hkl]; exact hlane
    · exact hold hq
  · obtain ⟨behind, hr, hb⟩ := hs.split k
    have hold : ∀ q ∈ behind, (s.reserve v l).statusOf q = some .waiting := fun q hm => by
      have hmem : q ∈ (s.lane k).reservations := hr ▸ List.mem_append_right _ hm
      exact (hsame (hne (.inl ⟨k, hmem⟩))).1.trans (hb q hm)
    refine ⟨calledIn s k, if k = l then behind ++ [v.decl.ref] else behind, ?_, ?_, (hcal k).symm⟩
    · rw [hres, hr]; split <;> simp
    · split
      · intro q hq
        rcases List.mem_append.1 hq with hm | hm
        · exact hold q hm
        · rw [List.mem_singleton.1 hm]; exact hstatus
      · exact hold

/-- Where units ahead in a list are all of one kind and the rest of another, the first of the rest comes next. -/
theorem eq_cons_of_takeWhile {xs behind : List Ref} {ref : Ref} {p : Ref → Prop} (hx : ref ∉ xs) (hm : ref ∈ behind)
    (hb : ∀ q ∈ behind, ¬ p q) (h : ∀ q ∈ (xs ++ behind).takeWhile (· != ref), p q) : ∃ rest, behind = ref :: rest := by
  cases behind with
  | nil => cases hm
  | cons q rest =>
    by_cases hq : q = ref
    · exact ⟨rest, by rw [hq]⟩
    · refine absurd (h q ?_) (hb q (.head _))
      rw [List.takeWhile_append_of_pos fun y hy => by simpa using fun e : y = ref => hx (e ▸ hy)]
      simp [hq]

/-- The state that a call leaves, but for its notice and timer (R112). -/
theorem makeCall_lists {r : Ramp} {v w : UnitRecord} {l : Lane} {credit : Nat} (hk : s.unit? v.decl.ref = some w) :
    (∀ k, ((s.makeCall r v l credit).lane k).reservations = (s.lane k).reservations) ∧
      (∀ q, ((s.makeCall r v l credit).ramp q).called =
        if q = r then (s.ramp q).called ++ [v.decl.ref] else (s.ramp q).called) ∧
      (∀ q, laneOf (s.makeCall r v l credit) q = laneOf s q) ∧
      (∀ q, q ≠ v.decl.ref → (s.makeCall r v l credit).statusOf q = s.statusOf q) ∧
      (s.makeCall r v l credit).statusOf v.decl.ref = some .called ∧
      ∀ k, (s.makeCall r v l credit).laneFixed k = s.laneFixed k := by
  have hf : KeepsRef fun u => { u with status := .called } := fun _ => rfl
  have hlane (q : Ref) : laneOf ((s.leaveQueue r v.decl.ref).setStatus v.decl.ref .called) q = laneOf s q :=
    (laneOf_setStatus _ _ _ _).trans (by simp [laneOf])
  have hother (q : Ref) (hq : q ≠ v.decl.ref) :
      ((s.leaveQueue r v.decl.ref).setStatus v.decl.ref .called).statusOf q = s.statusOf q :=
    (statusOf_modUnit_other _ hf hq).trans (by simp)
  have hself : ((s.leaveQueue r v.decl.ref).setStatus v.decl.ref .called).statusOf v.decl.ref = some .called :=
    statusOf_modUnit_self hf (v := w) (by simpa using hk)
  have hcalled (q : Ramp) : (((s.leaveQueue r v.decl.ref).setStatus v.decl.ref .called).ramp q).called =
      (s.ramp q).called := by simp
  have hres (k : Lane) : (((s.leaveQueue r v.decl.ref).setStatus v.decl.ref .called).lane k).reservations =
      (s.lane k).reservations := by simp
  have hfixed (k : Lane) : ((s.leaveQueue r v.decl.ref).setStatus v.decl.ref .called).laneFixed k = s.laneFixed k := by
    simp
  unfold State.makeCall
  dsimp only
  generalize (s.leaveQueue r v.decl.ref).setStatus v.decl.ref .called = t at hlane hother hself hcalled hres hfixed ⊢
  have hfinal (q : Ramp) : ((t.setRamp r
      { t.ramp r with
        called := (t.ramp r).called ++ [v.decl.ref], remaining := (t.ramp r).remaining - v.decl.weight,
        credit := credit }).ramp q).called =
      if q = r then (s.ramp q).called ++ [v.decl.ref] else (s.ramp q).called := by
    by_cases hq : q = r
    · subst hq; simp [hcalled]
    · simp [hq, State.ramp_setRamp_other, hcalled]
  unfold laneOf at hlane ⊢
  split <;> simp [hlane, hself, hres, hfixed, hfinal] <;> exact hother

/-- The called unit was the first of those that waited in its lane, and is the last of the called ones there (R109, R112). -/
theorem LanesOrdered.makeCall (hs : LanesOrdered s) {r : Ramp} {v : UnitRecord} {l : Lane} {credit : Nat}
    (hv : s.unit? v.decl.ref = some v) (hl : v.lane = some l) (hr : (s.laneFixed l).ramp = r)
    (hm : v.decl.ref ∈ (s.lane l).reservations) (hc : v.decl.ref ∉ (s.ramp r).called)
    (ho : s.laneOrderMet v = true) : LanesOrdered (s.makeCall r v l credit) := by
  obtain ⟨hres, hcalled, hlane, hother, -, hfixed⟩ := makeCall_lists (r := r) (l := l) (credit := credit) hv
  have hlaneV : laneOf s v.decl.ref = some l := by simp [laneOf, hv, hl]
  have hshare (k : Lane) : calledIn (s.makeCall r v l credit) k =
      if k = l then calledIn s k ++ [v.decl.ref] else calledIn s k := by
    unfold calledIn
    rw [hfixed, hcalled]
    simp only [hlane]
    by_cases hk : k = l
    · subst hk; simp [hr, hlaneV]
    · have : laneOf s v.decl.ref ≠ some k := by rw [hlaneV]; simpa using Ne.symm hk
      split <;> simp [this]
  refine ⟨fun k => by rw [hres]; exact hs.nodup k, fun k q hq => ?_, fun k => ?_⟩
  · rw [hres] at hq; rw [hlane]; exact hs.housed k q hq
  · obtain ⟨behind, hlist, hb⟩ := hs.split k
    by_cases hk : k = l
    · subst hk
      have hnc : v.decl.ref ∉ calledIn s k := fun h => hc (hr ▸ (List.mem_filter.1 h).1)
      have hmb : v.decl.ref ∈ behind := (List.mem_append.1 (hlist ▸ hm)).resolve_left hnc
      obtain ⟨l', hl', hahead⟩ := laneOrderMet_iff.1 ho
      obtain rfl := Option.some.inj (hl.symm.trans hl')
      obtain ⟨rest, rfl⟩ := eq_cons_of_takeWhile (p := fun q => s.statusOf q = some .called ∨ s.statusOf q = some .crossing)
        hnc hmb (fun q hq => by simp [hb q hq]) (hlist ▸ hahead)
      refine ⟨calledIn (s.makeCall r v k credit) k, rest, by rw [hres, hshare, hlist]; simp, fun q hq => ?_, rfl⟩
      have hne : q ≠ v.decl.ref := by
        rintro rfl
        have hnd := hs.nodup k
        rw [hlist] at hnd
        exact (List.nodup_cons.1 (List.nodup_append.1 hnd).2.1).1 hq
      rw [hother q hne]
      exact hb q (.tail _ hq)
    · refine ⟨calledIn (s.makeCall r v l credit) k, behind, by rw [hres, hshare, if_neg hk, hlist], fun q hq => ?_, rfl⟩
      have hmem : q ∈ (s.lane k).reservations := hlist ▸ List.mem_append_right _ hq
      have hne : q ≠ v.decl.ref := by
        rintro rfl
        have := (hs.housed k _ hmem).symm.trans hlaneV
        exact hk (Option.some.inj this)
      rw [hother q hne]
      exact hb q hq

theorem filter_erase_of_neg {xs : List Ref} {ref : Ref} {p : Ref → Bool} (h : p ref = false) :
    (xs.erase ref).filter p = xs.filter p := by
  induction xs with
  | nil => rfl
  | cons x xs ih =>
    by_cases hx : x = ref
    · subst hx; simp [h]
    · have hb : (x == ref) = false := by simpa using hx
      simp [hb, List.filter_cons, ih]

theorem filter_erase_of_pos {xs : List Ref} {ref : Ref} {p : Ref → Bool} (h : p ref = true) :
    (xs.erase ref).filter p = (xs.filter p).erase ref := by
  induction xs with
  | nil => rfl
  | cons x xs ih =>
    by_cases hx : x = ref
    · subst hx; simp [h]
    · have hb : (x == ref) = false := by simpa using hx
      by_cases hp : p x = true <;> simp [hb, hp, ih]

/-- What the return of a unit to WAITING leaves of lists and records. -/
theorem returnToWaiting_lists {r : Ramp} {back : Bool} {ref : Ref} {w : UnitRecord} (hk : s.unit? ref = some w) :
    (∀ k, ((s.returnToWaiting r back ref).lane k).reservations = (s.lane k).reservations) ∧
      (∀ q, ((s.returnToWaiting r back ref).ramp q).called =
        if q = r then (s.ramp q).called.erase ref else (s.ramp q).called) ∧
      (∀ q, laneOf (s.returnToWaiting r back ref) q = laneOf s q) ∧
      (∀ q, q ≠ ref → (s.returnToWaiting r back ref).statusOf q = s.statusOf q) ∧
      (s.returnToWaiting r back ref).statusOf ref = some .waiting ∧
      ∀ k, (s.returnToWaiting r back ref).laneFixed k = s.laneFixed k := by
  have hf : KeepsRef fun u => { u with status := .waiting, age := 0 } := fun _ => rfl
  have hk' : (s.leaveCalled r ref).unit? ref = some w := by simpa using hk
  refine ⟨by simp, fun q => ?_, laneOf_returnToWaiting s r back ref, fun q hq => ?_, ?_, by simp⟩
  · unfold State.returnToWaiting
    rw [called_joinQueue]
    by_cases hq : q = r
    · subst hq; simpa using called_leaveCalled s q ref
    · simp [hq, leaveCalled_other]
  · have h := statusOf_modUnit_other (s.leaveCalled r ref) hf hq
    simpa [State.returnToWaiting] using h
  · have h := statusOf_modUnit_self hf hk'
    simpa [State.returnToWaiting] using h

/-- The last of a lane's called units returns to WAITING: it is the first of those that wait there (R117). -/
theorem LanesOrdered.returnToWaiting (hs : LanesOrdered s) {r : Ramp} {back : Bool} {ref : Ref} {l : Lane} {ahead : List Ref}
    (hl : laneOf s ref = some l) (hr : (s.laneFixed l).ramp = r) (hc : calledIn s l = ahead ++ [ref])
    (hn : ref ∉ ahead) : LanesOrdered (s.returnToWaiting r back ref) ∧
      calledIn (s.returnToWaiting r back ref) l = ahead := by
  obtain ⟨w, hw⟩ : ∃ w, s.unit? ref = some w := by
    unfold laneOf at hl
    cases h : s.unit? ref with
    | none => simp [h] at hl
    | some w => exact ⟨w, rfl⟩
  obtain ⟨hres, hcalled, hlane, hother, hself, hfixed⟩ := returnToWaiting_lists (r := r) (back := back) hw
  have hshare (k : Lane) : calledIn (s.returnToWaiting r back ref) k = if k = l then ahead else calledIn s k := by
    by_cases hk : k = l
    · subst hk
      have : calledIn (s.returnToWaiting r back ref) k = (calledIn s k).erase ref := by
        unfold calledIn
        rw [hfixed, hcalled, if_pos hr]
        simp only [hlane]
        exact filter_erase_of_pos (by simp [hl])
      rw [this, hc, List.erase_append_right _ hn]
      simp
    · have hneg : decide (laneOf s ref = some k) = false := by rw [hl]; simpa using Ne.symm hk
      rw [if_neg hk]
      unfold calledIn
      rw [hfixed, hcalled]
      simp only [hlane]
      split
      · exact filter_erase_of_neg hneg
      · rfl
  refine ⟨⟨fun k => by rw [hres]; exact hs.nodup k, fun k q hq => ?_, fun k => ?_⟩, by rw [hshare, if_pos rfl]⟩
  · rw [hres] at hq; rw [hlane]; exact hs.housed k q hq
  · obtain ⟨behind, hlist, hb⟩ := hs.split k
    have hstill : ∀ q ∈ behind, (s.returnToWaiting r back ref).statusOf q = some .waiting := fun q hq => by
      by_cases hqr : q = ref
      · rw [hqr]; exact hself
      · rw [hother q hqr]; exact hb q hq
    by_cases hk : k = l
    · subst hk
      refine ⟨calledIn (s.returnToWaiting r back ref) k, ref :: behind, by rw [hres, hshare, hlist, hc]; simp, ?_, rfl⟩
      intro q hq
      rcases List.mem_cons.1 hq with rfl | hq
      · exact hself
      · exact hstill q hq
    · exact ⟨calledIn (s.returnToWaiting r back ref) k, behind, by rw [hres, hshare, if_neg hk, hlist], hstill, rfl⟩

end Sys2Proof.Machine

namespace Sys2Proof.Machine

open Sys2Proof

variable {s : State}

/-! ## Uncalls, commits and crossings -/

/-- A lane's called units return to WAITING from the last one backward (R117). -/
theorem LanesOrdered.returnBackward {r : Ramp} {back : Bool} {l : Lane} (hr : (s.laneFixed l).ramp = r) {gone ahead : List Ref}
    (hs : LanesOrdered s) (hc : calledIn s l = ahead ++ gone.reverse) (hn : (ahead ++ gone.reverse).Nodup) :
    LanesOrdered (gone.foldl (fun s f => s.returnToWaiting r back f) s) ∧
      calledIn (gone.foldl (fun s f => s.returnToWaiting r back f) s) l = ahead := by
  induction gone generalizing s with
  | nil => exact ⟨hs, by simpa using hc⟩
  | cons f gone ih =>
    rw [List.reverse_cons, ← List.append_assoc] at hc hn
    have hf : laneOf s f = some l := by
      have : f ∈ calledIn s l := by rw [hc]; simp
      simpa using (List.mem_filter.1 this).2
    obtain ⟨hs', hc'⟩ := hs.returnToWaiting (back := back) hf hr hc fun h => (List.nodup_append.1 hn).2.2 f h f (by simp) rfl
    exact ih (by simpa using hr) hs' hc' (List.nodup_append.1 hn).1

/-- The units behind one in the called list. -/
def behindIn (s : State) (r : Ramp) (ref : Ref) : List Ref := ((s.ramp r).called.dropWhile (· != ref)).drop 1

theorem eq_append_cons_of_mem {xs : List Ref} {ref : Ref} (h : ref ∈ xs) :
    ∃ before, ref ∉ before ∧ xs = before ++ ref :: (xs.dropWhile (· != ref)).drop 1 := by
  induction xs with
  | nil => cases h
  | cons x xs ih =>
    by_cases hx : x = ref
    · exact ⟨[], by simp, by simp [hx]⟩
    · obtain ⟨before, hb, hxs⟩ := ih (by simpa [Ne.symm hx] using h)
      refine ⟨x :: before, by simp [hb, Ne.symm hx], ?_⟩
      rw [List.dropWhile_cons_of_pos (by simpa using hx), List.cons_append, ← hxs]

/-- No unit behind another one in a called list is CROSSING (R126): the plate's unit heads the list. -/
theorem ReservationLaw.called_behind (h : ReservationLaw s) {r : Ramp} {ref q : Ref} (hm : ref ∈ (s.ramp r).called)
    (hq : q ∈ behindIn s r ref) : s.statusOf q = some .called := by
  obtain ⟨before, hb, hlist⟩ := eq_append_cons_of_mem hm
  have hnd := h.called_nodup r
  have hmem : q ∈ (s.ramp r).called := by rw [hlist]; simp [behindIn] at hq ⊢; tauto
  obtain ⟨v, hv, ⟨hs, -⟩ | ⟨-, hp⟩⟩ := h.calledUnit hmem
  · simp [State.statusOf, hv, hs]
  · have hhead := (h.onPlate hp).1
    rw [hlist] at hnd hhead
    cases before with
    | nil =>
      obtain rfl : ref = q := by simpa using hhead
      exact absurd hq (List.nodup_cons.1 hnd).1
    | cons y ys =>
      obtain rfl : y = q := by simpa using hhead
      exact absurd (List.mem_append_right _ (List.mem_cons_of_mem _ hq)) (List.nodup_cons.1 hnd).1

theorem mem_behindIn {r : Ramp} {ref q : Ref} (h : q ∈ behindIn s r ref) : q ∈ (s.ramp r).called :=
  (List.dropWhile_sublist _).subset (List.drop_subset _ _ h)

/-- Those behind a unit that are reserved in a lane are the unit's followers there. -/
theorem followers_eq {r : Ramp} {ref : Ref} {l : Lane}
    (h : ∀ q ∈ behindIn s r ref, s.statusOf q = some .called) :
    s.followers r ref l = (behindIn s r ref).filter fun q => decide (laneOf s q = some l) := by
  refine List.filter_congr fun q hq => ?_
  have hc := h q hq
  unfold State.statusOf at hc
  cases hu : s.unit? q with
  | none => simp [hu] at hc
  | some u => simp_all [laneOf]

/-- A CALLED unit and its followers return to WAITING, and in a CLOSING lane they are reallocated (R38, R117). -/
theorem LanesOrdered.uncallToWaiting (hs : LanesOrdered s) {r : Ramp} {l : Lane} (hr : (s.laneFixed l).ramp = r)
    (back : Bool) (reason : UncallReason) {ref : Ref} (hm : ref ∈ (s.ramp r).called) (hl : laneOf s ref = some l)
    (hn : (s.ramp r).called.Nodup) (hb : ∀ q ∈ behindIn s r ref, s.statusOf q = some .called) :
    LanesOrdered (s.uncallToWaiting r l back reason ref).1 := by
  obtain ⟨before, hnot, hlist⟩ := eq_append_cons_of_mem hm
  have hshare : calledIn s l = (before.filter fun q => decide (laneOf s q = some l)) ++ [ref] ++ s.followers r ref l := by
    rw [followers_eq hb]
    unfold calledIn
    rw [hr, hlist]
    simp [hl, behindIn]
  have hnd : (calledIn s l).Nodup := by unfold calledIn; rw [hr]; exact hn.filter _
  obtain ⟨h1, hc1⟩ := hs.returnBackward (back := false) hr (gone := (s.followers r ref l).reverse)
    (by simpa only [List.reverse_reverse] using hshare)
    (by simpa only [List.reverse_reverse, ← hshare] using hnd)
  have hkeep (fs : List Ref) (t : State) : laneOf (fs.foldl (fun s f => s.returnToWaiting r false f) t) ref = laneOf t ref ∧
      (fs.foldl (fun s f => s.returnToWaiting r false f) t).laneFixed l = t.laneFixed l := by
    induction fs generalizing t with
    | nil => exact ⟨rfl, rfl⟩
    | cons f fs ih => exact ⟨(ih _).1.trans (by simp), (ih _).2.trans (by simp)⟩
  obtain ⟨hl1, hr1⟩ := hkeep (s.followers r ref l).reverse s
  obtain ⟨h2, -⟩ := h1.returnToWaiting (back := back) (hl1.trans hl) (hr1 ▸ hr) hc1 fun h => hnot (List.mem_filter.1 h).1
  have h3 (carried : Option Lane) := ordered_uncallNotices ((agrees_notify _ (.uncall r ref reason carried)).ordered h2) r
    .follower carried (s.followers r ref l)
  unfold State.uncallToWaiting
  dsimp only
  split
  · exact (h3 _).reallocateAll _ l
  · exact h3 _

end Sys2Proof.Machine

namespace Sys2Proof.Machine

open Sys2Proof

variable {s : State}

/-! ## Units that become ABOARD, and crossings (R85, R132 to R138) -/

theorem agrees_joinOccupants (s : State) (l : Lane) (ref : Ref) (o : Nat) : Agrees s (s.joinOccupants l ref o) :=
  agrees_setLane (by rfl)

theorem agrees_subProvisional (s : State) (l : Lane) (w : Nat) : Agrees s (s.subProvisional l w) :=
  agrees_of_tables (by simp) (by simp) (by simp) (by simp)

theorem agrees_addCommitted (s : State) (l : Lane) (w o n : Nat) : Agrees s (s.addCommitted l w o n) :=
  agrees_of_tables (by simp) (by simp) (by simp) (by simp)

theorem agrees_refill (s : State) (d : Deck) : Agrees s (s.refill d) :=
  agrees_of_tables (by simp) (by simp) (by simp) (by simp)

/-- The lists as a unit becomes ABOARD. -/
theorem board_lists (s : State) (v : UnitRecord) (l : Lane) (o w : Nat) (x : CrossingResult) (b : Bool) :
    (∀ k, ((s.board v l o w x b).lane k).reservations = (s.lane k).reservations) ∧
      ∀ r, ((s.board v l o w x b).ramp r).called = (s.ramp r).called := by
  unfold State.board
  simp only [State.refill_frame, State.writeCrossing_frame, State.modUnit_frame, State.addCommitted_frame]
  exact ⟨(agrees_joinOccupants s l _ o).reservations, (agrees_joinOccupants s l _ o).called⟩

theorem agreesBut_writeCrossing (s : State) (ref : Ref) (x : CrossingResult) (b : Bool) :
    AgreesBut ref s (s.writeCrossing ref x b) := by
  unfold State.writeCrossing; exact agreesBut_modUnit s ref fun _ => rfl

theorem laneOf_writeCrossing (s : State) (ref q : Ref) (x : CrossingResult) (b : Bool) :
    laneOf (s.writeCrossing ref x b) q = laneOf s q := by
  unfold State.writeCrossing; exact laneOf_modUnit_same s ref q (fun _ => rfl) fun _ => rfl

/-- The change of the record of a unit that becomes ABOARD. -/
def aboardAt (l : Lane) (o : Nat) (u : UnitRecord) : UnitRecord :=
  { u with status := .aboard, lane := some l, offset := some o }

theorem board_eq (s : State) (v : UnitRecord) (l : Lane) (o w : Nat) (x : CrossingResult) (b : Bool) :
    s.board v l o w x b = (((((s.joinOccupants l v.decl.ref o).addCommitted l w o v.decl.length).modUnit v.decl.ref
      (aboardAt l o)).writeCrossing v.decl.ref x b).refill (s.laneFixed l).deck) := rfl

theorem keepsRef_aboardAt (l : Lane) (o : Nat) : KeepsRef (aboardAt l o) := fun _ => rfl

theorem agreesBut_board (s : State) (v : UnitRecord) (l : Lane) (o w : Nat) (x : CrossingResult) (b : Bool) :
    AgreesBut v.decl.ref s (s.board v l o w x b) := by
  rw [board_eq]
  exact ((((agrees_joinOccupants s l _ o).trans (agrees_addCommitted _ _ _ _ _)).but _).trans
    (agreesBut_modUnit _ _ (keepsRef_aboardAt l o))).trans
      ((agreesBut_writeCrossing _ _ x b).trans ((agrees_refill _ _).but _))

/-- A unit that becomes ABOARD holds the lane. -/
theorem laneOf_board {v w : UnitRecord} (hv : s.unit? v.decl.ref = some w) (l : Lane) (o n : Nat) (x : CrossingResult)
    (b : Bool) : laneOf (s.board v l o n x b) v.decl.ref = some l := by
  have hrefill (t : State) (d : Deck) : laneOf (t.refill d) v.decl.ref = laneOf t v.decl.ref := by simp [laneOf]
  rw [board_eq, hrefill, laneOf_writeCrossing, laneOf_modUnit_self (keepsRef_aboardAt l o) (v := w) (by simpa using hv)]
  rfl

/-- A unit from outside the lists that becomes ABOARD joins none. -/
theorem LanesOrdered.board (hs : LanesOrdered s) {v : UnitRecord} (hn : ¬ Listed s v.decl.ref) (l : Lane) (o w : Nat)
    (x : CrossingResult) (b : Bool) : LanesOrdered (s.board v l o w x b) := by
  obtain ⟨hres, hcalled⟩ := board_lists s v l o w x b
  exact (agreesBut_board s v l o w x b).ordered hs (fun k h => hn (.inl ⟨k, hres k ▸ h⟩))
    fun k h => hn (.inr ⟨_, hcalled _ ▸ (List.mem_filter.1 h).1⟩)

/-- What the law says of the unit whose crossing completes, in the state in which it is settled: it has left its ramp's
called list, and no called list of its lane's ramp names it. -/
structure Settling (s : State) (v : UnitRecord) : Prop where
  found : s.unit? v.decl.ref = some v
  nodup : ∀ l, (s.lane l).reservations.Nodup
  housed : ∀ l, ∀ ref ∈ (s.lane l).reservations, laneOf s ref = some l
  left : ∀ l, v.lane = some l → v.decl.ref ∉ (s.ramp (s.laneFixed l).ramp).called

/-- A unit whose crossing completes leaves its lane's list, and no called list of a lane's ramp names it any more. -/
theorem Settling.agreesBut_commit {v : UnitRecord} {l : Lane} (h : Settling s v) (hl : v.lane = some l) (r : Ramp) (p : Plate) :
    AgreesBut v.decl.ref s (s.commit r p v l) ∧ (∀ k, v.decl.ref ∉ ((s.commit r p v l).lane k).reservations) ∧
      ∀ k, v.decl.ref ∉ calledIn (s.commit r p v l) k := by
  have hleft (k : Lane) : v.decl.ref ∉ (((s.leaveLane l v.decl.ref).subProvisional l v.decl.weight).lane k).reservations := by
    rw [(agrees_subProvisional _ l _).reservations]
    by_cases hk : k = l
    · subst hk; rw [reservations_leaveLane]; exact (h.nodup k).not_mem_erase
    · rw [leaveLane_other _ _ hk]
      intro hm
      have := h.housed k _ hm
      simp [laneOf, h.found, hl] at this
      exact hk this.symm
  have h0 := (agreesBut_leaveLane s l v.decl.ref).trans ((agrees_subProvisional _ l v.decl.weight).but _)
  have hu : ((s.leaveLane l v.decl.ref).subProvisional l v.decl.weight).unit? v.decl.ref = some v := by simpa using h.found
  have hc (q : Ramp) : ((((s.leaveLane l v.decl.ref).subProvisional l v.decl.weight).ramp q).called) = (s.ramp q).called := by
    simp
  have hramp (k : Lane) : ((s.leaveLane l v.decl.ref).subProvisional l v.decl.weight).laneFixed k = s.laneFixed k := by simp
  have key : ∀ w, Agrees (((s.leaveLane l v.decl.ref).subProvisional l v.decl.weight).board v l
      (s.commitOffset l v.decl.length) (p.weightUsed v) (p.result v (s.outOfWindow r p v)) false) w →
      AgreesBut v.decl.ref s w ∧ (∀ k, v.decl.ref ∉ (w.lane k).reservations) ∧ ∀ k, v.decl.ref ∉ calledIn w k := by
    intro w hw
    generalize (s.leaveLane l v.decl.ref).subProvisional l v.decl.weight = t at hleft h0 hu hc hw hramp
    have hb := board_lists t v l (s.commitOffset l v.decl.length) (p.weightUsed v) (p.result v (s.outOfWindow r p v)) false
    have hab := agreesBut_board t v l (s.commitOffset l v.decl.length) (p.weightUsed v) (p.result v (s.outOfWindow r p v)) false
    have hlane := laneOf_board hu l (s.commitOffset l v.decl.length) (p.weightUsed v) (p.result v (s.outOfWindow r p v)) false
    generalize t.board v l (s.commitOffset l v.decl.length) (p.weightUsed v) (p.result v (s.outOfWindow r p v)) false = b
      at hb hab hlane hw
    refine ⟨(h0.trans hab).trans (hw.but _), fun k => by rw [hw.reservations, hb.1]; exact hleft k, fun k hm => ?_⟩
    rw [hw.share] at hm
    obtain ⟨hm, hk⟩ := List.mem_filter.1 hm
    obtain rfl : l = k := by simpa [hlane] using hk
    rw [hb.2, hc, hab.ramps, hramp] at hm
    exact h.left l hl hm
  unfold State.commit
  dsimp only
  split
  · exact key _ ((agrees_notify _ _).trans (agrees_triggerWalk _))
  · exact key _ (agrees_notify _ _)

theorem Settling.agreesBut_settle {v : UnitRecord} (h : Settling s v) (r : Ramp) (p : Plate) :
    AgreesBut v.decl.ref s (s.settle r p v) ∧ (∀ k, v.decl.ref ∉ ((s.settle r p v).lane k).reservations) ∧
      ∀ k, v.decl.ref ∉ calledIn (s.settle r p v) k := by
  unfold State.settle
  cases hl : v.lane with
  | none =>
    have hnone : laneOf s v.decl.ref = none := by simp [laneOf, h.found, hl]
    have ha : Agrees s (s.handItem (p.search r v none false)) := agrees_setAlc s _
    dsimp only
    refine ⟨ha.but _, fun k hm => ?_, fun k => by rw [ha.share]; exact notMem_calledIn_of_laneless hnone k⟩
    rw [ha.reservations] at hm
    exact nomatch hnone.symm.trans (h.housed k _ hm)
  | some l =>
    dsimp only
    split
    · exact h.agreesBut_commit hl r p
    · have ha : Agrees (s.release v.decl.ref)
          (((s.release v.decl.ref).handItem (p.search r v (some l) (s.outOfWindow r p v))).triggerWalk) :=
        (agrees_setAlc _ _).trans (agrees_triggerWalk _)
      refine ⟨(agreesBut_release s _).trans (ha.but _), fun k => ?_, fun k => ?_⟩
      · rw [ha.reservations]; exact notMem_release h.nodup h.housed _ k
      · rw [ha.share]; exact notMem_calledIn_of_laneless (by simp [laneOf_release]) k

theorem agrees_clearPlate (s : State) (r : Ramp) : Agrees s (s.clearPlate r) := by
  unfold State.clearPlate
  dsimp only
  split
  · exact (agrees_setPlate s r _).trans (agrees_setPlate _ r _)
  · exact (agrees_setPlate s r _).trans (agrees_closeRamp _ r)
  · exact agrees_setPlate s r _

theorem unitOf_clearPlate (s : State) (r : Ramp) (q : Ref) : (s.clearPlate r).unit? q = s.unit? q := by
  unfold State.clearPlate
  dsimp only
  split <;> simp

/-- The completed crossing of the plate's unit (R132 to R138). -/
theorem OrderReady.settle (hs : OrderReady s) {r : Ramp} {ref : Ref} {v : UnitRecord} (hp : (s.plate r).unit = some ref)
    (hv : s.unit? ref = some v) (p : Plate) :
    LanesOrdered (((s.clearPlate r).leaveCalled r ref).settle r p v) := by
  obtain rfl := unit_ref hv
  obtain ⟨hhead, w, hw, -, hramp⟩ := hs.law.onPlate hp
  obtain rfl := Option.some.inj (hv.symm.trans hw)
  have hc := agrees_clearPlate s r
  have hunit (q : Ref) : ((s.clearPlate r).leaveCalled r v.decl.ref).unit? q = s.unit? q := by
    simp [unitOf_clearPlate]
  have hfixed (l : Lane) : (((s.clearPlate r).leaveCalled r v.decl.ref).laneFixed l).ramp = (s.laneFixed l).ramp := by
    simpa using hc.ramps l
  have hres (l : Lane) : (((s.clearPlate r).leaveCalled r v.decl.ref).lane l).reservations = (s.lane l).reservations := by
    simpa using hc.reservations l
  have hset : Settling ((s.clearPlate r).leaveCalled r v.decl.ref) v := by
    refine ⟨(hunit _).trans hv, fun l => by rw [hres]; exact hs.lanes.nodup l, fun l q hq => ?_, fun l hl => ?_⟩
    · rw [hres] at hq
      unfold laneOf
      rw [hunit]
      exact hs.lanes.housed l q hq
    · rw [hfixed, hramp l hl, called_leaveCalled, hc.called]
      exact (hs.law.called_nodup r).not_mem_erase
  obtain ⟨hab, hno, hnc⟩ := hset.agreesBut_settle r p
  exact ((hc.but _).trans ((agreesBut_leaveCalled _ r _).trans hab)).ordered hs.lanes hno hnc

end Sys2Proof.Machine

namespace Sys2Proof.Machine

open Sys2Proof

/-! ## The requests and the order of the lane lists -/

theorem ordered_finish {v u : State} (h : LanesOrdered v) (hu : finish v = .next u) : LanesOrdered u := by
  cases hu; exact (agrees_startTx v).ordered h

theorem ordered_notNow {s u : State} (h : LanesOrdered s) (hu : notNow s = .next u) : LanesOrdered u := by
  cases hu; exact h

/-- A request's row keeps the order when its owner does. -/
theorem ordered_handle {α : Type} {k : RequestKind} {parse : State → List Byte → Option α}
    {deckOf : State → α → Option Deck} {owner : Ticket → α → State → State} {s u : State} (hs : OrderReady s)
    (ho : ∀ t req v, OrderReady v → admits v.session k = true → LanesOrdered (owner t req v))
    (h : handle k parse deckOf owner s = .next u) : LanesOrdered u := by
  obtain rfl | ⟨f, rest, -, ⟨r, rfl⟩ | ⟨req, -, ha, rfl⟩⟩ := handle_next h
  · exact hs.lanes
  · exact (agrees_startTx _).ordered ((agrees_fill _ _ _).ordered ((agrees_modLink _).ordered hs.lanes))
  · have hv : OrderReady (s.taken f rest) := ⟨hs.law, hs.order⟩
    exact (agrees_startTx _).ordered (ho f.ticket req _ hv ha)

theorem LanesOrdered.fill {s : State} (h : LanesOrdered s) (t : Ticket) (r : Reply) : LanesOrdered (s.fill t r) :=
  (agrees_fill s t r).ordered h

theorem LanesOrdered.refuse {s : State} (h : LanesOrdered s) (t : Ticket) (r : Result) : LanesOrdered (s.refuse t r) :=
  h.fill t _

theorem LanesOrdered.triggerWalk {s : State} (h : LanesOrdered s) : LanesOrdered s.triggerWalk :=
  (agrees_triggerWalk s).ordered h

theorem LanesOrdered.notify {s : State} (h : LanesOrdered s) (n : Notice) : LanesOrdered (s.notify n) :=
  (agrees_notify s n).ordered h

theorem ordered_withUnit {s : State} {b : Bool} {t : Ticket} {ref : Ref} {go : UnitRecord → State} (hs : LanesOrdered s)
    (h : ∀ u, s.unit? ref = some u → LanesOrdered (go u)) : LanesOrdered (s.withUnit b t ref go) := by
  unfold State.withUnit
  split
  · exact hs.refuse t _
  · next u hu =>
    split
    · exact hs.refuse t _
    · exact h u hu

variable {s : State}

/-- A change of a record that keeps status and lane. -/
theorem LanesOrdered.modUnit_keeping (hs : LanesOrdered s) {ref : Ref} {f : UnitRecord → UnitRecord} (hf : KeepsRef f)
    (h : ∀ u, (f u).status = u.status ∧ (f u).lane = u.lane) : LanesOrdered (s.modUnit ref f) :=
  (agrees_modUnit hf fun _ => h).ordered hs

/-- A change of the record of a unit that stands in no list. -/
theorem LanesOrdered.modUnit_unlisted (hs : LanesOrdered s) {ref : Ref} {f : UnitRecord → UnitRecord} (hf : KeepsRef f)
    (hn : ¬ Listed s ref) : LanesOrdered (s.modUnit ref f) :=
  (agrees_modUnit hf fun h => absurd h hn).ordered hs

theorem LanesOrdered.setAlc (hs : LanesOrdered s) (x : Allocator) : LanesOrdered (s.setAlc x) :=
  (agrees_setAlc s x).ordered hs

theorem LanesOrdered.setCheckIn (hs : LanesOrdered s) (refs : List Ref) : LanesOrdered (s.setCheckIn refs) :=
  Agrees.ordered { Agrees.refl s with } hs

theorem LanesOrdered.setLane (hs : LanesOrdered s) {l : Lane} {x : LaneRun}
    (h : x.reservations = (s.lane l).reservations) : LanesOrdered (s.setLane l x) := (agrees_setLane h).ordered hs

theorem LanesOrdered.setRamp (hs : LanesOrdered s) {r : Ramp} {x : RampRun} (h : x.called = (s.ramp r).called) :
    LanesOrdered (s.setRamp r x) := (agrees_setRamp h).ordered hs

/-! ## The Unit Table's requests (R8 to R16) -/

theorem agrees_addUnit {v : UnitRecord} (h : ¬ Listed s v.decl.ref) : Agrees s (s.addUnit v) :=
  { Agrees.refl s with
    units := fun q hq => by
      have hne : q ≠ v.decl.ref := fun e => h (e ▸ hq)
      simp [State.statusOf, laneOf, unitOf_addUnit_other s v hne] }

theorem ordered_ownBook (hs : OrderReady s) (t : Ticket) (d : Declared) : LanesOrdered (ownBook t d s) := by
  unfold ownBook
  split_ifs with hdup hfull
  · exact hs.lanes.refuse t _
  · exact hs.lanes.refuse t _
  · have hn := hs.law.unknown_unlisted (Option.not_isSome_iff_eq_none.1 hdup)
    exact ((agrees_addUnit hn).ordered hs.lanes).fill t _

theorem ordered_ownAmend (hs : OrderReady s) (t : Ticket) (q : Ref × Declared) : LanesOrdered (ownAmend t q s) :=
  ordered_withUnit hs.lanes fun u hu => by
    split_ifs with hr hb
    · exact hs.lanes.refuse t _
    · have hn := hs.law.unlisted hu (by simp [hb]) (by simp [hb]) (by simp [hb])
      rw [modUnit_decl_eq s (not_not.1 hr)]
      refine LanesOrdered.fill ?_ t _
      exact hs.lanes.modUnit_unlisted (fun _ => rfl) hn
    · exact hs.lanes.refuse t _

/-- A unit that stands in no list is retired. -/
theorem LanesOrdered.retire_unlisted (hs : LanesOrdered s) {ref : Ref} (hn : ¬ Listed s ref) :
    LanesOrdered (s.retire ref) :=
  (agreesBut_retire s ref).ordered hs (fun l h => hn (.inl ⟨l, by simpa using h⟩))
    fun l h => hn (.inr ⟨_, by simpa using (List.mem_filter.1 h).1⟩)

theorem ordered_ownCancel (hs : OrderReady s) (t : Ticket) (ref : Ref) : LanesOrdered (ownCancel t ref s) :=
  ordered_withUnit hs.lanes fun u hu => by
    have gone (hw : u.status ≠ .waiting) (hc : u.status ≠ .called) (hx : u.status ≠ .crossing) : ¬ Listed s ref :=
      hs.law.unlisted hu hw hc hx
    split
    case h_5 => exact (((hs.lanes.release ref).retire (by simp [laneOf_release])).triggerWalk).fill t _
    case h_6 h =>
      exact LanesOrdered.fill (LanesOrdered.retire_unlisted (s := s.leaveUnplaced ref) (hs.lanes.setAlc _)
        (gone (by simp [h]) (by simp [h]) (by simp [h]))) t _
    case h_7 | h_8 | h_9 => exact hs.lanes.refuse t _
    all_goals next h => exact (hs.lanes.retire_unlisted (gone (by simp [h]) (by simp [h]) (by simp [h]))).fill t _

theorem agrees_handFresh (s : State) (ref : Ref) (cause : Cause) : Agrees s (s.handFresh ref cause) :=
  .trans (agrees_modUnit (ref := ref) (f := fun u => { u with cls := s.classification u, mark := true })
    (fun _ => rfl) fun _ _ => ⟨rfl, rfl⟩) (agrees_setAlc _ _)

theorem ordered_ownCheckIn (hs : LanesOrdered s) (t : Ticket) (q : Ref × Option Nat) : LanesOrdered (ownCheckIn t q s) :=
  ordered_withUnit hs fun u _ => by
    split_ifs
    · have h1 : LanesOrdered (s.modUnit q.1 fun u =>
          { u with decl := { u.decl with length := q.2.getD u.decl.length }, gate := some t.stn.toNat }) :=
        hs.modUnit_keeping (fun _ => rfl) fun _ => ⟨rfl, rfl⟩
      exact (agrees_handFresh _ _ _).ordered (h1.setCheckIn _)
    · exact hs.refuse t _

theorem ordered_ownPresent (hs : LanesOrdered s) (t : Ticket) (ref : Ref) : LanesOrdered (ownPresent t ref s) :=
  ordered_withUnit hs fun u _ => by
    split
    · have h1 : LanesOrdered (s.modUnit ref fun u => { u with age := 0 }) :=
        hs.modUnit_keeping (fun _ => rfl) fun _ => ⟨rfl, rfl⟩
      exact h1.fill t _
    · exact (agrees_handFresh s ref _).ordered hs
    all_goals exact hs.refuse t _

/-- A unit that stands in no list takes another status. -/
theorem LanesOrdered.setStatus_unlisted (hs : LanesOrdered s) {ref : Ref} (hn : ¬ Listed s ref) (x : Status) :
    LanesOrdered (s.setStatus ref x) :=
  hs.modUnit_unlisted (fun _ => rfl) hn

theorem ordered_ownHoldUnit (hs : OrderReady s) (t : Ticket) (ref : Ref) : LanesOrdered (ownHoldUnit t ref s) :=
  ordered_withUnit hs.lanes fun u hu => by
    have free : laneOf ((s.release ref).setStatus ref .held) ref = none := by simp [laneOf_release]
    have held : LanesOrdered ((s.release ref).setStatus ref .held) :=
      (hs.lanes.release ref).setStatus (by simp [laneOf_release]) .held
    split
    · exact held.triggerWalk.fill t _
    · next h =>
      have hn := hs.law.unlisted hu (by simp [h]) (by simp [h]) (by simp [h])
      exact LanesOrdered.fill (LanesOrdered.setStatus_unlisted (s := s.leaveUnplaced ref) (hs.lanes.setAlc _) hn _) t _
    · next h =>
      exact (hs.lanes.setStatus_unlisted (hs.law.unlisted hu (by simp [h]) (by simp [h]) (by simp [h])) _).fill t _
    · exact (((held.leaveCalled free _).notify _).triggerWalk).fill t _
    all_goals exact hs.lanes.refuse t _

theorem ordered_ownReleaseHold (hs : LanesOrdered s) (t : Ticket) (ref : Ref) : LanesOrdered (ownReleaseHold t ref s) :=
  ordered_withUnit hs fun u _ => by
    split_ifs
    · have h1 : LanesOrdered (s.modUnit ref fun u => { u with noShow := 0 }) :=
        hs.modUnit_keeping (fun _ => rfl) fun _ => ⟨rfl, rfl⟩
      exact (agrees_handFresh _ ref _).ordered h1
    · exact hs.refuse t _

/-! ## Through cargo, lanes and ramps -/

theorem ordered_ownPlace (hs : OrderReady s) (t : Ticket) (q : PlaceRequest) : LanesOrdered (ownPlace t q s) := by
  unfold ownPlace
  split
  · exact hs.lanes.refuse t _
  · next h =>
    obtain ⟨hn, -⟩ := placeRefusal_eq_none s h
    have h1 : LanesOrdered (s.addUnit (s.placedRecord q)) :=
      (agrees_addUnit (hs.law.unknown_unlisted hn)).ordered hs.lanes
    have h2 := (agrees_setLane (s := s.addUnit (s.placedRecord q)) (l := q.lane)
      (x := { s.lane q.lane with occupants := insertOccupant { ref := q.ref, offset := q.offset } (s.lane q.lane).occupants })
      (by rfl)).ordered h1
    exact ((agrees_refill _ _).ordered ((agrees_addCommitted _ _ _ _ _).ordered h2)).fill t _

theorem agrees_subCommitted (s : State) (l : Lane) (w o n : Nat) : Agrees s (s.subCommitted l w o n) :=
  agrees_of_tables (by simp) (by simp) (by simp) (by simp)

theorem agrees_dischargeUnit_lists (s : State) (u : UnitRecord) (l : Lane) (offset : Nat) :
    Agrees s (((s.subCommitted l u.weightUsed offset u.decl.length).setLane l
      { (s.subCommitted l u.weightUsed offset u.decl.length).lane l with
        occupants := ((s.subCommitted l u.weightUsed offset u.decl.length).lane l).occupants.dropLast }).refill
          (s.laneFixed l).deck) :=
  (agrees_subCommitted s l _ _ _).trans ((agrees_setLane (by rfl)).trans (agrees_refill _ _))

theorem Agrees.unlisted {u : State} (h : Agrees s u) {ref : Ref} (hn : ¬ Listed s ref) : ¬ Listed u ref := by
  unfold Listed at hn ⊢
  simpa only [h.reservations, h.called] using hn

theorem ordered_ownDischarge (hs : OrderReady s) (t : Ticket) (ref : Ref) : LanesOrdered (ownDischarge t ref s) :=
  ordered_withUnit hs.lanes fun u hu => by
    split
    · next l offset ha _ _ =>
      split
      · exact hs.lanes.refuse t _
      · have hn : ¬ Listed s u.decl.ref := by
          rw [unit_ref hu]; exact hs.law.unlisted hu (by simp [ha]) (by simp [ha]) (by simp [ha])
        have h1 := agrees_dischargeUnit_lists s u l offset
        exact (((h1.ordered hs.lanes).retire_unlisted (h1.unlisted hn)).fill t _).triggerWalk
    · exact hs.lanes.refuse t _

theorem ordered_ownObstructionAdd (hs : LanesOrdered s) (t : Ticket) (q : SpanRequest) :
    LanesOrdered (ownObstructionAdd t q s) := by
  unfold ownObstructionAdd
  dsimp only
  split_ifs
  · exact hs.refuse t _
  · exact ((LanesOrdered.setLane hs (by rfl)).refit q.lane).fill t _
  · exact (hs.withdraw q.lane).fill t _

theorem ordered_ownObstructionClear (hs : LanesOrdered s) (t : Ticket) (q : SpanRequest) :
    LanesOrdered (ownObstructionClear t q s) := by
  unfold ownObstructionClear
  dsimp only
  split_ifs
  · exact (LanesOrdered.setLane hs (by rfl)).triggerWalk.fill t _
  · exact hs.refuse t _

theorem ordered_ownLaneClose (hs : LanesOrdered s) (t : Ticket) (l : Lane) : LanesOrdered (ownLaneClose t l s) := by
  unfold ownLaneClose
  dsimp only
  split
  · have h1 : LanesOrdered ((s.setLane l { s.lane l with state := .closing }).reallocateAll
        (s.withStatus .waiting (s.lane l).reservations) l) :=
      (LanesOrdered.setLane hs (by rfl)).reallocateAll _ l
    split
    · exact (LanesOrdered.setLane h1 (by rfl)).fill t _
    · exact h1.fill t _
  · exact hs.refuse t _

theorem ordered_ownLaneOpen (hs : LanesOrdered s) (t : Ticket) (l : Lane) : LanesOrdered (ownLaneOpen t l s) := by
  unfold ownLaneOpen
  dsimp only
  split
  · exact hs.refuse t _
  · exact (LanesOrdered.setLane hs (by rfl)).triggerWalk.fill t _

theorem ordered_ownRampOpen (hs : LanesOrdered s) (t : Ticket) (r : Ramp) : LanesOrdered (ownRampOpen t r s) := by
  unfold ownRampOpen
  dsimp only
  split
  · have h1 : LanesOrdered ((s.setRampState r .opened).setRamp r
        { (s.setRampState r .opened).ramp r with
          remaining := ((s.setRampState r .opened).ramp r).budget, credit := 0, intervalTimer := some (s.intervalMs r) }) :=
      LanesOrdered.setRamp ((agrees_setRampState s r _).ordered hs) (by rfl)
    exact ((agrees_setPlate _ r _).ordered h1).triggerWalk.fill t _
  · exact hs.refuse t _

theorem ordered_ownSetRamp (hs : LanesOrdered s) (t : Ticket) (q : RampSettings) : LanesOrdered (ownSetRamp t q s) := by
  unfold ownSetRamp
  exact LanesOrdered.fill (hs.setRamp (by rfl)) t _

/-- Each unit with a former lane is handed over (R106). -/
def handOverFrom (lanes : Ref → Option Lane) (s : State) (ref : Ref) : State :=
  match lanes ref with
  | some l => s.handOver ref l
  | none => s

theorem LanesOrdered.handOverFrom (lanes : Ref → Option Lane) {refs : List Ref} (hs : LanesOrdered s)
    (hn : ∀ ref ∈ refs, laneOf s ref = none) : LanesOrdered (refs.foldl (Machine.handOverFrom lanes) s) := by
  refine hs.foldl_laneless (fun t ht ref hl => ?_) (fun t ref q hq => ?_) hn <;> unfold Machine.handOverFrom <;> split
  · exact ht.handOver hl _
  · exact ht
  · exact laneOf_handOver_none hq
  · exact hq

theorem laneOf_closeCalled (s : State) (r : Ramp) (ref q : Ref) :
    laneOf (s.closeCalled r ref) q = if q = ref then none else laneOf s q := by
  unfold State.closeCalled
  rw [laneOf_release, laneOf_uncallNotice]
  simp [laneOf]

theorem ordered_ownRampClose (hs : LanesOrdered s) (t : Ticket) (r : Ramp) : LanesOrdered (ownRampClose t r s) := by
  unfold ownRampClose
  dsimp only
  split
  · generalize s.withStatus .called (s.ramp r).called = called
    generalize (s.ramp r).prio ++ (s.ramp r).ord = queued
    have h2 : LanesOrdered ((s.setRampState r .closing).setRamp r
        { (s.setRampState r .closing).ramp r with intervalTimer := none, callTimer := none }) :=
      LanesOrdered.setRamp ((agrees_setRampState s r _).ordered hs) (by rfl)
    generalize (s.setRampState r .closing).setRamp r
      { (s.setRampState r .closing).ramp r with intervalTimer := none, callTimer := none } = v at h2 ⊢
    have h3 := LanesOrdered.foldl (f := fun s ref => s.closeCalled r ref) (fun _ ht => ht.closeCalled r) called h2
    have h4 := LanesOrdered.foldl (f := fun s ref => s.release ref) (fun _ ht => ht.release) queued h3
    have h5 := h4.handOverFrom (fun ref => (s.unit? ref).bind (·.lane)) (refs := called ++ queued) fun ref hr => by
      refine laneless_foldl (f := fun s ref => s.release ref) laneOf_release queued _ ?_
      exact ((List.mem_append.1 hr).imp_left fun hc => laneless_foldl (f := fun s ref => s.closeCalled r ref)
        (fun s ref q => laneOf_closeCalled s r ref q) called v (.inl hc)).symm
    split
    · exact ((agrees_closeRamp _ r).ordered h5).fill t _
    · exact h5.fill t _
  · exact hs.refuse t _

/-- A CALLED unit with a lane stands in the called list of the lane's ramp. -/
theorem ReservationLaw.called_listed (h : ReservationLaw s) {ref : Ref} {v : UnitRecord} {l : Lane}
    (hv : s.unit? ref = some v) (hc : v.status = .called) (hl : v.lane = some l) :
    ref ∈ (s.ramp (s.laneFixed l).ramp).called := by
  obtain ⟨-, hstands, -⟩ := h
  have hs := hstands v (unit_mem hv)
  unfold recordStands at hs
  simp only [hc, hl, Bool.and_eq_true, unit_ref hv] at hs
  simpa using hs.2

theorem ordered_ownSkip (hs : OrderReady s) (t : Ticket) (ref : Ref) : LanesOrdered (ownSkip t ref s) :=
  ordered_withUnit hs.lanes fun u hu => by
    split
    · next hc =>
      split
      · next l hl =>
        have hm := hs.law.called_listed hu hc hl
        exact (hs.lanes.uncallToWaiting rfl false .skipped hm (by simp [laneOf, hu, hl]) (hs.law.called_nodup _)
          fun q hq => hs.law.called_behind hm hq).fill t _
      · exact hs.lanes.refuse t _
    all_goals exact hs.lanes.refuse t _

end Sys2Proof.Machine

namespace Sys2Proof.Machine

open Sys2Proof

variable {s : State}

/-! ## Sessions and loads (R161 to R168, R182, R187) -/

theorem reservations_replicate_reset (l : Lane) : (Vector.replicate 96 LaneRun.reset)[l].reservations = [] := by
  simp [LaneRun.reset]

/-- An operation that empties a ramp's called list and leaves the other ramp's and the lanes alone. -/
structure EmptiesCalled (f : Ramp → State → State) : Prop where
  same : ∀ r s, ((f r s).ramp r).called = []
  other : ∀ r s q, q ≠ r → ((f r s).ramp q).called = (s.ramp q).called
  lanes : ∀ r s, (f r s).lanes = s.lanes

/-- Empty lanes, and called lists that are emptied ramp by ramp, are in order. -/
theorem EmptiesCalled.ordered {f : Ramp → State → State} (hf : EmptiesCalled f)
    (hs : s.lanes = Vector.replicate 96 LaneRun.reset) : LanesOrdered (s.forRamps f) := by
  refine lanesOrdered_of_empty (fun l => ?_) fun r => ?_
  · have : (s.forRamps f).lanes = s.lanes := (hf.lanes .b _).trans (hf.lanes .a s)
    unfold State.lane
    rw [this, hs]
    exact reservations_replicate_reset l
  · unfold State.forRamps
    cases r with
    | a => rw [hf.other .b _ .a (by decide)]; exact hf.same .a s
    | b => exact hf.same .b _

theorem agrees_setSession (s : State) (x : Session) : Agrees s (s.setSession x) := { Agrees.refl s with }

theorem agrees_setAgeing (s : State) (t : Timer) : Agrees s (s.setAgeing t) := { Agrees.refl s with }

theorem agrees_setFreeCount (s : State) (n : Nat) : Agrees s (s.setFreeCount n) := { Agrees.refl s with }

/-- What leaves the lists alone at each deck leaves them alone. -/
theorem agrees_forDecks {f : Deck → State → State} (hf : ∀ d s, Agrees s (f d s)) (s : State) :
    Agrees s (s.forDecks f) := by
  unfold State.forDecks
  generalize allDecks = ds
  induction ds generalizing s with
  | nil => exact .refl s
  | cons d ds ih => exact (hf d s).trans (ih _)

theorem emptiesCalled_freshRamp : EmptiesCalled fun r s => (s.freshRamp r).setPlate r Plate.reset where
  same r s := by
    change ((s.freshRamp r).ramp r).called = []
    unfold State.freshRamp
    dsimp only
    rw [State.ramp_setRamp_same]
    rfl
  other r s q hq := by
    change ((s.freshRamp r).ramp q).called = _
    unfold State.freshRamp
    dsimp only
    rw [State.ramp_setRamp_other _ _ hq]
    simp
  lanes r s := by simp [State.freshRamp]

theorem agrees_freshDeck (d : Deck) (s : State) : Agrees s (s.freshDeck d) :=
  agrees_of_tables (by simp [State.freshDeck]) (by simp [State.freshDeck]) (by simp [State.freshDeck])
    (by simp [State.freshDeck])

theorem ordered_ownVesselOpen (s : State) (t : Ticket) (x : Unit) : LanesOrdered (ownVesselOpen t x s) := by
  unfold ownVesselOpen
  exact ((agrees_forDecks agrees_freshDeck _).ordered (emptiesCalled_freshRamp.ordered rfl)).fill t _

theorem emptiesCalled_releaseRamp : EmptiesCalled fun r s => s.releaseRamp r where
  same r s := by
    unfold State.releaseRamp
    dsimp only
    rw [State.ramp_setRamp_same]
  other r s q hq := by
    unfold State.releaseRamp
    dsimp only
    rw [State.ramp_setRamp_other _ _ hq]
    simp
  lanes r s := by simp [State.releaseRamp]

theorem lanes_forDecks {f : Deck → State → State} (hf : ∀ d s, (f d s).lanes = s.lanes) (s : State) :
    (s.forDecks f).lanes = s.lanes := by
  unfold State.forDecks
  generalize allDecks = ds
  induction ds generalizing s with
  | nil => rfl
  | cons d ds ih => exact (ih _).trans (hf d s)

theorem ordered_ownVesselRelease (s : State) (t : Ticket) (x : Unit) : LanesOrdered (ownVesselRelease t x s) := by
  unfold ownVesselRelease
  exact (emptiesCalled_releaseRamp.ordered ((lanes_forDecks (fun d s => by simp [State.releaseDeck]) _).trans rfl)).fill t _

/-- The records that are shut out, or were, hold no lane unless they wait (R165). -/
theorem ReservationLaw.laneless (h : ReservationLaw s) {ref : Ref} {x : Status} (hs : s.statusOf ref = some x)
    (hx : x = .unplaced ∨ x = .lapsed ∨ x = .held ∨ x = .shutOut) : laneOf s ref = none := by
  obtain ⟨v, hv, rfl⟩ : ∃ v, s.unit? ref = some v ∧ v.status = x := by simpa [State.statusOf] using hs
  obtain ⟨-, hstands, -⟩ := h
  have hs := hstands v (unit_mem hv)
  unfold recordStands at hs
  cases hl : v.lane with
  | none => simp [laneOf, hv, hl]
  | some l => rcases hx with hx | hx | hx | hx <;> simp [hx, hl] at hs

/-- The unit waits, or holds no lane. -/
def Dismissible (s : State) (ref : Ref) : Prop := s.statusOf ref = some .waiting ∨ laneOf s ref = none

theorem shutOut_unit (s : State) (ref q : Ref) : laneOf (s.shutOut ref) q = (if q = ref then none else laneOf s q) ∧
    (q ≠ ref → (s.shutOut ref).statusOf q = s.statusOf q) := by
  unfold State.shutOut
  dsimp only
  have hf : KeepsRef fun u => { u with status := .shutOut, lane := none } := fun _ => rfl
  by_cases hq : q = ref
  · subst hq; exact ⟨by rw [if_pos rfl]; exact laneOf_modUnit_none _ hf fun _ => rfl, fun h => absurd rfl h⟩
  · rw [if_neg hq, laneOf_modUnit_other _ hf hq, statusOf_modUnit_other _ hf hq]
    split
    · simp [laneOf_release, hq]
    · simp [laneOf]
    · simp

theorem LanesOrdered.shutOut (hs : LanesOrdered s) {ref : Ref} (hd : Dismissible s ref) : LanesOrdered (s.shutOut ref) := by
  unfold State.shutOut
  dsimp only
  split
  · exact (hs.release ref).modUnit (by simp [laneOf_release]) (fun _ => rfl) fun _ _ => rfl
  · next h =>
    have hl : laneOf s ref = none := hd.resolve_left (by simp [h])
    exact LanesOrdered.modUnit (s := s.leaveUnplaced ref) (hs.setAlc _) (by simpa [laneOf] using hl) (fun _ => rfl)
      fun _ _ => rfl
  · next h _ =>
    exact hs.modUnit (hd.resolve_left h) (fun _ => rfl) fun _ _ => rfl

theorem LanesOrdered.shutOutAll {refs : List Ref} (hs : LanesOrdered s) (hd : ∀ ref ∈ refs, Dismissible s ref) :
    LanesOrdered (refs.foldl State.shutOut s) := by
  induction refs generalizing s with
  | nil => exact hs
  | cons ref refs ih =>
    refine ih (hs.shutOut (hd ref (.head _))) fun q hq => ?_
    obtain ⟨hl, hst⟩ := shutOut_unit s ref q
    by_cases he : q = ref
    · exact .inr (hl.trans (if_pos he))
    · unfold Dismissible
      rw [hl, if_neg he, hst he]
      exact hd q (.tail _ hq)

theorem agrees_secureRamp (r : Ramp) (s : State) : Agrees s (s.secureRamp r) := by
  unfold State.secureRamp
  have h1 : Agrees s ((s.setRampState r .closed).setGate r false) :=
    agrees_of_tables (by simp) (by simp) (by simp) (by simp)
  exact h1.trans ((agrees_setRamp (by rfl)).trans (agrees_setPlate _ r _))

theorem ordered_ownVesselSecure (hs : OrderReady s) (t : Ticket) (x : Unit) : LanesOrdered (ownVesselSecure t x s) := by
  unfold ownVesselSecure
  split_ifs
  · exact hs.lanes.fill t _
  · exact hs.lanes.refuse t _
  · have h1 : LanesOrdered (s.toShutOut.foldl State.shutOut s) := hs.lanes.shutOutAll fun ref hr => by
      obtain ⟨-, hr⟩ := List.mem_filter.1 hr
      cases hst : s.statusOf ref with
      | none => simp [hst] at hr
      | some x =>
        by_cases hw : x = .waiting
        · exact .inl (hw ▸ hst)
        · refine .inr (hs.law.laneless hst ?_)
          cases x <;> simp [hst, Status.shutsOut] at hr hw ⊢
    have h2 : LanesOrdered (((s.toShutOut.foldl State.shutOut s).setSession .secured).setAgeing none) :=
      ((agrees_setSession _ _).trans (agrees_setAgeing _ _)).ordered h1
    exact (((agrees_secureRamp .a _).trans (agrees_secureRamp .b _)).ordered h2).fill t _

theorem ordered_ownVesselReopen (hs : OrderReady s) (t : Ticket) (x : Unit) : LanesOrdered (ownVesselReopen t x s) := by
  unfold ownVesselReopen
  have h1 : LanesOrdered (s.shutOutRefs.foldl (fun s ref => (s.setStatus ref .unplaced).joinUnplaced ref) s) := by
    refine hs.lanes.foldl_laneless (fun t ht ref hn => ?_) (fun t ref q hq => ?_) fun ref hr => ?_
    · exact (ht.setStatus hn .unplaced).setAlc _
    · exact (laneOf_setStatus t ref q .unplaced).trans hq
    · exact hs.law.laneless (by simpa using (List.mem_filter.1 hr).2) (.inr (.inr (.inr rfl)))
  have h2 : LanesOrdered (((s.shutOutRefs.foldl (fun s ref => (s.setStatus ref .unplaced).joinUnplaced ref) s).setSession
      .alongside).setAgeing (some s.agePeriodMs)) := ((agrees_setSession _ _).trans (agrees_setAgeing _ _)).ordered h1
  exact h2.triggerWalk.fill t _

/-! ## Loads, writes and reset -/

/-- Where every record is BOOKED, a state with the same lists has them in order, whatever its profile. -/
theorem ordered_of_all_booked {u : State} (hs : ReservationLaw s) (ha : s.session ≠ .alongside)
    (hsec : s.session ≠ .secured) (hl : ∀ l, (u.lane l).reservations = (s.lane l).reservations)
    (hc : ∀ r, (u.ramp r).called = (s.ramp r).called) : LanesOrdered u := by
  obtain ⟨hres, hcalled⟩ := hs.no_lists (hs.all_booked ha hsec)
  exact lanesOrdered_of_empty (fun l => (hl l).trans (hres l)) fun r => (hc r).trans (hcalled r)

theorem ordered_ownProfileReload (hs : OrderReady s) (t : Ticket) (x : Unit)
    (h : admits s.session .profileReload = true) : LanesOrdered (ownProfileReload t x s) := by
  unfold ownProfileReload
  split_ifs
  · exact hs.lanes.refuse t _
  · have hne : s.session ≠ .alongside ∧ s.session ≠ .secured := by rcases admits_profileReload h with e | e <;> simp [e]
    exact ordered_of_all_booked hs.law hne.1 hne.2 (fun l => by simp [State.lane]) fun r => by simp [State.ramp]

theorem answerLoad_ramp (s : State) (r : Ramp) : s.answerLoad.ramp r = s.ramp r := by
  unfold State.answerLoad; split <;> rfl

theorem loaded_called (x : RampRun) (f : Option RampFixed) : (x.loaded f).called = x.called := by cases f <;> rfl

theorem endLoad_called (s : State) (x : LoadResult) (gradA gradB : BitVec 8) (incl : BitVec 10) (r : Ramp) :
    ((s.endLoad x gradA gradB incl).ramp r).called = (s.ramp r).called := by
  by_cases hp : x.profile.isSome = true
  · rw [endLoad_of_profile s hp, answerLoad_ramp]
    simp [loadedWith_ramp, loaded_called]
  · rw [endLoad_of_no_profile s hp, answerLoad_ramp, loadedWith_ramp, loaded_called]

theorem ordered_execLoadEnd (hs : OrderReady s) {gradA gradB : BitVec 8} {incl : BitVec 10} {u : State}
    (h : execLoadEnd gradA gradB incl s = .next u) : LanesOrdered u := by
  unfold execLoadEnd at h
  split at h
  · next hl =>
    refine ordered_finish ?_ h
    obtain ⟨-, hlanes, -⟩ := endLoad_cargo_frame s (loadImage s.pst.mem s.freeCount) gradA gradB incl
    refine ordered_of_all_booked hs.law (by simp [hl]) (by simp [hl]) (fun l => ?_) (endLoad_called s _ gradA gradB incl)
    unfold State.lane
    rw [hlanes]
  · exact ordered_notNow hs.lanes h

theorem ordered_execHardwareReset {baud1 baud0 : Bool} {partsDone : Nat} {mix : List Byte} {u : State}
    (h : execHardwareReset baud1 baud0 partsDone mix s = .next u) : LanesOrdered u :=
  ordered_finish (lanesOrdered_of_empty (s := State.resetWith _ _ _ _) reservations_replicate_reset
    fun r => by cases r <;> rfl) h

/-- The Profile Store's writes keep the shadow, hence the lanes' ramps. -/
theorem agrees_setPst {x : ProfileStore} (h : x.shadow = s.pst.shadow) : Agrees s (s.setPst x) :=
  { Agrees.refl s with
    ramps := fun l => by unfold State.laneFixed State.profile; rw [State.setPst_pst, h] }

theorem LanesOrdered.setPst (hs : LanesOrdered s) {x : ProfileStore} (h : x.shadow = s.pst.shadow) :
    LanesOrdered (s.setPst x) := (agrees_setPst h).ordered hs

theorem ordered_ownProfileWrite (hs : LanesOrdered s) (prot : Bool) (t : Ticket) (q : ChunkRequest) :
    LanesOrdered (ownProfileWrite prot t q s) := by
  unfold ownProfileWrite
  split_ifs
  · exact hs.refuse t _
  · exact hs.refuse t _
  · split
    · exact hs.refuse t _
    · exact hs.setPst (by rfl)

theorem ordered_execProfileWriteEnd (hs : LanesOrdered s) {stored : List Byte} {u : State}
    (h : execProfileWriteEnd stored s = .next u) : LanesOrdered u := by
  unfold execProfileWriteEnd at h
  split at h
  · refine ordered_finish (LanesOrdered.fill ?_ _ _) h
    exact (agrees_setFreeCount _ _).ordered (hs.setPst (by rfl))
  · exact ordered_notNow hs h

theorem ordered_execWriteTimeout (hs : LanesOrdered s) {partsDone : Nat} {mix : List Byte} {u : State}
    (h : execWriteTimeout partsDone mix s = .next u) : LanesOrdered u := by
  unfold execWriteTimeout at h
  split at h
  · refine ordered_finish (LanesOrdered.fill ?_ _ _) h
    exact hs.setPst (by rfl)
  · exact ordered_notNow hs h

end Sys2Proof.Machine

namespace Sys2Proof.Machine

open Sys2Proof

variable {s : State}

/-! ## The Allocator's commands (R63, R73, R78, R84) -/

theorem LanesOrdered.failPlacement (hs : LanesOrdered s) {ref : Ref} (hn : ¬ Listed s ref) :
    LanesOrdered (s.failPlacement ref) := by
  unfold State.failPlacement
  refine LanesOrdered.setAlc ?_ _
  exact hs.modUnit_unlisted (fun _ => rfl) hn

theorem LanesOrdered.servePlacement (hs : LanesOrdered s) {v w : UnitRecord} (hv : s.unit? v.decl.ref = some w)
    (hn : ¬ Listed s v.decl.ref) (former : Option Lane) : LanesOrdered (s.servePlacement v former) := by
  unfold State.servePlacement
  split
  · exact hs.reserve hv hn
  · exact hs.failPlacement hn

theorem agrees_tellPlacement (s : State) (ref : Ref) (cause : Cause) : Agrees s (s.tellPlacement ref cause) := by
  cases cause with
  | checkIn t => exact agrees_fill s t _
  | present t => exact agrees_fill s t _
  | releaseHold t => exact agrees_fill s t _
  | reallocation former =>
    unfold State.tellPlacement
    dsimp only
    split
    · exact agrees_notify s _
    · exact .refl s

/-- A unit that waits to be placed stands in no list (R62). -/
theorem ReservationLaw.placement_unlisted (h : ReservationLaw s) {ref : Ref} {cause : Cause}
    (hm : .placement ref cause ∈ s.alc.service) : ¬ Listed s ref := by
  obtain ⟨-, -, -, -, hserv, -⟩ := id h
  have hfit := hserv _ hm
  cases cause <;>
  · obtain ⟨v, hv, hp⟩ := unitIs_iff.1 hfit
    simp only [Bool.and_eq_true, decide_eq_true_eq] at hp
    exact h.unlisted hv (by simp [hp.2]) (by simp [hp.2]) (by simp [hp.2])

theorem ordered_execPlacementServed (hs : OrderReady s) {u : State} (h : execPlacementServed s = .next u) :
    LanesOrdered u := by
  unfold execPlacementServed at h
  split at h
  · split at h
    · next ref cause rest hserv =>
      have hn := hs.law.placement_unlisted (ref := ref) (cause := cause) (by rw [hserv]; exact .head _)
      have h1 : LanesOrdered (s.setAlc { s.alc with service := rest }) := hs.lanes.setAlc _
      dsimp only at h
      split at h
      · next v hv =>
        obtain rfl : v.decl.ref = ref := unit_ref (s := s) hv
        exact ordered_finish ((agrees_tellPlacement _ _ _).ordered (h1.servePlacement hv hn _)) h
      · exact ordered_finish ((agrees_tellPlacement _ _ _).ordered h1) h
    · exact ordered_notNow hs.lanes h
  · exact ordered_notNow hs.lanes h

theorem ordered_execRetryWalk (hs : LanesOrdered s) {u : State} (h : execRetryWalk s = .next u) : LanesOrdered u := by
  unfold execRetryWalk at h
  split at h
  · split at h
    · exact ordered_finish (hs.setAlc _) h
    · exact ordered_notNow hs h
  · exact ordered_notNow hs h

/-- The units of a walk are UNPLACED and stand in no list (R75, R78). -/
theorem ReservationLaw.walk_unlisted (h : ReservationLaw s) {ref : Ref} (hm : ref ∈ s.alc.walk) : ¬ Listed s ref := by
  obtain ⟨-, -, -, -, -, -, -, hunplaced, hwalk, -⟩ := id h
  obtain ⟨v, hv, hp⟩ := unitIs_iff.1 (hunplaced ref (hwalk.subset hm))
  simp only [Bool.and_eq_true, decide_eq_true_eq] at hp
  exact h.unlisted hv (by simp [hp.1]) (by simp [hp.1]) (by simp [hp.1])

theorem LanesOrdered.visit (hs : LanesOrdered s) {v : UnitRecord} (hv : s.unit? v.decl.ref = some v)
    (hn : ¬ Listed s v.decl.ref) : LanesOrdered (s.visit v) := by
  unfold State.visit
  split
  · exact LanesOrdered.reserve (s := s.leaveUnplaced v.decl.ref) (hs.setAlc _) hv hn
  · exact hs

theorem ordered_execWalkVisit (hs : OrderReady s) {u : State} (h : execWalkVisit s = .next u) : LanesOrdered u := by
  unfold execWalkVisit at h
  split at h
  · exact ordered_notNow hs.lanes h
  · next ref rest hwalk =>
    have hn := hs.law.walk_unlisted (ref := ref) (by rw [hwalk]; exact .head _)
    have h1 : LanesOrdered (s.setAlc { s.alc with walk := rest }) := hs.lanes.setAlc _
    dsimp only at h
    split at h
    · next v hv =>
      obtain rfl : v.decl.ref = ref := unit_ref (s := s) hv
      exact ordered_finish (h1.visit hv hn) h
    · exact ordered_finish h1 h

/-- A unit that waits for a redirect search has left lane and called list (R83). -/
theorem OrderReady.redirect_unlisted (hs : OrderReady s) {x : Redirect} (hm : .redirect x ∈ s.alc.service) :
    ¬ Listed s x.ref := by
  obtain ⟨-, -, -, -, hserv, -⟩ := hs.law
  have hfit := hserv _ hm
  simp only [itemFits, Bool.and_eq_true, Bool.not_eq_true', List.contains_eq_mem, decide_eq_false_iff_not] at hfit
  obtain ⟨⟨hunit, ha⟩, hb⟩ := hfit
  obtain ⟨v, hv, hp⟩ := unitIs_iff.1 hunit
  simp only [Bool.and_eq_true, decide_eq_true_eq] at hp
  obtain ⟨⟨-, hl⟩, -⟩ := hp
  rintro (⟨l, hr⟩ | ⟨r, hr⟩)
  · exact hs.lanes.notMem_of_laneless (by simp [laneOf, hv, hl]) l hr
  · cases r
    · exact ha hr
    · exact hb hr

theorem LanesOrdered.writeCrossing (hs : LanesOrdered s) (ref : Ref) (x : CrossingResult) (b : Bool) :
    LanesOrdered (s.writeCrossing ref x b) := by
  unfold State.writeCrossing
  exact hs.modUnit_keeping (fun _ => rfl) fun _ => ⟨rfl, rfl⟩

theorem LanesOrdered.serveRedirect (hs : LanesOrdered s) {v : UnitRecord} {x : Redirect} (hr : v.decl.ref = x.ref)
    (hn : ¬ Listed s x.ref) : LanesOrdered (s.serveRedirect v x) := by
  unfold State.serveRedirect
  split
  · exact (hs.board (hr ▸ hn) _ _ _ _ _).notify _
  · exact ((hs.setStatus_unlisted hn .held).writeCrossing _ _ _).notify _

theorem ordered_execRedirectSearch (hs : OrderReady s) {u : State} (h : execRedirectSearch s = .next u) :
    LanesOrdered u := by
  unfold execRedirectSearch at h
  split at h
  · split at h
    · next x rest hserv =>
      have hn := hs.redirect_unlisted (x := x) (by rw [hserv]; exact .head _)
      have h1 : LanesOrdered (s.setAlc { s.alc with service := rest }) := hs.lanes.setAlc _
      dsimp only at h
      split at h
      · next v hv => exact ordered_finish (h1.serveRedirect (unit_ref (s := s) hv) hn) h
      · exact ordered_finish h1 h
    · exact ordered_notNow hs.lanes h
  · exact ordered_notNow hs.lanes h

/-! ## Ageing (R17 to R19) -/

theorem aged_status (v : UnitRecord) : v.aged.status = v.status := by unfold UnitRecord.aged; split <;> rfl

theorem agrees_ageAll (s : State) : Agrees s s.ageAll :=
  { Agrees.refl s with
    units := fun q _ => ⟨by
      simp only [State.statusOf, unit_ageAll]
      cases s.unit? q <;> simp [aged_status], laneOf_ageAll s q⟩ }

theorem ordered_execAgeingExpiry (hs : LanesOrdered s) {u : State} (h : execAgeingExpiry s = .next u) :
    LanesOrdered u := by
  unfold execAgeingExpiry at h
  split at h
  · have h1 : LanesOrdered (((s.setAgeing (some s.agePeriodMs)).ageAll).lapsing.foldl State.lapse
        (s.setAgeing (some s.agePeriodMs)).ageAll) :=
      LanesOrdered.foldl (fun _ ht => ht.lapse) _ (((agrees_setAgeing s _).trans (agrees_ageAll _)).ordered hs)
    refine ordered_finish ?_ h
    split
    · exact h1
    · exact h1.triggerWalk
  · exact ordered_notNow hs h

/-! ## Calls and their timers (R109 to R116) -/

/-- The call's choice stands in one of the queues and is eligible (R111). -/
theorem callChoice_spec {r : Ramp} {ref : Ref} {credit : Nat} (h : s.callChoice r = some (ref, credit)) :
    (ref ∈ (s.ramp r).prio ∨ ref ∈ (s.ramp r).ord) ∧ s.eligible r ref = true := by
  have found {xs : List Ref} {q : Ref} (h : xs.find? (s.eligible r) = some q) : q ∈ xs ∧ s.eligible r q = true :=
    ⟨List.mem_of_find?_eq_some h, List.find?_some h⟩
  unfold State.callChoice at h
  dsimp only at h
  split at h
  · cases h
  · next hp _ => cases h; exact ⟨.inl (found hp).1, (found hp).2⟩
  · next ho => cases h; exact ⟨.inr (found ho).1, (found ho).2⟩
  · next hp ho =>
    split_ifs at h <;> cases h
    · exact ⟨.inl (found hp).1, (found hp).2⟩
    · exact ⟨.inl (found hp).1, (found hp).2⟩
    · exact ⟨.inr (found ho).1, (found ho).2⟩

/-- A queue's units wait (R103). -/
theorem ReservationLaw.queued_waits (h : ReservationLaw s) {r : Ramp} {ref : Ref}
    (hq : ref ∈ (s.ramp r).prio ∨ ref ∈ (s.ramp r).ord) : ∃ v, s.unit? ref = some v ∧ v.status = .waiting := by
  obtain ⟨-, -, -, hramps, -⟩ := h
  obtain ⟨-, -, hprio, hord, -⟩ := hramps r
  rcases hq with hq | hq
  · obtain ⟨v, hv, hp⟩ := unitIs_iff.1 (hprio ref hq)
    simp only [Bool.and_eq_true, decide_eq_true_eq] at hp
    exact ⟨v, hv, hp.1.1⟩
  · obtain ⟨v, hv, hp⟩ := unitIs_iff.1 (hord ref hq)
    simp only [Bool.and_eq_true, decide_eq_true_eq] at hp
    exact ⟨v, hv, hp.1.1⟩

/-- A WAITING unit stands in no called list. -/
theorem ReservationLaw.waiting_uncalled (h : ReservationLaw s) {ref : Ref} {v : UnitRecord} (hv : s.unit? ref = some v)
    (hw : v.status = .waiting) (r : Ramp) : ref ∉ (s.ramp r).called := fun hc => by
  obtain ⟨w, hw', hs⟩ := h.calledUnit hc
  obtain rfl := Option.some.inj (hv.symm.trans hw')
  rcases hs with ⟨hs, -⟩ | ⟨hs, -⟩ <;> simp [hw] at hs

theorem laneOrderMet_of_eligible {r : Ramp} {ref : Ref} {v : UnitRecord} (hv : s.unit? ref = some v)
    (h : s.eligible r ref = true) : s.laneOrderMet v = true := by
  unfold State.eligible at h
  simp only [hv, Bool.and_eq_true] at h
  exact h.1.1.1

theorem ordered_execCall (hs : OrderReady s) {r : Ramp} {u : State} (h : execCall r s = .next u) : LanesOrdered u := by
  unfold execCall at h
  split at h
  · split at h
    · next ref credit hch =>
      split at h
      · next v hv =>
        split at h
        · next l hl =>
          obtain ⟨hq, he⟩ := callChoice_spec hch
          obtain rfl := unit_ref hv
          obtain ⟨w, hw, hwait⟩ := hs.law.queued_waits hq
          obtain rfl := Option.some.inj (hv.symm.trans hw)
          obtain ⟨k, hk, hm, -⟩ := hs.law.waiting (unit_mem hv) hwait
          obtain rfl := Option.some.inj (hl.symm.trans hk)
          obtain ⟨k, hk, hr⟩ := hs.law.queued hq
          obtain rfl : l = k := by simpa [laneOf, hv, hl] using hk
          exact ordered_finish (hs.lanes.makeCall hv hl hr hm (hs.law.waiting_uncalled hv hwait r)
            (laneOrderMet_of_eligible hv he)) h
        · exact ordered_notNow hs.lanes h
      · exact ordered_notNow hs.lanes h
    · exact ordered_notNow hs.lanes h
  · exact ordered_notNow hs.lanes h

theorem ordered_execIntervalTimerExpiry (hs : LanesOrdered s) {r : Ramp} {u : State}
    (h : execIntervalTimerExpiry r s = .next u) : LanesOrdered u := by
  unfold execIntervalTimerExpiry at h
  split at h
  · refine ordered_finish ?_ h
    exact hs.setRamp (by rfl)
  · exact ordered_notNow hs h

theorem OrderReady.firstNoShow (hs : OrderReady s) {r : Ramp} {v : UnitRecord} {l : Lane}
    (hm : v.decl.ref ∈ (s.ramp r).called) (hr : (s.laneFixed l).ramp = r) (hl : laneOf s v.decl.ref = some l) :
    LanesOrdered (s.firstNoShow r v l) := by
  unfold State.firstNoShow
  have hf : KeepsRef fun u => { u with noShow := 1 } := fun _ => rfl
  have hag : Agrees s (s.modUnit v.decl.ref fun u => { u with noShow := 1 }) :=
    agrees_modUnit hf fun _ _ => ⟨rfl, rfl⟩
  have hlane := (hag.units _ (.inr ⟨r, hm⟩)).2.trans hl
  have hramp : ((s.modUnit v.decl.ref fun u => { u with noShow := 1 }).laneFixed l).ramp = r := (hag.ramps l).trans hr
  have hbehind : ∀ q ∈ behindIn (s.modUnit v.decl.ref fun u => { u with noShow := 1 }) r v.decl.ref,
      (s.modUnit v.decl.ref fun u => { u with noShow := 1 }).statusOf q = some .called := fun q hq =>
    (hag.units q (.inr ⟨r, mem_behindIn (s := s) hq⟩)).1.trans (hs.law.called_behind hm hq)
  exact (hag.ordered hs.lanes).uncallToWaiting hramp true .noShow hm hlane (hs.law.called_nodup r) hbehind

theorem LanesOrdered.secondNoShow (hs : LanesOrdered s) (r : Ramp) (v : UnitRecord) : LanesOrdered (s.secondNoShow r v) := by
  unfold State.secondNoShow
  have held : LanesOrdered ((s.release v.decl.ref).setStatus v.decl.ref .held) :=
    (hs.release _).setStatus (by simp [laneOf_release]) .held
  exact ((held.leaveCalled (by simp [laneOf_release]) r).notify _).triggerWalk

theorem ordered_execCallTimerExpiry (hs : OrderReady s) {r : Ramp} {u : State} (h : execCallTimerExpiry r s = .next u) :
    LanesOrdered u := by
  unfold execCallTimerExpiry at h
  split at h
  · split at h
    · next v hv =>
      split at h
      · next l hl =>
        split at h
        · next hc =>
          obtain ⟨ref, hhead, hv⟩ := Option.bind_eq_some_iff.1 hv
          have hm := List.mem_of_head? hhead
          obtain rfl := unit_ref hv
          obtain ⟨w, hw, ⟨-, k, hk, hr⟩ | ⟨hx, -⟩⟩ := hs.law.calledUnit hm
          · obtain rfl := Option.some.inj (hv.symm.trans hw)
            obtain rfl := Option.some.inj (hl.symm.trans hk)
            refine ordered_finish ?_ h
            split
            · exact hs.firstNoShow hm hr (by simp [laneOf, hv, hl])
            · exact hs.lanes.secondNoShow r v
          · obtain rfl := Option.some.inj (hv.symm.trans hw)
            exact nomatch hc.symm.trans hx
        · exact ordered_notNow hs.lanes h
      · exact ordered_notNow hs.lanes h
    · exact ordered_notNow hs.lanes h
  · exact ordered_notNow hs.lanes h

/-! ## Crossings and samples (R125 to R142) -/

/-- A unit that does not wait takes another status: none of those that wait is disturbed. -/
theorem LanesOrdered.restatus (hs : LanesOrdered s) {ref : Ref} (hw : s.statusOf ref ≠ some .waiting) (x : Status) :
    LanesOrdered (s.setStatus ref x) where
  nodup := hs.nodup
  housed l q hq := by rw [laneOf_setStatus]; exact hs.housed l q hq
  order l := by
    obtain ⟨behind, hr, hb⟩ := hs.split l
    refine ⟨calledIn s l, behind, hr, fun q hq => ?_, by simp only [laneOf_setStatus]; rfl⟩
    have hne : q ≠ ref := fun e => hw (e ▸ hb q hq)
    have hf : KeepsRef fun u => { u with status := x } := fun _ => rfl
    exact (statusOf_modUnit_other s hf hne).trans (hb q hq)

theorem OrderReady.openCrossing (hs : OrderReady s) (r : Ramp) : LanesOrdered (s.openCrossing r) := by
  unfold State.openCrossing
  dsimp only
  have h1 (x : Plate) : LanesOrdered (s.setPlate r x) := (agrees_setPlate s r x).ordered hs.lanes
  split
  · next ref hhead =>
    have hw : s.statusOf ref ≠ some .waiting := by
      obtain ⟨v, hv, ⟨hst, -⟩ | ⟨hst, -⟩⟩ := hs.law.calledUnit (List.mem_of_head? hhead) <;>
        simp [State.statusOf, hv, hst]
    exact LanesOrdered.setRamp ((h1 _).restatus hw .crossing) (by rfl)
  · exact (agrees_modLink _).ordered (h1 _)

theorem ordered_execAxleEdge (hs : OrderReady s) {r : Ramp} {u : State} (h : execAxleEdge r s = .next u) :
    LanesOrdered u := by
  unfold execAxleEdge at h
  split at h
  · exact ordered_notNow hs.lanes h
  · exact ordered_finish (hs.openCrossing r) h
  · exact ordered_finish ((agrees_setPlate s r _).ordered hs.lanes) h

theorem ordered_execConversionComplete (hs : LanesOrdered s) {r : Ramp} {code : BitVec 10} {u : State}
    (h : execConversionComplete r code s = .next u) : LanesOrdered u := by
  unfold execConversionComplete at h
  split at h
  · exact ordered_finish ((agrees_setPlate s r _).ordered hs) h
  · exact ordered_notNow hs h

theorem ordered_execGapTimerExpiry (hs : OrderReady s) {r : Ramp} {u : State} (h : execGapTimerExpiry r s = .next u) :
    LanesOrdered u := by
  unfold execGapTimerExpiry at h
  dsimp only at h
  split at h
  · split at h
    · next ref hp =>
      obtain ⟨-, w, hw, -⟩ := hs.law.onPlate hp
      have hunit : ((s.clearPlate r).leaveCalled r ref).unit? ref = s.unit? ref := by simp [unitOf_clearPlate]
      split at h
      · next v hv =>
        exact ordered_finish ((agrees_timeHead _ r).ordered (hs.settle hp (hunit.symm.trans hv) _)) h
      · next hn => exact nomatch (hunit.symm.trans hn).symm.trans hw
    · exact ordered_finish ((agrees_timeHead _ r).ordered
        (((agrees_clearPlate s r).ordered hs.lanes).notify _)) h
  · exact ordered_notNow hs.lanes h

theorem ordered_execSampleTimerExpiry (hs : LanesOrdered s) {gradA gradB : BitVec 8} {incl : BitVec 10} {u : State}
    (h : execSampleTimerExpiry gradA gradB incl s = .next u) : LanesOrdered u := by
  unfold execSampleTimerExpiry at h
  split at h
  · exact ordered_finish (Agrees.ordered (agrees_of_tables (by simp) (by simp) (by simp) (by simp)) hs) h
  · exact ordered_notNow hs h

/-! ## The link (R169 to R178) -/

theorem ordered_receiveBytes (hs : LanesOrdered s) (bytes : List Byte) : LanesOrdered (s.receiveBytes bytes) := by
  unfold State.receiveBytes
  induction bytes generalizing s with
  | nil => exact hs
  | cons b bytes ih =>
    refine ih ?_
    have h1 : LanesOrdered (s.modLink fun k => { k with rx := (receive s.link.rx b).1 }) := (agrees_modLink _).ordered hs
    unfold State.receiveByte
    dsimp only
    split
    · unfold State.acceptFrame
      split_ifs
      · exact h1
      · exact h1
      · exact h1
      · exact (agrees_modLink _).ordered h1
    · exact h1

theorem ordered_execBadKindRequest (hs : LanesOrdered s) {u : State} (h : execBadKindRequest s = .next u) :
    LanesOrdered u := by
  unfold execBadKindRequest at h
  split at h
  · exact ordered_notNow hs h
  · next f v hf =>
    obtain ⟨rest, -, rfl⟩ := takeFrame_eq_some hf
    split at h
    · exact ordered_finish (((agrees_modLink _).ordered hs).refuse _ _) h
    · exact ordered_notNow hs h

theorem ordered_execFrameSent (hs : LanesOrdered s) {u : State} (h : execFrameSent s = .next u) : LanesOrdered u := by
  unfold execFrameSent at h
  split at h
  · exact ordered_notNow hs h
  · exact ordered_finish ((agrees_modLink _).ordered hs) h

/-! ## Ballast, flags, queries -/

theorem ordered_ownSetBallast (hs : LanesOrdered s) (t : Ticket) (q : Int × Int) : LanesOrdered (ownSetBallast t q s) := by
  unfold ownSetBallast
  have h1 (x : Stability) : LanesOrdered (s.setStb x) :=
    Agrees.ordered (s := s) (agrees_of_tables rfl rfl (fun _ => rfl) fun _ => rfl) hs
  exact ((h1 _).fill t _).triggerWalk

theorem ordered_ownClearFlags (hs : LanesOrdered s) (t : Ticket) (sel : Byte) : LanesOrdered (ownClearFlags t sel s) :=
  LanesOrdered.fill ((agrees_modLink _).ordered hs) t _

theorem ordered_ownQueryUnit (hs : LanesOrdered s) (t : Ticket) (ref : Ref) : LanesOrdered (ownQueryUnit t ref s) :=
  ordered_withUnit hs fun _ _ => hs.fill t _

theorem ordered_ownQueryLane (hs : LanesOrdered s) (t : Ticket) (q : Lane × Nat) : LanesOrdered (ownQueryLane t q s) :=
  hs.fill t _

theorem ordered_ownQueryQueue (hs : LanesOrdered s) (t : Ticket) (q : QueueRequest) : LanesOrdered (ownQueryQueue t q s) :=
  hs.fill t _

theorem ordered_ownQueryStatus (hs : LanesOrdered s) (t : Ticket) (x : Unit) : LanesOrdered (ownQueryStatus t x s) :=
  hs.fill t _

/-! ## Every step -/

theorem ordered_exec {c : Instr} {u : State} (hs : OrderReady s) (h : exec c s = .next u) : LanesOrdered u := by
  cases c with
  | hardwareReset => exact ordered_execHardwareReset h
  | loadEnd => exact ordered_execLoadEnd hs h
  | frameComplete bytes => cases h; exact ordered_receiveBytes hs.lanes bytes
  | framingError bytes => cases h; exact (agrees_modLink _).ordered (ordered_receiveBytes hs.lanes bytes)
  | frameDiscarded bytes => cases h; exact ordered_receiveBytes hs.lanes bytes
  | frameSent => exact ordered_execFrameSent hs.lanes h
  | badKindRequest => exact ordered_execBadKindRequest hs.lanes h
  | vesselOpen => exact ordered_handle hs (fun t req v _ _ => ordered_ownVesselOpen v t req) h
  | vesselSecure => exact ordered_handle hs (fun t req _ hv _ => ordered_ownVesselSecure hv t req) h
  | vesselReopen => exact ordered_handle hs (fun t req _ hv _ => ordered_ownVesselReopen hv t req) h
  | vesselRelease => exact ordered_handle hs (fun t req v _ _ => ordered_ownVesselRelease v t req) h
  | book => exact ordered_handle hs (fun t req _ hv _ => ordered_ownBook hv t req) h
  | amend => exact ordered_handle hs (fun t req _ hv _ => ordered_ownAmend hv t req) h
  | cancel => exact ordered_handle hs (fun t req _ hv _ => ordered_ownCancel hv t req) h
  | checkIn => exact ordered_handle hs (fun t req _ hv _ => ordered_ownCheckIn hv.lanes t req) h
  | present => exact ordered_handle hs (fun t req _ hv _ => ordered_ownPresent hv.lanes t req) h
  | holdUnit => exact ordered_handle hs (fun t req _ hv _ => ordered_ownHoldUnit hv t req) h
  | releaseHold => exact ordered_handle hs (fun t req _ hv _ => ordered_ownReleaseHold hv.lanes t req) h
  | place => exact ordered_handle hs (fun t req _ hv _ => ordered_ownPlace hv t req) h
  | discharge => exact ordered_handle hs (fun t req _ hv _ => ordered_ownDischarge hv t req) h
  | rampOpen => exact ordered_handle hs (fun t req _ hv _ => ordered_ownRampOpen hv.lanes t req) h
  | rampClose => exact ordered_handle hs (fun t req _ hv _ => ordered_ownRampClose hv.lanes t req) h
  | setRamp => exact ordered_handle hs (fun t req _ hv _ => ordered_ownSetRamp hv.lanes t req) h
  | skip => exact ordered_handle hs (fun t req _ hv _ => ordered_ownSkip hv t req) h
  | laneClose => exact ordered_handle hs (fun t req _ hv _ => ordered_ownLaneClose hv.lanes t req) h
  | laneOpen => exact ordered_handle hs (fun t req _ hv _ => ordered_ownLaneOpen hv.lanes t req) h
  | obstructionAdd => exact ordered_handle hs (fun t req _ hv _ => ordered_ownObstructionAdd hv.lanes t req) h
  | obstructionClear => exact ordered_handle hs (fun t req _ hv _ => ordered_ownObstructionClear hv.lanes t req) h
  | setBallast => exact ordered_handle hs (fun t req _ hv _ => ordered_ownSetBallast hv.lanes t req) h
  | clearFlags => exact ordered_handle hs (fun t req _ hv _ => ordered_ownClearFlags hv.lanes t req) h
  | profileWrite prot => exact ordered_handle hs (fun t req _ hv _ => ordered_ownProfileWrite hv.lanes prot t req) h
  | profileWriteEnd => exact ordered_execProfileWriteEnd hs.lanes h
  | writeTimeout => exact ordered_execWriteTimeout hs.lanes h
  | profileReload => exact ordered_handle hs (fun t req _ hv ha => ordered_ownProfileReload hv t req ha) h
  | queryUnit => exact ordered_handle hs (fun t req _ hv _ => ordered_ownQueryUnit hv.lanes t req) h
  | queryLane => exact ordered_handle hs (fun t req _ hv _ => ordered_ownQueryLane hv.lanes t req) h
  | queryQueue => exact ordered_handle hs (fun t req _ hv _ => ordered_ownQueryQueue hv.lanes t req) h
  | queryStatus => exact ordered_handle hs (fun t req _ hv _ => ordered_ownQueryStatus hv.lanes t req) h
  | placementServed => exact ordered_execPlacementServed hs h
  | retryWalk => exact ordered_execRetryWalk hs.lanes h
  | walkVisit => exact ordered_execWalkVisit hs h
  | redirectSearch => exact ordered_execRedirectSearch hs h
  | ageingExpiry => exact ordered_execAgeingExpiry hs.lanes h
  | call r => exact ordered_execCall hs h
  | intervalTimerExpiry r => exact ordered_execIntervalTimerExpiry hs.lanes h
  | callTimerExpiry r => exact ordered_execCallTimerExpiry hs h
  | axleEdge r => exact ordered_execAxleEdge hs h
  | conversionComplete r code => exact ordered_execConversionComplete hs.lanes h
  | gapTimerExpiry r => exact ordered_execGapTimerExpiry hs h
  | sampleTimerExpiry => exact ordered_execSampleTimerExpiry hs.lanes h

theorem ordered_step {u : State} (hs : OrderReady s) (h : step s = .next u) : LanesOrdered u := by
  obtain rfl | ⟨c, q, hc⟩ := step_next h
  · exact hs.lanes
  · exact ordered_exec (s := s.setPending q) ⟨hs.law, hs.order⟩ hc

/-- Settles O56: each command's parts keep the lists in order, by what `LanesOrdered` says beside the law. -/
theorem laneOrderIsKept : Obligations.LaneOrderIsKept := by
  unfold Obligations.LaneOrderIsKept
  exact fun _ _ _ hlaw horder h => (ordered_step ⟨hlaw, horder⟩ h).order

end Sys2Proof.Machine

namespace Sys2Proof.Machine

open Sys2Proof

/-! ## LANE_OPEN and OBSTRUCTION_CLEAR (R36, R39) -/

theorem onlyChanges_setLane (s : State) (l : Lane) (x : LaneRun) : OnlyChanges [.lane l] s (s.setLane l x) :=
  fun b hb => by
  cases b with
  | lane k => exact State.lane_setLane_other s x (by simpa using hb)
  | _ => rfl

/-- A lane that is given another record, with a walk asked for and the request answered. -/
theorem lane_then_walk (s : State) (f : Frame) (rest : List Frame) (l : Lane) (x : LaneRun) (r : Reply) :
    let u := (((s.taken f rest).setLane l x).triggerWalk).fill f.ticket r
    Replied s u f rest r ∧ NoNews s u ∧ u.lane l = x ∧ WalkAsked s u ∧ u.alc.unplaced = s.alc.unplaced ∧
      u.alc.walk = s.alc.walk ∧ OnlyChanges [.link, .lane l, .alc] s u := by
  obtain ⟨hunplaced, hwalk⟩ := triggerWalk_lists ((s.taken f rest).setLane l x)
  refine answered_of_link (by simp) ⟨by simp, ?_, by simpa using hunplaced, by simpa using hwalk, ?_⟩
  · exact (walkAsked_triggerWalk ((s.taken f rest).setLane l x)).of_eq (by simp)
  · exact onlyChanges_fill (f := f) (rest := rest) _ _ (by simp)
      (.trans ((onlyChanges_setLane _ l x).mono (by simp)) ((onlyChanges_triggerWalk _).mono (by simp)))

/-- Settles O18: a lane that is not OPEN, or a record that matches, and the walk behind it. -/
theorem laneOpenAndObstructionClearMakeRoom : Obligations.LaneOpenAndObstructionClearMakeRoom := by
  unfold Obligations.LaneOpenAndObstructionClearMakeRoom
  refine ⟨fun s f rest l hq => ⟨fun hh hs => ?_, fun hh hs => ?_, fun hh hs => ?_⟩, fun s f rest q hh hq => ?_⟩
  · have hx : exec .laneOpen s = .next (ownLaneOpen f.ticket l (s.taken f rest)).startTx := handle_of_handed hh hq rfl
    have hs' : ((s.taken f rest).lane l).state ≠ .opened := hs
    unfold ownLaneOpen at hx
    simp only [hs', if_false] at hx
    exact ⟨_, hx, lane_then_walk s f rest l _ .done⟩
  · have hx : exec .laneOpen s = .next (ownLaneOpen f.ticket l (s.taken f rest)).startTx := handle_of_handed hh hq rfl
    have hs' : ((s.taken f rest).lane l).state = .opened := hs
    unfold ownLaneOpen at hx
    simp only [hs', if_true] at hx
    exact ⟨_, hx, refused_outcome s f rest .laneState⟩
  · have hx : exec .laneClose s = .next (ownLaneClose f.ticket l (s.taken f rest)).startTx := handle_of_handed hh hq rfl
    have hs' : ((s.taken f rest).lane l).state ≠ .opened := hs
    unfold ownLaneClose at hx
    simp only [hs', if_false] at hx
    exact ⟨_, hx, refused_outcome s f rest .laneState⟩
  · have hx : exec .obstructionClear s = .next (ownObstructionClear f.ticket q (s.taken f rest)).startTx :=
      handle_of_handed hh hq rfl
    intro length x
    have hclip : (s.taken f rest).clip q = x := rfl
    unfold ownObstructionClear at hx
    rw [hclip] at hx
    refine ⟨fun hm => ?_, fun hm => ?_⟩
    · have hc : ((s.taken f rest).lane q.lane).obstructions.contains x = true := by simpa using hm
      simp only [hc, if_true] at hx
      have hlen : (((s.taken f rest).lane q.lane).obstructions.erase x).length =
          (s.lane q.lane).obstructions.length - 1 := List.length_erase_of_mem hm
      rw [hlen] at hx
      exact ⟨_, hx, lane_then_walk s f rest q.lane _ _⟩
    · have hc : ((s.taken f rest).lane q.lane).obstructions.contains x = false := by simpa using hm
      simp only [hc] at hx
      exact ⟨_, hx, refused_outcome s f rest .badField⟩

/-! ## OBSTRUCTION_ADD where all still fits (R32, R33) -/

/-- Units in a lane's order, none of which ends beyond the lane when they are projected (R27, R28). -/
def Fits (s : State) (l : Lane) (refs : List Ref) : Prop := s.allFit l (s.projectUnits l refs) = true

theorem fits_iff {s : State} {l : Lane} {refs : List Ref} : Fits s l refs ↔
    ∀ p ∈ projectFrom (s.lane l).obstructions s.vessel.gap (s.startPoint l) (refs.map fun r => (r, s.lengthOf r)),
      p.stop ≤ (s.laneFixed l).length := by
  simp [Fits, State.allFit, State.projectUnits]

/-- The units that stay are the longest run from the front that fits (R34). -/
theorem fittingRun_eq {s : State} {l : Lane} {kept gone : List Ref} (hk : Fits s l kept)
    (hn : ∀ n, 0 < n → n ≤ gone.length → ¬ Fits s l (kept ++ gone.take n)) :
    s.fittingRun l (kept ++ gone).reverse = kept := by
  induction gone using List.reverseRecOn with
  | nil =>
    rw [List.append_nil]
    unfold Fits at hk
    cases h : kept.reverse with
    | nil => simpa [State.fittingRun] using (List.reverse_eq_nil_iff.1 h).symm
    | cons ref rest =>
      have hrev : (ref :: rest).reverse = kept := by rw [← h, List.reverse_reverse]
      simp only [State.fittingRun, hrev, hk, if_true]
  | append_singleton gone ref ih =>
    have hall : ¬ Fits s l (kept ++ (gone ++ [ref])) := by
      have := hn (gone ++ [ref]).length (by simp) (le_refl _)
      rwa [List.take_length] at this
    have hstep : s.fittingRun l (kept ++ (gone ++ [ref])).reverse = s.fittingRun l (kept ++ gone).reverse := by
      unfold Fits at hall
      have hrev : (ref :: (kept ++ gone).reverse).reverse = kept ++ (gone ++ [ref]) := by simp
      have hcons : (kept ++ (gone ++ [ref])).reverse = ref :: (kept ++ gone).reverse := by simp
      rw [hcons]
      simp only [State.fittingRun, hrev, hall]
      rfl
    rw [hstep]
    refine ih fun n h0 hle => ?_
    have := hn n h0 (by simp; omega)
    rwa [List.take_append_of_le_length hle] at this

/-- Where all still fit, a new obstruction releases nothing. -/
theorem refit_of_fits {s : State} {l : Lane} (h : Fits s l (s.lane l).reservations) : s.refit l = (s, 0) := by
  have hrun := fittingRun_eq (gone := []) h (by simp; omega)
  rw [List.append_nil] at hrun
  simp [State.refit, hrun, State.withStatus, State.reallocated]

theorem overlapsOccupant_iff {s : State} {l : Lane} {x : Obstruction} : s.overlapsOccupant l x = true ↔
    ∃ o ∈ (s.lane l).occupants, o.offset < x.start + x.extent ∧ x.start < o.offset + s.lengthOf o.ref := by
  simp [State.overlapsOccupant, meets]

/-- The lane with the record of an obstruction entered. -/
def withObstruction (s : State) (l : Lane) (x : Obstruction) : State :=
  s.setLane l { s.lane l with obstructions := insertObstruction x (s.lane l).obstructions }

/-- An obstruction request for which there is room enters the record and re-examines the lane (R33, R34). -/
theorem exec_obstructionAdd {s : State} {f : Frame} {rest : List Frame} {q : SpanRequest}
    (hh : Handed .obstructionAdd (deckOfLane s q.lane) s f rest) (hq : readSpan s f.payload = some q)
    (ho : s.overlapsOccupant q.lane (s.clip q) = false) (hlen : (s.lane q.lane).obstructions.length < 2) :
    let p := (withObstruction (s.taken f rest) q.lane (s.clip q)).refit q.lane
    exec .obstructionAdd s = .next (p.1.fill f.ticket (.obstructionAdded false p.2)).startTx := by
  have hx : exec .obstructionAdd s = .next (ownObstructionAdd f.ticket q (s.taken f rest)).startTx :=
    handle_of_handed hh hq rfl
  have ho' : (s.taken f rest).overlapsOccupant q.lane ((s.taken f rest).clip q) = false := ho
  have hlen' : ((s.taken f rest).lane q.lane).obstructions.length < Config.maxObstructions := hlen
  unfold ownObstructionAdd at hx
  simp only [ho', hlen', if_true, if_false, Bool.false_eq_true] at hx
  exact hx

/-- The projection in the lane with the new record (R28). -/
theorem fits_withObstruction {s : State} {l : Lane} {x : Obstruction} {refs : List Ref} :
    Fits (withObstruction s l x) l refs ↔
      ∀ p ∈ projectFrom (insertObstruction x (s.lane l).obstructions) s.vessel.gap (s.startPoint l)
          (refs.map fun r => (r, s.lengthOf r)), p.stop ≤ (s.laneFixed l).length := by
  have hstart : (withObstruction s l x).startPoint l = s.startPoint l := by
    simp [withObstruction, State.startPoint, State.physicalEnd, State.lengthOf, State.unit?]
  rw [fits_iff, hstart]
  simp [withObstruction]

/-- Settles O20: the overlap is refused; otherwise the record stands in start order and the units stay. -/
theorem obstructionIsRecorded : Obligations.ObstructionIsRecorded := by
  unfold Obligations.ObstructionIsRecorded
  intro s f rest q hh hq length x overlaps
  refine ⟨fun ho => ?_, fun ho hlen hsorted => ?_⟩
  · have hx : exec .obstructionAdd s = .next (ownObstructionAdd f.ticket q (s.taken f rest)).startTx :=
      handle_of_handed hh hq rfl
    have ho' : (s.taken f rest).overlapsOccupant q.lane ((s.taken f rest).clip q) = true := overlapsOccupant_iff.2 ho
    unfold ownObstructionAdd at hx
    simp only [ho', if_true] at hx
    exact ⟨_, hx, refused_outcome s f rest .overlaps⟩
  · refine ⟨insertObstruction x (s.lane q.lane).obstructions, insertObstruction_perm _ _,
      insertObstruction_pairwise hsorted, fun hfits => ?_⟩
    have hfree : s.overlapsOccupant q.lane (s.clip q) = false :=
      Bool.eq_false_iff.2 fun h => ho (overlapsOccupant_iff.1 h)
    have hx := exec_obstructionAdd hh hq hfree hlen
    have hall : Fits (withObstruction (s.taken f rest) q.lane (s.clip q)) q.lane
        ((withObstruction (s.taken f rest) q.lane (s.clip q)).lane q.lane).reservations := by
      have hres : ((withObstruction (s.taken f rest) q.lane (s.clip q)).lane q.lane).reservations =
          (s.lane q.lane).reservations := by simp [withObstruction]
      rw [fits_withObstruction, hres]
      exact hfits
    rw [refit_of_fits hall] at hx
    exact ⟨_, hx, answered_of_link rfl ⟨by simp [withObstruction]; rfl,
      onlyChanges_fill (f := f) (rest := rest) _ _ (by simp) ((onlyChanges_setLane _ _ _).mono (by simp))⟩⟩

end Sys2Proof.Machine

namespace Sys2Proof.Machine

open Sys2Proof

variable {s w u : State} {l : Lane} {r : Ramp} {called gone : List Ref} {ref : Ref}

/-! ## The called list as units leave it one after another (R104, R114) -/

/-- Units have left a ramp's called list; the call timer is the one that R114 gives when the head was among them. -/
structure CalledCleared (s u : State) (r : Ramp) (called : List Ref) : Prop where
  list : (u.ramp r).called = still called (s.ramp r).called
  timer : (u.ramp r).callTimer =
    if (s.ramp r).called.head?.any called.contains then headTimer u r else (s.ramp r).callTimer

theorem still_nil (xs : List Ref) : still [] xs = xs := by simp [still]

theorem calledCleared_nil (s : State) (r : Ramp) : CalledCleared s s r [] where
  list := (still_nil _).symm
  timer := by cases (s.ramp r).called.head? <;> rfl

/-- The call timer of R114 depends on the head alone of the called list, with its status, the plate and the profile. -/
theorem headTimer_of_head (hh : (u.ramp r).called.head? = (w.ramp r).called.head?)
    (hs : ∀ q ∈ (w.ramp r).called.head?, u.statusOf q = w.statusOf q) (hp : u.plate r = w.plate r)
    (hf : u.rampFixed r = w.rampFixed r) : headTimer u r = headTimer w r := by
  unfold headTimer
  rw [hh, hp, hf]
  cases hc : (w.ramp r).called.head? with
  | none => rfl
  | some q => simp only [hs q hc]

/-- What leaves the called list and its timer alone, and the head's status, the plate and the profile. -/
theorem CalledCleared.of_eq (h : CalledCleared s w r called) (hc : (u.ramp r).called = (w.ramp r).called)
    (ht : (u.ramp r).callTimer = (w.ramp r).callTimer) (hs : ∀ q ∈ (w.ramp r).called.head?, u.statusOf q = w.statusOf q)
    (hp : u.plate r = w.plate r) (hf : u.rampFixed r = w.rampFixed r) : CalledCleared s u r called where
  list := hc.trans h.list
  timer := by rw [headTimer_of_head (by rw [hc]) hs hp hf, ht]; exact h.timer

theorem CalledCleared.congr {called' : List Ref} (h : CalledCleared s u r called) (hm : ∀ q, q ∈ called ↔ q ∈ called') :
    CalledCleared s u r called' := by
  have hc : called.contains = called'.contains := by funext q; simp [hm q]
  refine ⟨h.list.trans ?_, by rw [h.timer, hc]⟩
  unfold still
  rw [hc]

theorem head?_erase_of_ne {xs : List Ref} (h : xs.head? ≠ some ref) : (xs.erase ref).head? = xs.head? := by
  cases xs with
  | nil => rfl
  | cons x xs =>
    have hx : (x == ref) = false := by simpa using h
    simp [hx]

theorem head?_still {xs : List Ref} (h : xs.head?.any gone.contains = false) : (still gone xs).head? = xs.head? := by
  cases xs with
  | nil => rfl
  | cons x xs =>
    have hx : x ∉ gone := by simpa using h
    simp [still, hx]

/-- One more unit leaves the called list: a change of head is timed by R114. -/
theorem CalledCleared.snoc (h : CalledCleared s w r called) (hc : (s.ramp r).called.Nodup) (ref : Ref) :
    CalledCleared s (w.leaveCalled r ref) r (called ++ [ref]) where
  list := by rw [called_leaveCalled, h.list, still_snoc hc]
  timer := by
    have hany : (s.ramp r).called.head?.any (called ++ [ref]).contains =
        ((s.ramp r).called.head?.any called.contains || decide ((s.ramp r).called.head? = some ref)) := by
      cases (s.ramp r).called.head? <;> simp
    have htimer : ((w.leaveCalled r ref).ramp r).callTimer =
        if (w.ramp r).called.head? = some ref then headTimer (w.leaveCalled r ref) r else (w.ramp r).callTimer := by
      rw [leaveCalled_ramp w r ref]
    rw [htimer, hany, h.timer]
    by_cases hhead : (s.ramp r).called.head?.any called.contains = true
    · simp only [hhead, Bool.true_or, if_true]
      split
      · rfl
      · next hne =>
        refine (headTimer_of_head ?_ (fun q _ => by simp) (by simp) (by simp)).symm
        rw [called_leaveCalled]
        exact head?_erase_of_ne hne
    · have hno : (s.ramp r).called.head?.any called.contains = false := by simpa using hhead
      have hsame : (w.ramp r).called.head? = (s.ramp r).called.head? := by rw [h.list, head?_still hno]
      simp only [hno, Bool.false_or, hsame, decide_eq_true_eq, Bool.false_eq_true, if_false]

/-! ## A ramp whose units are released one after another (R103, R121) -/

/-- A record of a ramp with another one's lists, gate hold, line and call timer. -/
def RampRun.withListsOf (x y : RampRun) : RampRun :=
  { x with
    prio := y.prio, ord := y.ord, gateHold := y.gateHold, lineHigh := y.lineHigh, called := y.called
    callTimer := y.callTimer }

/-- What RampReleased says, part by part. -/
structure RampCleared (s u : State) (r : Ramp) (called gone : List Ref) : Prop where
  list : CalledCleared s u r called
  prio : (u.ramp r).prio = still gone (s.ramp r).prio
  ord : (u.ramp r).ord = still gone (s.ramp r).ord
  gate : (u.ramp r).gateHold = gateWithout s gone r
  line : SomeLeft s gone r → (u.ramp r).lineHigh = gateWithout s gone r
  lineKept : ¬ SomeLeft s gone r → (u.ramp r).lineHigh = (s.ramp r).lineHigh
  settings : u.ramp r = (s.ramp r).withListsOf (u.ramp r)
  flags : u.link.flags =
    if gateWithout s gone r = (s.ramp r).gateHold then s.link.flags else flagged [.gateHold r] s.link.flags

/-- A gate hold that agrees with the ramp's queues, as the reservation law has it (R121). -/
def GateStands (s : State) (r : Ramp) : Prop :=
  1 ≤ (s.rampFixed r).gateOn ∧
    gateAfter (s.rampFixed r) (s.ramp r).gateHold ((s.ramp r).prio.length + (s.ramp r).ord.length) = (s.ramp r).gateHold

theorem gateWithout_of_stay (hn : GateStands s r) (h : ¬ SomeLeft s gone r) :
    gateWithout s gone r = (s.ramp r).gateHold := by
  obtain ⟨hp, ho⟩ := not_or.1 h
  unfold gateWithout
  rw [← not_not.1 hp, ← not_not.1 ho]
  exact hn.2

theorem RampCleared.released (h : RampCleared s u r called gone) (hn : GateStands s r) :
    RampReleased s u r called gone := by
  unfold RampReleased
  rw [h.settings]
  by_cases hleft : SomeLeft s gone r
  · have hl := hleft
    unfold SomeLeft still at hl
    simp only [hl, if_true]
    refine ⟨?_, h.flags⟩
    simp only [RampRun.withListsOf, h.prio, h.ord, h.gate, h.line hleft, h.list.list, h.list.timer]
    rfl
  · have hl := hleft
    have hgate := gateWithout_of_stay hn hleft
    unfold SomeLeft still at hl
    simp only [hl, if_false]
    refine ⟨?_, by simpa [hgate] using h.flags⟩
    simp only [RampRun.withListsOf, h.prio, h.ord, h.gate, h.lineKept hleft, h.list.list, h.list.timer, hgate]
    rfl

theorem rampCleared_nil (hn : GateStands s r) : RampCleared s s r [] [] where
  list := calledCleared_nil s r
  prio := (still_nil _).symm
  ord := (still_nil _).symm
  gate := (gateWithout_of_stay hn (by simp [SomeLeft, still_nil])).symm
  line h := by simp [SomeLeft, still_nil] at h
  lineKept _ := rfl
  settings := rfl
  flags := by rw [if_pos (gateWithout_of_stay hn (by simp [SomeLeft, still_nil]))]

/-- What leaves the ramp and the flags alone, and the head's status, the plate and the profile. -/
theorem RampCleared.of_eq (h : RampCleared s w r called gone) (hr : u.ramp r = w.ramp r)
    (hfl : u.link.flags = w.link.flags) (hs : ∀ q ∈ (w.ramp r).called.head?, u.statusOf q = w.statusOf q)
    (hp : u.plate r = w.plate r) (hf : u.rampFixed r = w.rampFixed r) : RampCleared s u r called gone where
  list := h.list.of_eq (by rw [hr]) (by rw [hr]) hs hp hf
  prio := hr ▸ h.prio
  ord := hr ▸ h.ord
  gate := hr ▸ h.gate
  line := hr ▸ h.line
  lineKept := hr ▸ h.lineKept
  settings := hr ▸ h.settings
  flags := hfl.trans h.flags

/-- One more unit of no queue is among those that have gone. -/
theorem RampCleared.snoc_absent (h : RampCleared s w r called gone) (hp : ref ∉ (s.ramp r).prio)
    (ho : ref ∉ (s.ramp r).ord) : RampCleared s w r called (gone ++ [ref]) := by
  have hg : gateWithout s (gone ++ [ref]) r = gateWithout s gone r := by
    simp only [gateWithout, still_snoc_of_notMem hp, still_snoc_of_notMem ho]
  have hsome : SomeLeft s (gone ++ [ref]) r ↔ SomeLeft s gone r := by
    simp only [SomeLeft, still_snoc_of_notMem hp, still_snoc_of_notMem ho]
  exact
    { h with
      prio := by rw [still_snoc_of_notMem hp]; exact h.prio
      ord := by rw [still_snoc_of_notMem ho]; exact h.ord
      gate := hg ▸ h.gate
      line := fun hl => hg ▸ h.line (hsome.1 hl)
      lineKept := fun hl => h.lineKept fun e => hl (hsome.2 e)
      flags := by rw [hg]; exact h.flags }

/-- One more unit leaves its queue: the gate hold is re-examined against the smaller count. -/
theorem RampCleared.snoc_queued (h : RampCleared s w r called gone) (hn : GateStands s r)
    (hqp : (s.ramp r).prio.Nodup) (hqo : (s.ramp r).ord.Nodup) (hq : ref ∈ (s.ramp r).prio ∨ ref ∈ (s.ramp r).ord)
    (hu : QueueLeft w u r ref) (hs : ∀ q, u.statusOf q = w.statusOf q) (hp : u.plate r = w.plate r)
    (hf : ∀ q, u.rampFixed q = w.rampFixed q) (hfs : w.rampFixed r = s.rampFixed r) :
    RampCleared s u r called (gone ++ [ref]) := by
  obtain ⟨h1, hgate⟩ := hn
  have hfall := length_still_fall (ref := ref) (gone := gone) hqp hqo
  have hle := Nat.add_le_add (length_still_le gone (s.ramp r).prio) (length_still_le gone (s.ramp r).ord)
  obtain ⟨hramp, hflags⟩ := hu
  have hg : gateAfter (w.rampFixed r) (w.ramp r).gateHold
      (((w.ramp r).prio.erase ref).length + ((w.ramp r).ord.erase ref).length) = gateWithout s (gone ++ [ref]) r := by
    rw [hfs, h.prio, h.ord, h.gate, ← still_snoc hqp, ← still_snoc hqo]
    exact gateAfter_falling h1 hgate hle hfall
  dsimp only at hramp hflags
  rw [hg] at hramp hflags
  have hsome : SomeLeft s (gone ++ [ref]) r := hq.imp (ne_still_of_mem (by simp)) (ne_still_of_mem (by simp))
  refine ⟨h.list.of_eq (by rw [hramp]) (by rw [hramp]) (fun q _ => hs q) hp (hf r), ?_, ?_, ?_, fun _ => ?_,
    fun hl => absurd hsome hl, ?_, ?_⟩
  · rw [hramp, still_snoc hqp, ← h.prio]
  · rw [hramp, still_snoc hqo, ← h.ord]
  · rw [hramp]
  · rw [hramp]
  · rw [hramp, h.settings]
    rfl
  · rw [hflags, h.flags, h.gate]
    by_cases hsame : gateWithout s gone r = (s.ramp r).gateHold
    · rw [if_pos hsame, hsame]
    · have hlift : gateWithout s (gone ++ [ref]) r = gateWithout s gone r := gateAfter_lifted hgate hle hfall hsame
      rw [hlift, if_pos rfl]

/-- A CALLED unit leaves the called list. -/
theorem RampCleared.snoc_called (h : RampCleared s w r called gone) (hc : (s.ramp r).called.Nodup) :
    RampCleared s (w.leaveCalled r ref) r (called ++ [ref]) gone := by
  have hramp := leaveCalled_ramp w r ref
  refine ⟨h.list.snoc hc ref, ?_, ?_, ?_, fun hl => ?_, fun hl => ?_, ?_, ?_⟩
  · rw [hramp]; exact h.prio
  · rw [hramp]; exact h.ord
  · rw [hramp]; exact h.gate
  · rw [hramp]; exact h.line hl
  · rw [hramp]; exact h.lineKept hl
  · rw [hramp, h.settings]
    rfl
  · have hlink : (w.leaveCalled r ref).link = w.link := onlyChanges_leaveCalled w r ref .link (by simp)
    rw [hlink]
    exact h.flags

end Sys2Proof.Machine

namespace Sys2Proof.Machine

open Sys2Proof

variable {s w u : State} {l : Lane} {gone : List Ref} {ref : Ref} {ns : List Notice}

/-! ## A lane whose units are released one after another (R34, R35, R37) -/

/-- What the reservation law says of units that a lane gives up. -/
structure ClearReady (s : State) (l : Lane) (gone : List Ref) : Prop where
  nodup : gone.Nodup
  reserved : ∀ ref ∈ gone, ref ∈ (s.lane l).reservations ∧ ∃ v, s.unit? ref = some v ∧ v.lane = some l
  lane : (s.lane l).reservations.Nodup
  prio : (s.ramp (s.laneFixed l).ramp).prio.Nodup
  ord : (s.ramp (s.laneFixed l).ramp).ord.Nodup
  called : (s.ramp (s.laneFixed l).ramp).called.Nodup
  gate : GateStands s (s.laneFixed l).ramp

theorem ClearReady.init (h : ClearReady s l (gone ++ [ref])) : ClearReady s l gone :=
  { h with
    nodup := (List.nodup_append.1 h.nodup).1
    reserved := fun q hq => h.reserved q (List.mem_append_left _ hq) }

theorem ReservationLaw.clearReady (h : ReservationLaw s) (l : Lane) {gone : List Ref}
    (hg : gone.Sublist (s.lane l).reservations) : ClearReady s l gone := by
  obtain ⟨-, -, hlanes, hramps, -⟩ := id h
  obtain ⟨hq, -, -, -, -, -, hon, hgate, -⟩ := hramps (s.laneFixed l).ramp
  obtain ⟨hprio, hord, -⟩ := List.nodup_append.1 hq
  refine ⟨hg.nodup (hlanes l).1, fun ref hr => ⟨hg.subset hr, ?_⟩, (hlanes l).1, hprio, hord, h.called_nodup _, hon, hgate⟩
  obtain ⟨v, hv, hl, -⟩ := h.reserved (hg.subset hr)
  exact ⟨v, hv, hl⟩

/-- What the releases of units of one lane leave of a state, with the notices told meanwhile: the CALLED ones among the units
leave the called list. -/
structure Cleared (s u : State) (l : Lane) (gone : List Ref) (ns : List Notice) : Prop where
  unit : ∀ q, u.unit? q = (s.unit? q).map fun v => if q ∈ gone then { v with lane := none } else v
  lane : u.lane l =
    { s.lane l with
      reservations := still gone (s.lane l).reservations
      state := if (s.lane l).state = .closing ∧ gone ≠ [] ∧ still gone (s.lane l).reservations = [] then .closed
        else (s.lane l).state }
  sums : SumsReleased s u gone
  ramp : RampCleared s u (s.laneFixed l).ramp (s.withStatus .called gone) gone
  notified : Notified s u ns
  news : OnlyNews s u
  frame : OnlyChanges [.link, .units, .lane l, .stb, .ramp (s.laneFixed l).ramp] s u

theorem cleared_nil (hn : GateStands s (s.laneFixed l).ramp) : Cleared s s l [] [] where
  unit q := by simp
  lane := by simp [still_nil]
  sums := by simp [SumsReleased]
  ramp := rampCleared_nil hn
  notified := notified_nil rfl rfl
  news := onlyNews_refl s
  frame := .refl _ s

theorem Cleared.status (h : Cleared s w l gone ns) (q : Ref) : w.statusOf q = s.statusOf q := by
  unfold State.statusOf
  rw [h.unit]
  cases s.unit? q with
  | none => rfl
  | some v => by_cases hq : q ∈ gone <;> simp [hq]

theorem Cleared.pst (h : Cleared s w l gone ns) : w.pst = s.pst := h.frame .pst (by simp)

theorem Cleared.notify (h : Cleared s w l gone ns) (n : Notice) : Cleared s (w.notify n) l gone (ns ++ [n]) where
  unit q := by simpa using h.unit q
  lane := by simpa using h.lane
  sums := by simpa [SumsReleased] using h.sums
  ramp := h.ramp.of_eq (by simp) (notify_flags w n) (fun _ _ => by simp) (by simp) (by simp)
  notified := h.notified.trans (notified_notify w n)
  news := h.news.trans (onlyNews_notify w n)
  frame := h.frame.trans ((onlyChanges_notify w n).mono (by simp))

/-- A release of a unit that holds a lane, whether or not it stands in a queue. -/
theorem release_reserved {v : UnitRecord} {r : Ramp} (hv : s.unit? ref = some v) (hl : v.lane = some l)
    (hr : (s.laneFixed l).ramp = r) :
    LaneLeft s (s.release ref) l ref ∧ SumsLeft s (s.release ref) l v.decl.weight ∧
      UnitBecomes s (s.release ref) ref { v with lane := none } ∧
      OnlyChanges [.link, .units, .lane l, .stb, .ramp r] s (s.release ref) ∧
      ((ref ∈ (s.ramp r).prio ∨ ref ∈ (s.ramp r).ord) → QueueLeft s (s.release ref) r ref) ∧
      (ref ∉ (s.ramp r).prio → ref ∉ (s.ramp r).ord →
        (s.release ref).ramp r = s.ramp r ∧ (s.release ref).link = s.link) := by
  subst hr
  by_cases hq : ref ∈ (s.ramp (s.laneFixed l).ramp).prio ∨ ref ∈ (s.ramp (s.laneFixed l).ramp).ord
  · obtain ⟨hlane, hsums, hqueue, hrec, hframe⟩ := release_waiting hv hl hq
    exact ⟨hlane, hsums, hrec, hframe, fun _ => hqueue, fun hp ho => absurd hq (not_or.2 ⟨hp, ho⟩)⟩
  · obtain ⟨hp, ho⟩ := not_or.1 hq
    obtain ⟨hlane, hsums, hrec, hframe⟩ := release_unqueued hv hl hp ho
    exact ⟨hlane, hsums, hrec, hframe.mono (by simp), fun h => absurd h hq,
      fun _ _ => ⟨hframe (.ramp _) (by simp), hframe .link (by simp)⟩⟩

theorem still_snoc_eq_nil {xs : List Ref} (hm : ref ∈ xs) (hg : ref ∉ gone) : still gone xs ≠ [] :=
  List.ne_nil_of_mem (a := ref) (by simp [still, hm, hg])

theorem withStatus_snoc (s : State) (x : Status) (gone : List Ref) (ref : Ref) :
    s.withStatus x (gone ++ [ref]) = s.withStatus x gone ++ (if s.statusOf ref = some x then [ref] else []) := by
  unfold State.withStatus
  rw [List.filter_append]
  by_cases h : s.statusOf ref = some x <;> simp [h]

/-- One more unit of the lane is released. -/
theorem Cleared.snoc (hs : ClearReady s l (gone ++ [ref])) (hw : Cleared s w l gone ns) :
    Cleared s (w.releaseFromLane l ref) l (gone ++ [ref]) ns := by
  obtain ⟨hm, v, hv, hl⟩ := hs.reserved ref (by simp)
  have hg : ref ∉ gone := fun h => (List.nodup_append.1 hs.nodup).2.2 ref h ref (by simp) rfl
  have hwv : w.unit? ref = some v := by rw [hw.unit, hv]; simp [hg]
  have hfixed : w.laneFixed l = s.laneFixed l := laneFixed_congr hw.pst l
  have hrf : w.rampFixed (s.laneFixed l).ramp = s.rampFixed (s.laneFixed l).ramp := rampFixed_congr hw.pst _
  obtain ⟨hlane, hsums, hrec, hframe, hqueue, hstay⟩ := release_reserved hwv hl (congrArg LaneFixed.ramp hfixed)
  have hramp : RampCleared s (w.release ref) (s.laneFixed l).ramp (s.withStatus .called gone) (gone ++ [ref]) := by
    by_cases hq : ref ∈ (s.ramp (s.laneFixed l).ramp).prio ∨ ref ∈ (s.ramp (s.laneFixed l).ramp).ord
    · have hwq : ref ∈ (w.ramp (s.laneFixed l).ramp).prio ∨ ref ∈ (w.ramp (s.laneFixed l).ramp).ord := by
        rw [hw.ramp.prio, hw.ramp.ord]
        exact hq.imp (fun h => by simp [still, h, hg]) fun h => by simp [still, h, hg]
      exact hw.ramp.snoc_queued hs.gate hs.prio hs.ord hq (hqueue hwq) (by simp) (by simp) (by simp) hrf
    · obtain ⟨hp, ho⟩ := not_or.1 hq
      obtain ⟨hsame, hlink⟩ := hstay (by rw [hw.ramp.prio]; simp [still, hp]) (by rw [hw.ramp.ord]; simp [still, ho])
      exact (hw.ramp.snoc_absent hp ho).of_eq hsame (by rw [hlink]) (by simp) (by simp) (by simp)
  have hunit (q : Ref) : (w.release ref).unit? q =
      (s.unit? q).map fun v => if q ∈ gone ++ [ref] then { v with lane := none } else v := by
    by_cases hq : q = ref
    · rw [hq, hrec.1, hv]; simp
    · rw [hrec.2 q hq, hw.unit]; simp [hq]
  have hlane' : (w.release ref).lane l =
      { s.lane l with
        reservations := still (gone ++ [ref]) (s.lane l).reservations
        state := if (s.lane l).state = .closing ∧ gone ++ [ref] ≠ [] ∧ still (gone ++ [ref]) (s.lane l).reservations = []
          then .closed else (s.lane l).state } := by
    rw [hlane, hw.lane]
    simp [still_snoc hs.lane, still_snoc_eq_nil hm hg]
  obtain ⟨hn, hst⟩ := release_notices w ref
  have hnews := hw.news.trans (release_onlyNews w ref)
  have hnotified : Notified s (w.release ref) ns := by simpa using hw.notified.trans (notified_nil hn hst)
  have hsums' := sumsReleased_snoc hw.sums hsums hv hl hfixed
  have hwhole := hw.frame.trans hframe
  by_cases hc : s.statusOf ref = some .called
  · have hcalled := hramp.snoc_called (ref := ref) hs.called
    have hleft : w.releaseFromLane l ref = (w.release ref).leaveCalled (s.laneFixed l).ramp ref := by
      unfold State.releaseFromLane
      rw [hw.status, if_pos hc, hfixed]
    have hframe' := onlyChanges_leaveCalled (w.release ref) (s.laneFixed l).ramp ref
    have hlink : ((w.release ref).leaveCalled (s.laneFixed l).ramp ref).link = (w.release ref).link :=
      hframe' .link (by simp)
    rw [hleft]
    refine ⟨fun q => by simpa using hunit q, by simpa using hlane', by simpa [SumsReleased] using hsums', ?_, ?_, ?_, ?_⟩
    · rw [withStatus_snoc, if_pos hc]; exact hcalled
    · unfold Notified; rw [hlink]; exact hnotified
    · exact hnews.trans (onlyNews_of_link hlink)
    · exact hwhole.trans (hframe'.mono (by simp))
  · have hsame : w.releaseFromLane l ref = w.release ref := by
      unfold State.releaseFromLane
      rw [hw.status, if_neg hc]
    rw [hsame]
    refine ⟨hunit, hlane', hsums', ?_, hnotified, hnews, hwhole⟩
    rw [withStatus_snoc, if_neg hc, List.append_nil]
    exact hramp

theorem cleared_foldl (hs : ClearReady s l gone) : Cleared s (gone.foldl (fun s ref => s.releaseFromLane l ref) s) l gone [] := by
  induction gone using List.reverseRecOn with
  | nil => exact cleared_nil hs.gate
  | append_singleton gone ref ih =>
    rw [List.foldl_append]
    exact (ih hs.init).snoc hs

end Sys2Proof.Machine

namespace Sys2Proof.Machine

open Sys2Proof

variable {s t w v u : State} {l : Lane} {gone : List Ref} {ref : Ref} {ns : List Notice}

/-! ## Units handed over for reallocation (R80) -/

/-- What a burst of hand-overs leaves of a state. -/
structure HandedOver (s u : State) (l : Lane) (refs : List Ref) : Prop where
  unit : ∀ q, u.unit? q = (s.unit? q).map fun v => if q ∈ refs then reallocatedRecord v else v
  alc : u.alc = { s.alc with service := s.alc.service ++ refs.map fun ref => .placement ref (.reallocation l) }
  frame : OnlyChanges [.units, .alc] s u

theorem handedOver_foldl (s : State) (l : Lane) (refs : List Ref) :
    HandedOver s (refs.foldl (fun s ref => s.handOver ref l) s) l refs := by
  induction refs using List.reverseRecOn with
  | nil => exact ⟨fun q => by simp, by simp, .refl _ s⟩
  | append_singleton refs ref ih =>
    rw [List.foldl_append]
    generalize refs.foldl (fun s ref => s.handOver ref l) s = w at ih
    change HandedOver s (w.handOver ref l) l (refs ++ [ref])
    refine ⟨fun q => ?_, ?_, ih.frame.trans ?_⟩
    · change (w.modUnit ref reallocatedRecord).unit? q = _
      rw [unitOf_modUnit w ref q reallocatedRecord keepsRef_reallocatedRecord, ih.unit]
      by_cases hq : q = ref
      · subst hq
        cases s.unit? q with
        | none => simp
        | some v => by_cases hr : q ∈ refs <;> simp [hr, reallocatedRecord]
      · cases s.unit? q <;> simp [hq]
    · change { w.alc with service := w.alc.service ++ [Item.placement ref (.reallocation l)] } = _
      simp [ih.alc]
    · exact .trans ((onlyChanges_modUnit w ref reallocatedRecord).mono (by simp)) ((onlyChanges_handItem _ _).mono (by simp))

/-- The units that stay in a called list when the CALLED ones among the released have left are not handed over: a list's other
units are CROSSING (R34, R106). -/
theorem ReservationLaw.staying_not_moved (h : ReservationLaw s) {r : Ramp} {q : Ref}
    (hq : q ∈ still (s.withStatus .called gone) (s.ramp r).called) : q ∉ s.reallocated gone := by
  obtain ⟨hm, hstay⟩ := List.mem_filter.1 hq
  intro hmoved
  obtain ⟨hg, hnc⟩ := List.mem_filter.1 hmoved
  obtain ⟨v, hv, ⟨hs, -⟩ | ⟨hs, -⟩⟩ := h.calledUnit hm
  · have : q ∈ s.withStatus .called gone := List.mem_filter.2 ⟨hg, by simp [State.statusOf, hv, hs]⟩
    simp [this] at hstay
  · simp [State.statusOf, hv, hs] at hnc

/-- The record of a released unit: a CROSSING one keeps its status, the others are handed over (R34, R35). -/
theorem unit_of_handedOver (hw : Cleared s w l gone ns) (hv : HandedOver w v l (s.reallocated gone)) (q : Ref) :
    v.unit? q = (s.unit? q).map fun x =>
      if q ∈ gone then (if x.status = .crossing then { x with lane := none } else reallocatedRecord x) else x := by
  rw [hv.unit, hw.unit]
  cases hu : s.unit? q with
  | none => rfl
  | some x =>
    by_cases hg : q ∈ gone
    · by_cases hx : x.status = .crossing
      · simp [State.reallocated, State.statusOf, hu, hg, hx]
      · simp [State.reallocated, State.statusOf, hu, hg, hx, reallocatedRecord]
    · simp [State.reallocated, hg]

/-! ## A lane that gives up units at a request's event -/

/-- The state in which the handler left a request, with the lane's record changed but for its reservations. -/
def laneGiven (s : State) (f : Frame) (rest : List Frame) (l : Lane) (x : LaneRun) : State :=
  (s.taken f rest).setLane l x

theorem ClearReady.laneGiven (h : ClearReady s l gone) {f : Frame} {rest : List Frame} {x : LaneRun}
    (hx : x.reservations = (s.lane l).reservations) : ClearReady (laneGiven s f rest l x) l gone :=
  { h with
    reserved := fun ref hr => by
      obtain ⟨hm, hv⟩ := h.reserved ref hr
      refine ⟨?_, hv⟩
      unfold Machine.laneGiven
      rwa [State.lane_setLane_same, hx]
    lane := by
      unfold Machine.laneGiven
      rw [State.lane_setLane_same, hx]
      exact h.lane }

/-- What is left when a lane has given up units, those not CROSSING have been handed over, perhaps a walk has been asked for or
the lane's record changed again, and the request is answered. -/
theorem gaveUp_outcome {f : Frame} {rest : List Frame} {x : LaneRun} {r : Reply} (hlaw : ReservationLaw s)
    (hw : Cleared (laneGiven s f rest l x) w l gone ns) (hv : HandedOver w v l (s.reallocated gone))
    (hu : OnlyChanges [.alc, .lane l] v u) :
    Replied s (u.fill f.ticket r) f rest r ∧
      (∀ q, (u.fill f.ticket r).unit? q = (s.unit? q).map fun x =>
        if q ∈ gone then (if x.status = .crossing then { x with lane := none } else reallocatedRecord x) else x) ∧
      SumsReleased s (u.fill f.ticket r) gone ∧
      RampReleased s (u.fill f.ticket r) (s.laneFixed l).ramp (s.withStatus .called gone) gone ∧
      Notified s (u.fill f.ticket r) ns ∧
      OnlyChanges [.link, .units, .lane l, .stb, .ramp (s.laneFixed l).ramp, .alc] s (u.fill f.ticket r) := by
  have hwu : OnlyChanges [.units, .alc, .lane l] w u := (hv.frame.mono (by simp)).trans (hu.mono (by simp))
  have hlink : u.link = w.link := hwu .link (by simp)
  have hunits : u.units = v.units := hu .units (by simp)
  have hstb : u.stb = w.stb := hwu .stb (by simp)
  have hramp : RampCleared (laneGiven s f rest l x) u (s.laneFixed l).ramp (s.withStatus .called gone) gone := by
    have hpst : u.pst = w.pst := hwu .pst (by simp)
    refine RampCleared.of_eq (w := w) hw.ramp (hwu (.ramp _) (by simp)) (by rw [hlink]) (fun q hq => ?_)
      (hwu (.plate _) (by simp)) (rampFixed_congr hpst _)
    have hmem : q ∈ still (s.withStatus .called gone) (s.ramp (s.laneFixed l).ramp).called := by
      have := hw.ramp.list.list ▸ List.mem_of_head? hq
      exact this
    have hnot := hlaw.staying_not_moved hmem
    simp only [State.statusOf, State.unit?, hunits]
    have := hv.unit q
    simp only [hnot, if_false, Option.map_id'] at this
    simp only [State.unit?] at this
    rw [this]
  refine ⟨replied_of_fill r ?_, fun q => ?_, ?_, ?_, ?_, ?_⟩
  · exact OnlyNews.trans (t := laneGiven s f rest l x) (onlyNews_of_link rfl) (hw.news.trans (onlyNews_of_link hlink))
  · have := unit_of_handedOver hw hv q
    simp only [State.unit?] at this
    change u.units.find? _ = _
    rw [hunits]
    exact this
  · have := hw.sums
    unfold SumsReleased at this ⊢
    rw [show (u.fill f.ticket r).stb = w.stb from hstb]
    exact this
  · exact (RampCleared.of_eq (u := u.fill f.ticket r) hramp rfl rfl (fun _ _ => rfl) rfl rfl).released
      (hlaw.clearReady l (List.nil_sublist _)).gate
  · have := hw.notified
    unfold Notified at this ⊢
    rw [fill_link, hlink]
    exact this
  · refine onlyChanges_fill (f := f) (rest := rest) _ _ (by simp) (.trans (t := laneGiven s f rest l x)
      ((onlyChanges_setLane _ l x).mono (by simp)) (.trans (hw.frame.mono ?_) (hwu.mono (by simp))))
    exact List.subset_append_left [Block.link, .units, .lane l, .stb, .ramp (s.laneFixed l).ramp] [Block.alc]

end Sys2Proof.Machine

namespace Sys2Proof.Machine

open Sys2Proof

variable {s w : State} {f : Frame} {rest : List Frame} {l : Lane} {gone : List Ref}

/-! ## A third obstruction (R33, R35) -/

/-- A release that is told at once when the unit was CALLED (R35). -/
def releaseTold (r : Ramp) (l : Lane) (s : State) (ref : Ref) : State :=
  if s.statusOf ref = some .called then (s.releaseFromLane l ref).uncallNotice r .released none ref
  else s.releaseFromLane l ref

theorem withdraw_eq (h : (s.lane l).state ≠ .withdrawn) :
    s.withdraw l =
      ((s.reallocated (s.lane l).reservations).foldl (fun s ref => s.handOver ref l)
        ((s.lane l).reservations.foldl (releaseTold (s.laneFixed l).ramp l)
          ((s.setLane l { s.lane l with state := .withdrawn }).notify (.laneWithdrawn l (s.laneFixed l).deck))),
        (s.lane l).reservations.length) := by
  unfold State.withdraw
  rw [if_neg h]
  rfl

/-- The releases of a withdrawal, behind its notice. -/
theorem cleared_releaseTold (hs : ClearReady s l gone) (r : Ramp) (n : Notice) :
    Cleared s (gone.foldl (releaseTold r l) (s.notify n)) l gone
      (n :: (s.withStatus .called gone).map fun ref => .uncall r ref .released none) := by
  induction gone using List.reverseRecOn with
  | nil => exact (cleared_nil hs.gate).notify n
  | append_singleton gone ref ih =>
    have hw := ih hs.init
    have hnext := hw.snoc hs
    rw [List.foldl_append]
    generalize gone.foldl (releaseTold r l) (s.notify n) = w at hw hnext
    change Cleared s (releaseTold r l w ref) l (gone ++ [ref]) _
    unfold releaseTold
    rw [hw.status, withStatus_snoc]
    by_cases hc : s.statusOf ref = some .called
    · rw [if_pos hc, if_pos hc]
      simpa [State.uncallNotice] using hnext.notify (.uncall r ref .released none)
    · rw [if_neg hc, if_neg hc, List.append_nil]
      exact hnext

/-- An obstruction request for which there is no room withdraws the lane (R33). -/
theorem exec_obstructionAdd_full {q : SpanRequest} (hh : Handed .obstructionAdd (deckOfLane s q.lane) s f rest)
    (hq : readSpan s f.payload = some q) (ho : s.overlapsOccupant q.lane (s.clip q) = false)
    (hlen : 2 ≤ (s.lane q.lane).obstructions.length) :
    let p := (s.taken f rest).withdraw q.lane
    exec .obstructionAdd s = .next (p.1.fill f.ticket (.obstructionAdded true p.2)).startTx := by
  have hx : exec .obstructionAdd s = .next (ownObstructionAdd f.ticket q (s.taken f rest)).startTx :=
    handle_of_handed hh hq rfl
  have ho' : (s.taken f rest).overlapsOccupant q.lane ((s.taken f rest).clip q) = false := ho
  have hlen' : ¬ ((s.taken f rest).lane q.lane).obstructions.length < Config.maxObstructions := not_lt.2 hlen
  unfold ownObstructionAdd at hx
  simp only [ho', hlen', if_false, Bool.false_eq_true] at hx
  exact hx

theorem still_self (xs : List Ref) : still xs xs = [] :=
  List.filter_eq_nil_iff.2 fun q hq => by simpa using hq

/-- Settles O22: the notice, the releases told one after another, and the hand-overs. -/
theorem thirdObstructionWithdrawsTheLane : Obligations.ThirdObstructionWithdrawsTheLane := by
  unfold Obligations.ThirdObstructionWithdrawsTheLane
  intro s f rest q hh hq ho hlen
  have hx := exec_obstructionAdd_full hh hq ho hlen
  refine ⟨fun hw => ?_, fun hw hlaw => ?_⟩
  · have hsame : (s.taken f rest).withdraw q.lane = (s.taken f rest, 0) := if_pos hw
    rw [hsame] at hx
    exact ⟨_, hx, filled_outcome s f rest _⟩
  · rw [withdraw_eq (s := s.taken f rest) hw] at hx
    intro gone called r
    have hready := (hlaw.clearReady q.lane (.refl _)).laneGiven (f := f) (rest := rest)
      (x := { s.lane q.lane with state := .withdrawn }) rfl
    have hw := cleared_releaseTold hready r (.laneWithdrawn q.lane (s.laneFixed q.lane).deck)
    have hv := handedOver_foldl (gone.foldl (releaseTold r q.lane) ((laneGiven s f rest q.lane
      { s.lane q.lane with state := .withdrawn }).notify (.laneWithdrawn q.lane (s.laneFixed q.lane).deck)))
      q.lane (s.reallocated gone)
    obtain ⟨hreplied, hunits, hsums, hramp, hnotified, hframe⟩ :=
      gaveUp_outcome (r := .obstructionAdded true gone.length) hlaw hw hv (.refl _ _)
    refine ⟨_, hx, hreplied, ?_, hunits, ?_, hsums, hramp, hnotified, hframe⟩
    · refine (hv.frame (.lane q.lane) (by simp)).trans (hw.lane.trans ?_)
      simp [laneGiven, still_self]
    · have halc := hw.frame .alc (by simp)
      refine hv.alc.trans ?_
      rw [show _ = s.alc from halc]
      rfl

end Sys2Proof.Machine

namespace Sys2Proof.Machine

open Sys2Proof

variable {s u w : State} {f : Frame} {rest : List Frame} {l : Lane} {r : Ramp} {gone : List Ref}

/-! ## LANE_CLOSE (R37, R80) -/

/-- The queues of units that wait in one lane are those of the lane's ramp (R103). -/
theorem queuesReleased_of_rampReleased (hlaw : ReservationLaw s) (hg : ∀ ref ∈ gone, laneOf s ref = some l)
    (h : RampReleased s u (s.laneFixed l).ramp [] gone) (hother : ∀ q, q ≠ (s.laneFixed l).ramp → u.ramp q = s.ramp q) :
    QueuesReleased s u gone := by
  obtain ⟨hramp, hflags⟩ := h
  have hnone : (s.ramp (s.laneFixed l).ramp).called.head?.any (List.contains []) = false := by
    cases (s.ramp (s.laneFixed l).ramp).called.head? <;> rfl
  simp only [hnone, Bool.false_eq_true, if_false, List.contains_nil, Bool.not_false, List.filter_true] at hramp
  refine queuesReleased_iff.2 fun q => ?_
  have hpend := isPending_gateHold (q := q) hflags
  by_cases hq : q = (s.laneFixed l).ramp
  · subst hq
    by_cases hl : SomeLeft s gone (s.laneFixed l).ramp
    · have hl' := hl
      unfold SomeLeft still at hl'
      simp only [hl', if_true] at hramp hpend
      exact ⟨fun _ => hramp, fun h => absurd hl h, by simp only [hl, true_and] at hpend ⊢; exact hpend⟩
    · have hl' := hl
      unfold SomeLeft still at hl'
      simp only [hl', if_false] at hramp hpend
      obtain ⟨hp, ho⟩ := not_or.1 hl'
      rw [← not_not.1 hp, ← not_not.1 ho] at hramp
      exact ⟨fun h => absurd h hl, fun _ => hramp, by simpa [hl] using hpend⟩
  · have habsent (ref : Ref) (hr : ref ∈ gone) : ref ∉ (s.ramp q).prio ∧ ref ∉ (s.ramp q).ord := by
      have hno (h : ref ∈ (s.ramp q).prio ∨ ref ∈ (s.ramp q).ord) : False := by
        obtain ⟨k, hk, hkq⟩ := hlaw.queued h
        obtain rfl := Option.some.inj ((hg ref hr).symm.trans hk)
        exact hq hkq.symm
      exact ⟨fun h => hno (.inl h), fun h => hno (.inr h)⟩
    have hstill {xs : List Ref} (hx : ∀ ref ∈ gone, ref ∉ xs) : still gone xs = xs :=
      List.filter_eq_self.2 fun x hm => by simpa using fun e => hx x e hm
    have hl : ¬ SomeLeft s gone q := by
      simp [SomeLeft, hstill fun ref hr => (habsent ref hr).1, hstill fun ref hr => (habsent ref hr).2]
    exact ⟨fun h => absurd h hl, fun _ => hother q hq, by simpa [hl, hq] using hpend⟩

/-- The releases of units none of which is CALLED are plain ones. -/
theorem foldl_release_eq (h : ∀ ref ∈ gone, s.statusOf ref ≠ some .called) :
    gone.foldl (fun s ref => s.release ref) s = gone.foldl (fun s ref => s.releaseFromLane l ref) s := by
  induction gone generalizing s with
  | nil => rfl
  | cons ref gone ih =>
    have hfirst : s.releaseFromLane l ref = s.release ref := by
      unfold State.releaseFromLane
      rw [if_neg (h ref (.head _))]
    rw [List.foldl_cons, List.foldl_cons, hfirst]
    exact ih fun q hq => by simpa using h q (.tail _ hq)

/-- Units of one lane, none of which is CALLED, are released and then handed over (R80). -/
theorem reallocateAll_outcome (hs : ClearReady s l gone) (hc : ∀ ref ∈ gone, s.statusOf ref ≠ some .called) :
    ∃ w, Cleared s w l gone [] ∧ HandedOver w (s.reallocateAll gone l) l gone := by
  refine ⟨_, cleared_foldl hs, ?_⟩
  unfold State.reallocateAll
  rw [foldl_release_eq (l := l) hc]
  exact handedOver_foldl _ l gone

/-- A CLOSING lane that has been left without reservations is CLOSED (R37). -/
def closeIfEmpty (l : Lane) (s : State) : State :=
  if (s.lane l).reservations.isEmpty then s.setLane l { s.lane l with state := .closed } else s

theorem onlyChanges_closeIfEmpty (l : Lane) (s : State) : OnlyChanges [.lane l] s (closeIfEmpty l s) := by
  unfold closeIfEmpty
  split
  · exact onlyChanges_setLane s l _
  · exact .refl _ s

theorem closeIfEmpty_lane (l : Lane) (s : State) : (closeIfEmpty l s).lane l =
    { s.lane l with state := if (s.lane l).reservations = [] then .closed else (s.lane l).state } := by
  unfold closeIfEmpty
  by_cases h : (s.lane l).reservations = []
  · simp [h]
  · simp [h]

/-- LANE_CLOSE of an OPEN lane, step by step. -/
theorem exec_laneClose (hh : Handed .laneClose (deckOfLane s l) s f rest) (hq : readLane s f.payload = some l)
    (hs : (s.lane l).state = .opened) :
    let gone := s.withStatus .waiting (s.lane l).reservations
    let u := closeIfEmpty l ((laneGiven s f rest l { s.lane l with state := .closing }).reallocateAll gone l)
    exec .laneClose s = .next (u.fill f.ticket (.laneClosed (u.lane l).state gone.length)).startTx := by
  have hx : exec .laneClose s = .next (ownLaneClose f.ticket l (s.taken f rest)).startTx := handle_of_handed hh hq rfl
  have hs' : ((s.taken f rest).lane l).state = .opened := hs
  unfold ownLaneClose at hx
  simp only [hs', if_true] at hx
  exact hx

theorem still_filter (xs : List Ref) (p : Ref → Bool) : still (xs.filter p) xs = xs.filter fun ref => !p ref :=
  List.filter_congr fun ref hr => by simp [hr]

/-- Settles O19: the releases in list order, the burst behind them, and the state that is left. -/
theorem laneCloseReallocatesTheWaiting : Obligations.LaneCloseReallocatesTheWaiting := by
  unfold Obligations.LaneCloseReallocatesTheWaiting
  intro s f rest l hh hq hopen hlaw waits gone kept state
  have hx := exec_laneClose hh hq hopen
  have hwaits {ref : Ref} (hr : ref ∈ gone) : s.statusOf ref = some .waiting := by
    simpa [waits] using (List.mem_filter.1 hr).2
  have hmoved : s.reallocated gone = gone := List.filter_eq_self.2 fun ref hr => by simp [hwaits hr]
  have hcalled : s.withStatus .called gone = [] := List.filter_eq_nil_iff.2 fun ref hr => by simp [hwaits hr]
  have hlanes (ref : Ref) (hr : ref ∈ gone) : laneOf s ref = some l := by
    obtain ⟨v, hv, hl, -⟩ := hlaw.reserved (List.mem_filter.1 hr).1
    simp [laneOf, hv, hl]
  have hready := (hlaw.clearReady l (gone := gone) List.filter_sublist).laneGiven (f := f) (rest := rest)
    (x := { s.lane l with state := .closing }) rfl
  obtain ⟨w, hw, hv⟩ := reallocateAll_outcome hready fun ref hr h => nomatch (hwaits hr).symm.trans h
  have hgone : s.withStatus .waiting (s.lane l).reservations = gone := rfl
  dsimp only at hx
  rw [hgone] at hx
  generalize (laneGiven s f rest l { s.lane l with state := .closing }).reallocateAll gone l = v at hx hv
  have hclose := onlyChanges_closeIfEmpty l v
  have hlane : (closeIfEmpty l v).lane l = { s.lane l with state := state, reservations := kept } := by
    rw [closeIfEmpty_lane, show v.lane l = w.lane l from hv.frame (.lane l) (by simp), hw.lane]
    have hkept : still gone (s.lane l).reservations = kept := still_filter _ _
    have hstate (p : Prop) [Decidable p] :
        (if kept = [] then LaneState.closed else if p ∧ kept = [] then .closed else .closing) = state := by
      by_cases hk : kept = [] <;> simp [state, hk]
    simp [laneGiven, hkept, hstate]
  rw [← hmoved] at hv
  obtain ⟨hreplied, hunits, hsums, hramp, hnotified, hframe⟩ :=
    gaveUp_outcome (r := .laneClosed state gone.length) hlaw hw hv (hclose.mono (by simp))
  rw [hcalled] at hramp
  rw [hlane] at hx
  refine ⟨_, hx, hreplied, hnotified, hlane, fun ref => ?_, ?_, hsums, ?_, hframe⟩
  · rw [hunits]
    refine Option.map_congr fun v hv => ?_
    by_cases hr : ref ∈ gone
    · have hst : v.status = .waiting := by simpa [State.statusOf, hv] using hwaits hr
      simp [hr, hst]
    · simp [hr]
  · have halc : (closeIfEmpty l v).alc = v.alc := hclose .alc (by simp)
    refine halc.trans (hv.alc.trans ?_)
    rw [show w.alc = s.alc from hw.frame .alc (by simp), hmoved]
  · exact queuesReleased_of_rampReleased hlaw hlanes hramp fun q hne => hframe (.ramp q) (by simp [hne])

end Sys2Proof.Machine

namespace Sys2Proof.Machine

open Sys2Proof

variable {s u w : State} {f : Frame} {rest : List Frame} {l : Lane} {r : Ramp} {called gone : List Ref} {ns : List Notice}

/-! ## OBSTRUCTION_ADD that releases units from the end backward (R34) -/

theorem still_reverse (gone xs : List Ref) : still gone.reverse xs = still gone xs := by simp [still]

theorem RampCleared.reverse (h : RampCleared s u r called.reverse gone.reverse) : RampCleared s u r called gone := by
  have hg : gateWithout s gone.reverse r = gateWithout s gone r := by simp only [gateWithout, still_reverse]
  have hl : SomeLeft s gone.reverse r ↔ SomeLeft s gone r := by simp only [SomeLeft, still_reverse]
  refine ⟨h.list.congr fun q => List.mem_reverse, ?_, ?_, ?_, fun e => ?_, fun e => ?_, h.settings, ?_⟩
  · rw [h.prio, still_reverse]
  · rw [h.ord, still_reverse]
  · rw [h.gate, hg]
  · rw [h.line (hl.2 e), hg]
  · exact h.lineKept fun e' => e (hl.1 e')
  · rw [h.flags, hg]

/-- Released from the last to the first, or from the first to the last: what is left is the same. -/
theorem Cleared.reverse (h : Cleared s u l gone.reverse ns) : Cleared s u l gone ns := by
  have hsum (g : Ref → Int) : (gone.reverse.map g).sum = (gone.map g).sum :=
    ((List.reverse_perm gone).map g).sum_eq
  refine ⟨fun q => ?_, ?_, ?_, ?_, h.notified, h.news, h.frame⟩
  · rw [h.unit]; simp
  · rw [h.lane]; simp [still_reverse]
  · obtain ⟨hml, hmt, hload, hrest⟩ := h.sums
    exact ⟨by rw [hml, hsum], by rw [hmt, hsum], fun d => by rw [hload, hsum], hrest⟩
  · have hr := h.ramp
    have hcalled : s.withStatus .called gone.reverse = (s.withStatus .called gone).reverse := List.filter_reverse
    rw [hcalled] at hr
    exact hr.reverse

/-- Uncalls told behind the releases (R120). -/
theorem Cleared.uncallNotices (h : Cleared s w l gone ns) (r : Ramp) (x : UncallReason) (carried : Option Lane)
    (refs : List Ref) :
    Cleared s (refs.foldl (fun s ref => s.uncallNotice r x carried ref) w) l gone
      (ns ++ refs.map fun ref => .uncall r ref x carried) := by
  induction refs generalizing w ns with
  | nil => simpa using h
  | cons ref refs ih => simpa [State.uncallNotice] using ih (h.notify (.uncall r ref x carried))

/-- The releases from the end backward, the notices behind them, the burst, and the walk (R34). -/
theorem refit_outcome {kept : List Ref} (hs : ClearReady s l gone) (hres : (s.lane l).reservations = kept ++ gone)
    (hne : gone ≠ []) (hk : Fits s l kept) (hn : ∀ n, 0 < n → n ≤ gone.length → ¬ Fits s l (kept ++ gone.take n)) :
    ∃ w v, Cleared s w l gone ((s.withStatus .called gone).map fun ref => .uncall (s.laneFixed l).ramp ref .released none) ∧
      HandedOver w v l (s.reallocated gone) ∧ s.refit l = (v.triggerWalk, gone.length) := by
  have hrun : s.fittingRun l (s.lane l).reservations.reverse = kept := by rw [hres]; exact fittingRun_eq hk hn
  have hgone : (s.lane l).reservations.drop (s.fittingRun l (s.lane l).reservations.reverse).length = gone := by
    rw [hrun, hres, List.drop_left]
  have hback : ClearReady s l gone.reverse :=
    { hs with
      nodup := List.nodup_reverse.2 hs.nodup
      reserved := fun ref hr => hs.reserved ref (List.mem_reverse.1 hr) }
  have hw := (cleared_foldl hback).reverse.uncallNotices (s.laneFixed l).ramp .released none (s.withStatus .called gone)
  refine ⟨_, _, hw, handedOver_foldl _ l _, ?_⟩
  unfold State.refit
  dsimp only
  have hsome : gone.isEmpty = false := by simpa using hne
  rw [hgone, hsome]
  rfl

theorem still_append_right {kept gone : List Ref} (h : (kept ++ gone).Nodup) : still gone (kept ++ gone) = kept := by
  have hdisjoint := (List.nodup_append.1 h).2.2
  unfold still
  rw [List.filter_append, List.filter_eq_self.2 fun q hq => by simpa using fun hg => hdisjoint q hq q hg rfl,
    List.filter_eq_nil_iff.2 fun q hq => by simpa using hq, List.append_nil]

theorem walk_mem_append_placements {service : List Item} {refs : List Ref} {l : Lane} :
    Item.walk ∈ service ++ refs.map (fun ref => Item.placement ref (.reallocation l)) ↔ Item.walk ∈ service := by
  simp

/-- Settles O21: the record entered, the releases, and the walk that waits behind the burst. -/
theorem obstructionReleasesBackward : Obligations.ObstructionReleasesBackward := by
  unfold Obligations.ObstructionReleasesBackward
  intro s f rest q kept gone hh hq ho hlen hlaw hres hne obs fits called moved r hk hn
  have hx := exec_obstructionAdd hh hq ho hlen
  have hsub : gone.Sublist (s.lane q.lane).reservations := hres ▸ List.sublist_append_right kept gone
  have hready := (hlaw.clearReady q.lane hsub).laneGiven (f := f) (rest := rest)
    (x := { s.lane q.lane with obstructions := obs }) rfl
  have hreserved : ((laneGiven s f rest q.lane { s.lane q.lane with obstructions := obs }).lane q.lane).reservations =
      kept ++ gone := by simpa [laneGiven] using hres
  obtain ⟨w, v, hw, hv, hrefit⟩ := refit_outcome hready hreserved hne (fits_withObstruction.2 hk)
    fun n h0 hle hfit => hn n h0 hle (fits_withObstruction.1 hfit)
  dsimp only at hx
  rw [show (withObstruction (s.taken f rest) q.lane (s.clip q)).refit q.lane = _ from hrefit] at hx
  have hwalk := onlyChanges_triggerWalk v
  obtain ⟨hreplied, hunits, hsums, hramp, hnotified, hframe⟩ :=
    gaveUp_outcome (r := .obstructionAdded false gone.length) hlaw hw hv (hwalk.mono (by simp))
  have halc : v.alc = { s.alc with service := s.alc.service ++ moved } := by
    refine hv.alc.trans ?_
    rw [show w.alc = s.alc from hw.frame .alc (by simp)]
    rfl
  obtain ⟨hunplaced, hextent⟩ := triggerWalk_lists v
  refine ⟨_, hx, hreplied, ?_, hunits, ?_, ?_, ?_, hsums, hramp, hnotified, hframe⟩
  · refine (hwalk (.lane q.lane) (by simp)).trans ((hv.frame (.lane q.lane) (by simp)).trans (hw.lane.trans ?_))
    have hstill : still gone (kept ++ gone) = kept := by
      obtain ⟨-, -, hlanes, -⟩ := hlaw
      exact still_append_right (hres ▸ (hlanes q.lane).1)
    simp [laneGiven, hres, hstill, hne]
  · have hasked := walkAsked_triggerWalk v
    unfold WalkAsked at hasked
    rw [halc] at hasked
    refine hasked.trans (if_congr walk_mem_append_placements rfl rfl)
  · exact hunplaced.trans (by rw [halc])
  · exact hextent.trans (by rw [halc])

end Sys2Proof.Machine

namespace Sys2Proof.Machine

open Sys2Proof

variable {s w u : State} {l : Lane} {r : Ramp} {refs : List Ref} {ref : Ref} {ns : List Notice}

/-! ## Gate holds under rising counts (R121) -/

/-- Two examinations against rising counts, from a hold that agrees with its count, come to the second alone. -/
theorem gateAfter_rising {x : RampFixed} {g : Bool} {n a b : Nat} (h1 : 1 ≤ x.gateOn) (hn : gateAfter x g n = g)
    (ha : n ≤ a) (hb : a ≤ b) : gateAfter x (gateAfter x g a) b = gateAfter x g b := by
  have hoff := gateOffAdjusted_lt h1
  cases g with
  | true =>
    have hset : gateAfter x true a = true := by rw [gateAfter_true] at hn ⊢; simp at hn ⊢; omega
    rw [hset]
  | false =>
    by_cases hhigh : x.gateOn ≤ a
    · have hhigh' : x.gateOn ≤ b := by omega
      have hoff' : ¬ b < x.gateOffAdjusted := by omega
      simp [gateAfter_true, gateAfter_false, hhigh, hhigh', hoff']
    · simp [gateAfter_false, hhigh]

/-- A hold that has been set stays set while the count rises. -/
theorem gateAfter_raised {x : RampFixed} {g : Bool} {n a b : Nat} (hn : gateAfter x g n = g) (ha : n ≤ a) (hb : a ≤ b)
    (h : gateAfter x g a ≠ g) : gateAfter x g b = gateAfter x g a := by
  cases g with
  | true => simp [gateAfter_true] at hn h; omega
  | false =>
    simp only [gateAfter_false] at h ⊢
    simp at h
    simp [h, h.trans hb]

/-! ## Queues that units join (R103) -/

/-- A queue that units of `refs` have joined: without them it is as it was. -/
def Grown (refs xs ys : List Ref) : Prop := ys.Nodup ∧ still refs ys = xs

theorem Grown.notMem {xs ys : List Ref} (h : Grown refs xs ys) (hr : ref ∉ refs) (hx : ref ∉ xs) : ref ∉ ys := by
  intro hm
  have : ref ∈ still refs ys := by simp [still, hm, hr]
  exact hx (h.2 ▸ this)

/-- A unit joins another queue. -/
theorem Grown.skip {xs ys : List Ref} (h : Grown refs xs ys) (hr : ref ∉ refs) (hx : ref ∉ xs) :
    Grown (refs ++ [ref]) xs ys :=
  ⟨h.1, by rw [still_snoc_of_notMem (h.notMem hr hx)]; exact h.2⟩

/-- A unit joins the back or the front. -/
theorem Grown.add {xs ys : List Ref} (h : Grown refs xs ys) (hr : ref ∉ refs) (hx : ref ∉ xs) (back : Bool) :
    Grown (refs ++ [ref]) xs (if back then ys ++ [ref] else ref :: ys) := by
  have hy := h.notMem hr hx
  have hstill : still (refs ++ [ref]) ys = xs := (h.skip hr hx).2
  cases back with
  | false => exact ⟨List.nodup_cons.2 ⟨hy, h.1⟩, by simpa [still] using hstill⟩
  | true =>
    refine ⟨List.nodup_append.2 ⟨h.1, List.nodup_singleton _, ?_⟩, by simpa [still] using hstill⟩
    intro a ha b hb hab
    obtain rfl := List.mem_singleton.1 hb
    exact hy (hab ▸ ha)

/-- A ramp's two queues, which units of `refs` have joined. -/
structure QueuesGrown (refs : List Ref) (x y : RampRun) : Prop where
  prio : Grown refs x.prio y.prio
  ord : Grown refs x.ord y.ord
  queued : ∀ q ∈ refs, q ∈ y.prio ∨ q ∈ y.ord
  count : y.waiting = x.waiting + refs.length

theorem queuesGrown_nil {x : RampRun} (hp : x.prio.Nodup) (ho : x.ord.Nodup) : QueuesGrown [] x x where
  prio := ⟨hp, still_nil _⟩
  ord := ⟨ho, still_nil _⟩
  queued := by simp
  count := rfl

/-- One more unit joins one of the queues. -/
theorem QueuesGrown.snoc {x y z : RampRun} (h : QueuesGrown refs x y) (hr : ref ∉ refs) (hp : ref ∉ x.prio)
    (ho : ref ∉ x.ord) (priority back : Bool)
    (hzp : z.prio = if priority then (if back then y.prio ++ [ref] else ref :: y.prio) else y.prio)
    (hzo : z.ord = if priority then y.ord else (if back then y.ord ++ [ref] else ref :: y.ord)) :
    QueuesGrown (refs ++ [ref]) x z := by
  have hcount := h.count
  unfold RampRun.waiting at hcount
  have hjoin (xs : List Ref) : (if back then xs ++ [ref] else ref :: xs).length = xs.length + 1 ∧
      ∀ q, q ∈ (if back then xs ++ [ref] else ref :: xs) ↔ q ∈ xs ∨ q = ref := by
    cases back <;> simp [or_comm]
  cases priority with
  | true =>
    simp only [if_true] at hzp hzo
    refine ⟨hzp ▸ h.prio.add hr hp back, hzo ▸ h.ord.skip hr ho, fun q hq => ?_, ?_⟩
    · rw [hzp, hzo, (hjoin _).2]
      rcases List.mem_append.1 hq with hq | hq
      · exact (h.queued q hq).imp_left .inl
      · exact .inl (.inr (List.mem_singleton.1 hq))
    · rw [RampRun.waiting, hzp, hzo, (hjoin _).1, List.length_append, RampRun.waiting]
      simp only [List.length_singleton]
      omega
  | false =>
    simp only [Bool.false_eq_true, if_false] at hzp hzo
    refine ⟨hzp ▸ h.prio.skip hr hp, hzo ▸ h.ord.add hr ho back, fun q hq => ?_, ?_⟩
    · rw [hzp, hzo, (hjoin _).2]
      rcases List.mem_append.1 hq with hq | hq
      · exact (h.queued q hq).imp_right .inl
      · exact .inr (.inr (List.mem_singleton.1 hq))
    · rw [RampRun.waiting, hzp, hzo, (hjoin _).1, List.length_append, RampRun.waiting]
      simp only [List.length_singleton]
      omega

/-! ## CALLED units that return to WAITING one after another (R115, R117, R118) -/

/-- What the reservation law says of CALLED units of one lane that are uncalled. -/
structure UncallReady (s : State) (r : Ramp) (l : Lane) (refs : List Ref) : Prop where
  nodup : refs.Nodup
  ramp : (s.laneFixed l).ramp = r
  lanes : ∀ q ∈ refs, laneOf s q = some l
  reserved : ∀ q ∈ refs, q ∈ (s.lane l).reservations
  unqueued : ∀ q ∈ refs, q ∉ (s.ramp r).prio ∧ q ∉ (s.ramp r).ord
  lane : (s.lane l).reservations.Nodup
  prio : (s.ramp r).prio.Nodup
  ord : (s.ramp r).ord.Nodup
  called : (s.ramp r).called.Nodup
  gate : GateStands s r

/-- The record of a unit that returns to WAITING. -/
def waitingAgain (v : UnitRecord) : UnitRecord := { v with status := .waiting, age := 0 }

/-- What the returns of units to WAITING leave of a state, with the notices told meanwhile. -/
structure Returned (s u : State) (r : Ramp) (refs : List Ref) (ns : List Notice) : Prop where
  unit : ∀ q, u.unit? q = (s.unit? q).map fun v => if q ∈ refs then waitingAgain v else v
  queues : QueuesGrown refs (s.ramp r) (u.ramp r)
  gate : (u.ramp r).gateHold = gateAfter (s.rampFixed r) (s.ramp r).gateHold ((s.ramp r).waiting + refs.length)
  list : CalledCleared s u r refs
  settings : u.ramp r = (s.ramp r).withListsOf (u.ramp r)
  flags : u.link.flags =
    if (u.ramp r).gateHold = (s.ramp r).gateHold then s.link.flags else flagged [.gateHold r] s.link.flags
  notified : Notified s u ns
  news : OnlyNews s u
  frame : OnlyChanges [.link, .units, .ramp r] s u

theorem returned_nil (hs : UncallReady s r l refs) : Returned s s r [] [] where
  unit q := by simp
  queues := queuesGrown_nil hs.prio hs.ord
  gate := hs.gate.2.symm
  list := calledCleared_nil s r
  settings := rfl
  flags := by rw [if_pos rfl]
  notified := notified_nil rfl rfl
  news := onlyNews_refl s
  frame := .refl _ s

theorem Returned.pst (h : Returned s w r refs ns) : w.pst = s.pst := h.frame .pst (by simp)

theorem Returned.notify (h : Returned s w r refs ns) (n : Notice) : Returned s (w.notify n) r refs (ns ++ [n]) where
  unit q := by simpa using h.unit q
  queues := by simpa using h.queues
  gate := by simpa using h.gate
  list := h.list.of_eq (by simp) (by simp) (by simp) (by simp) (by simp)
  settings := by simpa using h.settings
  flags := by rw [notify_flags]; simpa using h.flags
  notified := h.notified.trans (notified_notify w n)
  news := h.news.trans (onlyNews_notify w n)
  frame := h.frame.trans ((onlyChanges_notify w n).mono (by simp))

theorem Returned.uncallNotices (h : Returned s w r refs ns) (x : UncallReason) (carried : Option Lane) (qs : List Ref) :
    Returned s (qs.foldl (fun s ref => s.uncallNotice r x carried ref) w) r refs
      (ns ++ qs.map fun ref => .uncall r ref x carried) := by
  induction qs generalizing w ns with
  | nil => simpa using h
  | cons q qs ih => simpa [State.uncallNotice] using ih (h.notify (.uncall r q x carried))

theorem UncallReady.init (h : UncallReady s r l (refs ++ [ref])) : UncallReady s r l refs :=
  { h with
    nodup := (List.nodup_append.1 h.nodup).1
    lanes := fun q hq => h.lanes q (List.mem_append_left _ hq)
    reserved := fun q hq => h.reserved q (List.mem_append_left _ hq)
    unqueued := fun q hq => h.unqueued q (List.mem_append_left _ hq) }

/-- A return to WAITING leaves all but the link, the records and the ramp. -/
theorem onlyChanges_returnToWaiting (s : State) (r : Ramp) (back : Bool) (ref : Ref) :
    OnlyChanges [.link, .units, .ramp r] s (s.returnToWaiting r back ref) := by
  refine .trans ((onlyChanges_leaveCalled s r ref).mono (by simp))
    (.trans ((onlyChanges_modUnit _ ref waitingAgain).mono (by simp)) ?_)
  intro b hb
  cases b with
  | ramp q => exact joinQueue_other _ _ _ _ (by simpa using hb)
  | link | units => simp at hb
  | _ => simp [sameBlock]

theorem unit_returnToWaiting (s : State) (r : Ramp) (back : Bool) (ref q : Ref) :
    (s.returnToWaiting r back ref).unit? q = (s.unit? q).map fun v => if q = ref then waitingAgain v else v := by
  have hmod := unitOf_modUnit (s.leaveCalled r ref) ref q waitingAgain fun _ => rfl
  have hleft : (s.leaveCalled r ref).unit? q = s.unit? q := by simp
  have hjoin (t : State) (p : Bool) : (t.joinQueue r p back ref).unit? q = t.unit? q := by simp
  rw [hleft] at hmod
  exact (hjoin ((s.leaveCalled r ref).modUnit ref waitingAgain) _).trans hmod

/-- The unit has left the called list, and then it joins one of the queues. -/
theorem requeued_returnToWaiting (s : State) (r : Ramp) (back : Bool) (ref : Ref) :
    ∃ priority : Bool, Requeued (s.leaveCalled r ref) (s.returnToWaiting r back ref) r
      (if priority then (if back then (s.ramp r).prio ++ [ref] else ref :: (s.ramp r).prio) else (s.ramp r).prio)
      (if priority then (s.ramp r).ord else (if back then (s.ramp r).ord ++ [ref] else ref :: (s.ramp r).ord)) := by
  have hprio : ((s.leaveCalled r ref).ramp r).prio = (s.ramp r).prio := by rw [leaveCalled_ramp]
  have hord : ((s.leaveCalled r ref).ramp r).ord = (s.ramp r).ord := by rw [leaveCalled_ramp]
  rw [← hprio, ← hord]
  exact ⟨_, requeued_joinQueue ((s.leaveCalled r ref).modUnit ref waitingAgain) r _ back ref⟩

/-- A return to WAITING tells nothing: no notice, and of the link only the flags. -/
theorem returnToWaiting_news (s : State) (r : Ramp) (back : Bool) (ref : Ref) :
    Notified s (s.returnToWaiting r back ref) [] ∧ OnlyNews s (s.returnToWaiting r back ref) := by
  have hlink : ((s.leaveCalled r ref).modUnit ref waitingAgain).link = s.link :=
    onlyChanges_leaveCalled s r ref .link (by simp)
  obtain ⟨hn, hs⟩ := joinQueue_notices ((s.leaveCalled r ref).modUnit ref waitingAgain) r
    (match s.unit? ref with | some u => u.cls.priority | none => false) back ref
  rw [hlink] at hn hs
  exact ⟨notified_nil hn hs, OnlyNews.trans (onlyNews_of_link hlink) (joinQueue_onlyNews _ r _ back ref)⟩

/-- A unit leaves the called list and returns to WAITING (R114). -/
theorem CalledCleared.returned {called : List Ref} (h : CalledCleared s w r called) (hc : (s.ramp r).called.Nodup)
    (back : Bool) (ref : Ref) : CalledCleared s (w.returnToWaiting r back ref) r (called ++ [ref]) := by
  obtain ⟨p, hramp, -⟩ := requeued_returnToWaiting w r back ref
  have hn : (w.ramp r).called.Nodup := by rw [h.list]; exact hc.filter _
  refine (h.snoc hc ref).of_eq (by rw [hramp]) (by rw [hramp]) (fun q hq => ?_) ?_ ?_
  · rw [called_leaveCalled] at hq
    have hne : q ≠ ref := fun e => hn.not_mem_erase (e ▸ List.mem_of_mem_head? hq)
    simp [State.statusOf, unit_returnToWaiting, hne]
  · simp [State.returnToWaiting]
  · simp [State.returnToWaiting]

/-- One more unit returns to WAITING: the gate hold is re-examined against the larger count. -/
theorem Returned.snoc (hs : UncallReady s r l (refs ++ [ref])) (h : Returned s w r refs ns) (back : Bool) :
    Returned s (w.returnToWaiting r back ref) r (refs ++ [ref]) ns := by
  have hr : ref ∉ refs := fun h => (List.nodup_append.1 hs.nodup).2.2 ref h ref (by simp) rfl
  obtain ⟨hp, ho⟩ := hs.unqueued ref (by simp)
  obtain ⟨h1, hgate⟩ := hs.gate
  have hnews := returnToWaiting_news w r back ref
  have hunit := unit_returnToWaiting w r back ref
  have hlist := h.list.returned hs.called back ref
  have hframe := onlyChanges_returnToWaiting w r back ref
  obtain ⟨p, hramp, hflags⟩ := requeued_returnToWaiting w r back ref
  have hrf : (w.leaveCalled r ref).rampFixed r = s.rampFixed r := by simpa using rampFixed_congr h.pst r
  have hold : ((w.leaveCalled r ref).ramp r).gateHold = (w.ramp r).gateHold := by rw [leaveCalled_ramp]
  generalize w.returnToWaiting r back ref = u at *
  have hqueues : QueuesGrown (refs ++ [ref]) (s.ramp r) (u.ramp r) :=
    h.queues.snoc hr hp ho p back (by rw [hramp]) (by rw [hramp])
  have hstep : (u.ramp r).gateHold =
      gateAfter (s.rampFixed r) (w.ramp r).gateHold ((s.ramp r).waiting + (refs ++ [ref]).length) := by
    rw [← hqueues.count, ← hrf, ← hold, hramp]
    rfl
  have hg : (u.ramp r).gateHold =
      gateAfter (s.rampFixed r) (s.ramp r).gateHold ((s.ramp r).waiting + (refs ++ [ref]).length) := by
    rw [hstep, h.gate]
    exact gateAfter_rising h1 hgate (by simp [RampRun.waiting]) (by simp)
  refine ⟨fun q => ?_, hqueues, hg, hlist, ?_, ?_, by simpa using h.notified.trans hnews.1, h.news.trans hnews.2,
    h.frame.trans hframe⟩
  · rw [hunit, h.unit]
    by_cases hq : q = ref
    · subst hq; cases s.unit? q <;> simp [hr]
    · cases s.unit? q <;> simp [hq]
  · rw [hramp, leaveCalled_ramp, h.settings]
    rfl
  · have hset : u.link.flags =
        if (u.ramp r).gateHold = (w.ramp r).gateHold then w.link.flags else flagged [.gateHold r] w.link.flags := by
      rw [hramp]
      simpa [hold] using hflags
    rw [hset, h.flags]
    by_cases hsame : (w.ramp r).gateHold = (s.ramp r).gateHold
    · rw [if_pos hsame, hsame]
    · have hraise : (u.ramp r).gateHold = (w.ramp r).gateHold := by
        rw [h.gate] at hsame ⊢
        rw [hg]
        exact gateAfter_raised hgate (by simp [RampRun.waiting]) (by simp) hsame
      rw [hraise, if_pos rfl]

theorem returned_foldl (hs : UncallReady s r l refs) (back : Bool) :
    Returned s (refs.foldl (fun s ref => s.returnToWaiting r back ref) s) r refs [] := by
  induction refs using List.reverseRecOn with
  | nil => exact returned_nil hs
  | append_singleton refs ref ih =>
    rw [List.foldl_append]
    exact (ih hs.init).snoc hs back

end Sys2Proof.Machine

namespace Sys2Proof.Machine

open Sys2Proof

variable {s w x u : State} {l : Lane} {r : Ramp} {refs gone fs : List Ref} {ref : Ref} {ns : List Notice}

/-! ## Units that leave a CLOSING lane as they are uncalled (R38, R120) -/

theorem UncallReady.perm {refs' : List Ref} (h : UncallReady s r l refs) (hp : refs.Perm refs') : UncallReady s r l refs' :=
  { h with
    nodup := hp.nodup h.nodup
    lanes := fun q hq => h.lanes q (hp.symm.subset hq)
    reserved := fun q hq => h.reserved q (hp.symm.subset hq)
    unqueued := fun q hq => h.unqueued q (hp.symm.subset hq) }

/-- Units of a lane, in reservation-list order. -/
def inLaneOrder (s : State) (l : Lane) (refs : List Ref) : List Ref :=
  (s.lane l).reservations.filter fun q => refs.contains q

theorem UncallReady.mem_inLaneOrder (h : UncallReady s r l refs) {q : Ref} : q ∈ inLaneOrder s l refs ↔ q ∈ refs := by
  unfold inLaneOrder
  rw [List.mem_filter, List.contains_iff_mem]
  exact ⟨fun hq => hq.2, fun hq => ⟨h.reserved q hq, hq⟩⟩

theorem UncallReady.perm_inLaneOrder (h : UncallReady s r l refs) : (inLaneOrder s l refs).Perm refs :=
  (List.perm_ext_iff_of_nodup (h.lane.filter _) h.nodup).2 fun _ => h.mem_inLaneOrder

theorem still_congr {gone' : List Ref} (h : ∀ q, q ∈ gone ↔ q ∈ gone') (xs : List Ref) : still gone xs = still gone' xs := by
  have hc : gone.contains = gone'.contains := by funext q; simp [h q]
  unfold still
  rw [hc]

theorem Returned.statusOf (h : Returned s w r refs ns) (q : Ref) :
    w.statusOf q = if q ∈ refs then (s.statusOf q).map fun _ => .waiting else s.statusOf q := by
  unfold State.statusOf
  rw [h.unit]
  by_cases hq : q ∈ refs <;> cases s.unit? q <;> simp [hq, waitingAgain]

theorem Returned.laneOf (h : Returned s w r refs ns) (q : Ref) : laneOf w q = laneOf s q := by
  unfold Machine.laneOf
  rw [h.unit]
  by_cases hq : q ∈ refs <;> cases s.unit? q <;> simp [hq, waitingAgain]

/-- What a unit has reserved depends on its declared part, its lane and the profile (R41, R49). -/
theorem promised_congr (hd : ∀ q, (w.unit? q).map (·.decl) = (s.unit? q).map (·.decl)) (hl : ∀ q, laneOf w q = laneOf s q)
    (hf : ∀ k, w.laneFixed k = s.laneFixed k) :
    promisedMl w = promisedMl s ∧ promisedMt w = promisedMt s ∧ promisedLoad w = promisedLoad s := by
  refine ⟨funext fun q => ?_, funext fun q => ?_, funext fun d => funext fun q => ?_⟩
  all_goals
    have hq := hd q
    simp only [promisedMl, promisedMt, promisedLoad, hl, hf]
    cases hw : w.unit? q with
    | none =>
      have hn : s.unit? q = none := by simpa [hw, eq_comm] using hq
      simp [hn]
    | some x =>
      obtain ⟨y, hy, hxy⟩ : ∃ y, s.unit? q = some y ∧ y.decl = x.decl := by simpa [hw, eq_comm] using hq
      rw [hy]
      cases laneOf s q with
      | none => rfl
      | some k => simp [hxy]

theorem Returned.promised (h : Returned s w r refs ns) : promisedMl w = promisedMl s ∧ promisedMt w = promisedMt s ∧
    promisedLoad w = promisedLoad s := by
  refine promised_congr (fun q => ?_) h.laneOf (laneFixed_congr h.pst)
  rw [h.unit]
  by_cases hq : q ∈ refs <;> cases s.unit? q <;> simp [hq, waitingAgain]

theorem Returned.gateStands (hs : UncallReady s r l refs) (h : Returned s w r refs ns) : GateStands w r := by
  obtain ⟨h1, hgate⟩ := hs.gate
  have hrf : w.rampFixed r = s.rampFixed r := rampFixed_congr h.pst r
  have hcount : (w.ramp r).prio.length + (w.ramp r).ord.length = (s.ramp r).waiting + refs.length := h.queues.count
  unfold GateStands
  rw [hrf, hcount, h.gate]
  exact ⟨h1, gateAfter_rising h1 hgate (by simp [RampRun.waiting]) le_rfl⟩

theorem Returned.clearReady (hs : UncallReady s r l refs) (h : Returned s w r refs ns) :
    ClearReady w l (inLaneOrder s l refs) := by
  have hlane : w.lane l = s.lane l := h.frame (.lane l) (by simp)
  have hr : (w.laneFixed l).ramp = r := (congrArg LaneFixed.ramp (laneFixed_congr h.pst l)).trans hs.ramp
  refine ⟨hs.lane.filter _, fun q hq => ?_, hlane ▸ hs.lane, ?_, ?_, ?_, hr.symm ▸ h.gateStands hs⟩
  · have hl := (h.laneOf q).trans (hs.lanes q (hs.mem_inLaneOrder.1 hq))
    exact ⟨hlane ▸ (List.mem_filter.1 hq).1, Option.bind_eq_some_iff.1 hl⟩
  · rw [hr]; exact h.queues.prio.1
  · rw [hr]; exact h.queues.ord.1
  · rw [hr, h.list.list]; exact hs.called.filter _

/-- The order in which the units have returned leaves the rest as it is. -/
theorem Returned.perm {refs' : List Ref} (h : Returned s w r refs ns) (hp : refs.Perm refs') : Returned s w r refs' ns := by
  have hm (q : Ref) : q ∈ refs ↔ q ∈ refs' := hp.mem_iff
  obtain ⟨⟨hpn, hprio⟩, ⟨hon, hord⟩, hqueued, hcount⟩ := h.queues
  refine
    { h with
      unit := fun q => ?_
      queues := ⟨⟨hpn, ?_⟩, ⟨hon, ?_⟩, fun q hq => hqueued q ((hm q).2 hq), hp.length_eq ▸ hcount⟩
      gate := hp.length_eq ▸ h.gate
      list := h.list.congr hm }
  · rw [h.unit]; simp only [hm]
  · rw [← still_congr hm]; exact hprio
  · rw [← still_congr hm]; exact hord

/-! ### What is left of the lane, the sums and the ramp -/

/-- Units of one lane have left it. -/
theorem lanesReleased_of_one (hl : ∀ q ∈ refs, laneOf s q = some l) (hm : ref ∈ refs) (hr : ref ∈ (s.lane l).reservations)
    (h : u.lane l =
      { s.lane l with
        reservations := still refs (s.lane l).reservations
        state := if (s.lane l).state = .closing ∧ still refs (s.lane l).reservations = [] then .closed
          else (s.lane l).state })
    (hother : ∀ k, k ≠ l → u.lane k = s.lane k) : LanesReleased s u refs := by
  intro k rest
  by_cases hk : k = l
  · subst hk
    have hrest : rest = still refs (s.lane k).reservations :=
      List.filter_congr fun q _ => by by_cases hq : q ∈ refs <;> simp [hq, hl]
    have hne : rest ≠ (s.lane k).reservations := hrest ▸ (ne_still_of_mem hm hr).symm
    rw [if_neg hne, hrest, h]
  · have hrest : rest = (s.lane k).reservations := by
      refine List.filter_eq_self.2 fun q _ => ?_
      by_cases hq : q ∈ refs
      · simp [hl q hq, Ne.symm hk]
      · simp [hq]
    rw [if_pos hrest, hother k hk]

theorem SumsReleased.perm {gone' : List Ref} (h : SumsReleased s u gone) (hp : gone.Perm gone') : SumsReleased s u gone' := by
  obtain ⟨hml, hmt, hload, hrest⟩ := h
  have hsum (g : Ref → Int) : (gone.map g).sum = (gone'.map g).sum := (hp.map g).sum_eq
  exact ⟨by rw [hml, hsum], by rw [hmt, hsum], fun d => by rw [hload, hsum], hrest⟩

theorem Returned.sums (h : Returned s w r refs ns) (hu : SumsReleased w u gone) : SumsReleased s u gone := by
  obtain ⟨hml, hmt, hload⟩ := h.promised
  have hstb : w.stb = s.stb := h.frame .stb (by simp)
  unfold SumsReleased at hu ⊢
  rwa [hml, hmt, hload, hstb] at hu

theorem flagged_flagged (q : Subject) (flags : Vector Bool 9) : flagged [q] (flagged [q] flags) = flagged [q] flags := by
  simp [flagged, Vector.set_set]

/-- The hold that the ramp's queues give with the units in them, and then without them (R121, log entry 17). -/
theorem Returned.gateWithout (h : Returned s w r refs ns) (hg : ∀ q, q ∈ gone ↔ q ∈ refs) :
    gateWithout w gone r = gateAfter (s.rampFixed r)
      (gateAfter (s.rampFixed r) (s.ramp r).gateHold ((s.ramp r).waiting + refs.length)) (s.ramp r).waiting := by
  have hrf : w.rampFixed r = s.rampFixed r := rampFixed_congr h.pst r
  unfold Machine.gateWithout
  rw [still_congr hg, still_congr hg, h.queues.prio.2, h.queues.ord.2, h.gate, hrf]
  rfl

/-- A hold that the returning units set or left as it was is pending just when they set it. -/
theorem Returned.flags_cleared (hs : UncallReady s r l refs) (h : Returned s w r refs ns) (hg : ∀ q, q ∈ gone ↔ q ∈ refs)
    (hu : RampCleared w x r [] gone) : x.link.flags =
      if gateAfter (s.rampFixed r) (s.ramp r).gateHold ((s.ramp r).waiting + refs.length) = (s.ramp r).gateHold
      then s.link.flags else flagged [.gateHold r] s.link.flags := by
  have hgate : gateAfter (s.rampFixed r) (s.ramp r).gateHold (s.ramp r).waiting = (s.ramp r).gateHold := hs.gate.2
  rw [hu.flags, h.flags, h.gateWithout hg, h.gate]
  by_cases hsame : gateAfter (s.rampFixed r) (s.ramp r).gateHold ((s.ramp r).waiting + refs.length) = (s.ramp r).gateHold
  · simp only [hsame, hgate, if_true]
  · simp only [if_neg hsame, flagged_flagged, ite_self]

/-- The ramp when the units have left their queues again. -/
theorem Returned.ramp_cleared (hne : refs ≠ []) (h : Returned s w r refs ns)
    (hg : ∀ q, q ∈ gone ↔ q ∈ refs) (hu : RampCleared w x r [] gone) :
    let g := gateAfter (s.rampFixed r)
      (gateAfter (s.rampFixed r) (s.ramp r).gateHold ((s.ramp r).waiting + refs.length)) (s.ramp r).waiting
    x.ramp r =
      { s.ramp r with
        gateHold := g, lineHigh := g, called := (x.ramp r).called, callTimer := (x.ramp r).callTimer } := by
  have hgate := h.gateWithout hg
  obtain ⟨q, hq⟩ := List.exists_mem_of_ne_nil refs hne
  have hleft : SomeLeft w gone r := (h.queues.queued q hq).imp (ne_still_of_mem ((hg q).2 hq)) (ne_still_of_mem ((hg q).2 hq))
  have hprio : (x.ramp r).prio = (s.ramp r).prio := by rw [hu.prio, still_congr hg, h.queues.prio.2]
  have hord : (x.ramp r).ord = (s.ramp r).ord := by rw [hu.ord, still_congr hg, h.queues.ord.2]
  have hwhole : x.ramp r = (s.ramp r).withListsOf (x.ramp r) := by rw [hu.settings, h.settings]; rfl
  rw [hwhole]
  simp only [RampRun.withListsOf, hprio, hord, hu.gate, hu.line hleft, hgate]

/-- The called list and its timer when the units have been released and handed over. -/
theorem Returned.called_cleared (h : Returned s w r refs ns) (hg : ∀ q, q ∈ gone ↔ q ∈ refs)
    (hu : RampCleared w x r [] gone) (hr : u.ramp r = x.ramp r) (hst : ∀ q, q ∉ gone → u.statusOf q = w.statusOf q)
    (hp : u.plate r = w.plate r) (hf : u.rampFixed r = w.rampFixed r) : CalledCleared s u r refs := by
  have hcalled : (u.ramp r).called = (w.ramp r).called := by rw [hr, hu.list.list, still_nil]
  have htimer : (u.ramp r).callTimer = (w.ramp r).callTimer := by
    rw [hr, hu.list.timer]
    cases (w.ramp r).called.head? <;> rfl
  refine h.list.of_eq hcalled htimer (fun q hq => hst q fun hgone => ?_) hp hf
  have hm : q ∈ still refs (s.ramp r).called := h.list.list ▸ List.mem_of_mem_head? hq
  simpa [(hg q).1 hgone] using (List.mem_filter.1 hm).2

/-! ### The units' return, release and hand-over at one event -/

/-- The returns from the last follower backward, the notices, the releases and the burst. -/
theorem uncallToWaiting_closing (hs : UncallReady s r l (ref :: s.followers r ref l)) (hc : (s.lane l).state = .closing)
    (back : Bool) (reason : UncallReason) :
    let fs := s.followers r ref l
    let gone := inLaneOrder s l (ref :: fs)
    ∃ w x, Returned s w r (ref :: fs) (.uncall r ref reason none :: fs.map fun q => .uncall r q .follower none) ∧
      Cleared w x l gone [] ∧ HandedOver x (s.uncallToWaiting r l back reason ref).1 l gone := by
  intro fs gone
  have hperm : (ref :: fs).Perm (fs.reverse ++ [ref]) :=
    (((List.reverse_perm fs).append_right [ref]).trans (List.perm_append_singleton ref fs)).symm
  have hback := hs.perm hperm
  have hfirst := ((returned_foldl hback.init false).snoc hback back).perm hperm.symm
  have htold := (hfirst.notify (.uncall r ref reason none)).uncallNotices .follower none fs
  have hready := htold.clearReady hs
  generalize hw : fs.foldl (fun s q => s.uncallNotice r .follower none q)
    (((fs.reverse.foldl (fun s q => s.returnToWaiting r false q) s).returnToWaiting r back ref).notify
      (.uncall r ref reason none)) = w at htold hready
  obtain ⟨x, hx, hu⟩ := reallocateAll_outcome hready fun q hq => by
    rw [htold.statusOf, if_pos (hs.mem_inLaneOrder.1 hq)]
    cases s.statusOf q <;> simp
  refine ⟨w, x, htold, hx, ?_⟩
  have hlane : w.lane l = s.lane l := htold.frame (.lane l) (by simp)
  have hrun : (s.uncallToWaiting r l back reason ref).1 =
      w.reallocateAll ((w.lane l).reservations.filter fun q => q == ref || fs.contains q) l := by
    rw [← hw]
    simp only [State.uncallToWaiting, hc, decide_true, if_true]
    rfl
  rw [hrun, hlane]
  exact hu

/-- What the event leaves: each part is what the returns, the releases and the burst make of it. -/
theorem uncalledFromClosing {v : UnitRecord} {reason : UncallReason} (hs : UncallReady s r l (ref :: fs))
    (hv : s.unit? ref = some v)
    (hw : Returned s w r (ref :: fs) (.uncall r ref reason none :: fs.map fun q => .uncall r q .follower none))
    (hx : Cleared w x l (inLaneOrder s l (ref :: fs)) []) (hu : HandedOver x u l (inLaneOrder s l (ref :: fs))) :
    UncalledFromClosing s u r l v v.noShow reason fs := by
  obtain rfl := unit_ref hv
  have hg (q : Ref) := hs.mem_inLaneOrder (q := q)
  have hunit (q : Ref) : u.unit? q =
      (s.unit? q).map fun y => if q ∈ v.decl.ref :: fs then reallocatedRecord { y with age := 0 } else y := by
    rw [hu.unit, hx.unit, hw.unit]
    cases s.unit? q with
    | none => rfl
    | some y =>
      by_cases hq : q ∈ v.decl.ref :: fs
      · simp only [hg, hq, Option.map_some, if_true]
        rfl
      · simp only [hg, hq, Option.map_some, if_false]
  have hramp : RampCleared w x r [] (inLaneOrder s l (v.decl.ref :: fs)) := by
    have hcalled : w.withStatus .called (inLaneOrder s l (v.decl.ref :: fs)) = [] :=
      List.filter_eq_nil_iff.2 fun q hq => by
        rw [hw.statusOf, if_pos ((hg q).1 hq)]
        cases s.statusOf q <;> simp
    have hr : (w.laneFixed l).ramp = r := (congrArg LaneFixed.ramp (laneFixed_congr hw.pst l)).trans hs.ramp
    have := hx.ramp
    rwa [hcalled, hr] at this
  have hlanew : w.lane l = s.lane l := hw.frame (.lane l) (by simp)
  have hlink : u.link = x.link := hu.frame .link (by simp)
  have hrampu : u.ramp r = x.ramp r := hu.frame (.ramp r) (by simp)
  have hstatus (q : Ref) (hq : q ∉ inLaneOrder s l (v.decl.ref :: fs)) : u.statusOf q = w.statusOf q := by
    refine Eq.trans ?_ (hx.status q)
    unfold State.statusOf
    rw [hu.unit]
    simp [hq]
  have hplate : u.plate r = w.plate r := (hu.frame (.plate r) (by simp)).trans (hx.frame (.plate r) (by simp))
  have hpst : u.pst = w.pst := (hu.frame .pst (by simp)).trans hx.pst
  have hcalled := hw.called_cleared hg hramp hrampu hstatus hplate (rampFixed_congr hpst r)
  have hother (k : Lane) (hk : k ≠ l) : u.lane k = s.lane k :=
    (hu.frame (.lane k) (by simp)).trans ((hx.frame (.lane k) (by simp [hk])).trans (hw.frame (.lane k) (by simp)))
  have hstill := still_congr hg (s.lane l).reservations
  have hlane : u.lane l =
      { s.lane l with
        reservations := still (v.decl.ref :: fs) (s.lane l).reservations
        state := if (s.lane l).state = .closing ∧ still (v.decl.ref :: fs) (s.lane l).reservations = [] then .closed
          else (s.lane l).state } := by
    have hne : inLaneOrder s l (v.decl.ref :: fs) ≠ [] := List.ne_nil_of_mem ((hg v.decl.ref).2 (.head _))
    rw [show u.lane l = x.lane l from hu.frame (.lane l) (by simp), hx.lane, hlanew, hstill]
    simp [hne]
  refine ⟨?_, fun q y hq hy => ?_, fun q hq => ?_, ⟨?_, ?_⟩, ?_, ?_, ?_, ?_⟩
  · rw [hunit, hv]; simp
  · rw [hunit, hy]; simp [hq]
  · rw [hunit, hq]; rfl
  · rw [hrampu, hw.ramp_cleared (by simp) hg hramp, ← hrampu, hcalled.list, hcalled.timer]
    rfl
  · rw [hlink]
    exact hw.flags_cleared hs hg hramp
  · simpa [Notified, hlink] using hw.notified.trans hx.notified
  · exact lanesReleased_of_one hs.lanes (.head _) (hs.reserved _ (.head _)) hlane hother
  · have hstb : u.stb = x.stb := hu.frame .stb (by simp)
    have hsums := (hw.sums hx.sums).perm hs.perm_inLaneOrder
    unfold SumsReleased at hsums ⊢
    rwa [hstb]
  · have halc : x.alc = s.alc := (hx.frame .alc (by simp)).trans (hw.frame .alc (by simp))
    rw [hu.alc, halc]
    rfl

/-- The event as a whole: the number of followers, the link's news, and the frame. -/
theorem uncallToWaiting_outcome {v : UnitRecord} (hs : UncallReady s r l (ref :: s.followers r ref l))
    (hc : (s.lane l).state = .closing) (hv : s.unit? ref = some v) (back : Bool) (reason : UncallReason) :
    let u := (s.uncallToWaiting r l back reason ref).1
    OnlyNews s u ∧ UncalledFromClosing s u r l v v.noShow reason (s.followers r ref l) ∧
      OnlyChanges [.link, .units, .ramp r, .lane l, .stb, .alc] s u := by
  obtain ⟨w, x, hw, hx, hu⟩ := uncallToWaiting_closing hs hc back reason
  have hr : (w.laneFixed l).ramp = r := (congrArg LaneFixed.ramp (laneFixed_congr hw.pst l)).trans hs.ramp
  have hframe := hx.frame
  rw [hr] at hframe
  refine ⟨(hw.news.trans hx.news).trans (onlyNews_of_link (hu.frame .link (by simp))),
    uncalledFromClosing hs hv hw hx hu, ?_⟩
  exact .trans (hw.frame.mono (by simp)) (.trans (hframe.mono (by simp)) (hu.frame.mono (by simp)))

end Sys2Proof.Machine

namespace Sys2Proof.Machine

open Sys2Proof

variable {s u : State} {f : Frame} {rest : List Frame} {l : Lane} {r : Ramp} {refs fs : List Ref} {ref : Ref}

/-! ## SKIP and a first no-show in a CLOSING lane (R38, R115, R118) -/

/-- A unit's followers by status and lane (R117). -/
theorem followers_filter (s : State) (r : Ramp) (ref : Ref) (l : Lane) : s.followers r ref l =
    (behindIn s r ref).filter fun q => decide (laneOf s q = some l) && decide (s.statusOf q = some .called) := by
  refine List.filter_congr fun q _ => ?_
  unfold laneOf State.statusOf
  cases s.unit? q <;> simp

/-- A CALLED unit stands in the reservation list of its lane. -/
theorem ReservationLaw.called_reserved (h : ReservationLaw s) {v : UnitRecord} (hv : s.unit? ref = some v)
    (hc : v.status = .called) (hl : v.lane = some l) : ref ∈ (s.lane l).reservations := by
  obtain ⟨-, hstands, -⟩ := h
  have hs := hstands v (unit_mem hv)
  unfold recordStands at hs
  simp only [hc, hl, Bool.and_eq_true, unit_ref hv] at hs
  simpa using hs.1.2

/-- What the reservation law says of a CALLED unit and its followers (R26, R103, R104). -/
theorem ReservationLaw.uncallReady (h : ReservationLaw s) {v : UnitRecord} (hv : s.unit? ref = some v)
    (hc : v.status = .called) (hl : v.lane = some l) :
    UncallReady s (s.laneFixed l).ramp l (ref :: s.followers (s.laneFixed l).ramp ref l) := by
  have hclear := h.clearReady l (List.nil_sublist _)
  have hm := h.called_listed hv hc hl
  obtain ⟨before, -, hlist⟩ := eq_append_cons_of_mem hm
  have hcalled (q : Ref) (hq : q ∈ ref :: s.followers (s.laneFixed l).ramp ref l) :
      ∃ y, s.unit? q = some y ∧ y.status = .called ∧ y.lane = some l := by
    rcases List.mem_cons.1 hq with rfl | hq
    · exact ⟨v, hv, hc, hl⟩
    · rw [followers_filter] at hq
      have hp := (List.mem_filter.1 hq).2
      unfold laneOf State.statusOf at hp
      cases hy : s.unit? q with
      | none => simp [hy] at hp
      | some y => exact ⟨y, rfl, by simpa [hy, and_comm] using hp⟩
  refine ⟨?_, rfl, fun q hq => ?_, fun q hq => ?_, fun q hq => ?_, hclear.lane, hclear.prio, hclear.ord, hclear.called,
    hclear.gate⟩
  · have hsub : (ref :: s.followers (s.laneFixed l).ramp ref l).Sublist (s.ramp (s.laneFixed l).ramp).called := by
      rw [followers_filter, hlist]
      exact (List.filter_sublist.cons_cons ref).trans (List.sublist_append_right before _)
    exact hsub.nodup (h.called_nodup _)
  · obtain ⟨y, hy, -, hyl⟩ := hcalled q hq
    simp [laneOf, hy, hyl]
  · obtain ⟨y, hy, hys, hyl⟩ := hcalled q hq
    exact h.called_reserved hy hys hyl
  · obtain ⟨y, hy, hys, -⟩ := hcalled q hq
    refine not_or.1 fun hqueue => ?_
    obtain ⟨z, hz, hzs⟩ := h.queued_waits hqueue
    obtain rfl := Option.some.inj (hy.symm.trans hz)
    simp [hys] at hzs

/-- The state with a unit's no-show counted (R115). -/
def noShown (s : State) (ref : Ref) : State := s.modUnit ref fun u => { u with noShow := 1 }

theorem unit_noShown (s : State) (ref q : Ref) :
    (noShown s ref).unit? q = (s.unit? q).map fun v => if q = ref then { v with noShow := 1 } else v :=
  unitOf_modUnit s ref q (fun u => { u with noShow := 1 }) fun _ => rfl

theorem laneOf_noShown (s : State) (ref q : Ref) : laneOf (noShown s ref) q = laneOf s q :=
  laneOf_modUnit_same s ref q (fun _ => rfl) fun _ => rfl

theorem statusOf_noShown (s : State) (ref q : Ref) : (noShown s ref).statusOf q = s.statusOf q := by
  unfold State.statusOf
  rw [unit_noShown]
  by_cases hq : q = ref <;> cases s.unit? q <;> simp [hq]

theorem followers_noShown (s : State) (r : Ramp) (ref : Ref) (l : Lane) :
    (noShown s ref).followers r ref l = s.followers r ref l := by
  rw [followers_filter, followers_filter]
  refine List.filter_congr fun q _ => ?_
  rw [laneOf_noShown, statusOf_noShown]

theorem UncallReady.noShown (h : UncallReady s r l refs) (ref : Ref) : UncallReady (noShown s ref) r l refs :=
  { h with lanes := fun q hq => (laneOf_noShown s ref q).trans (h.lanes q hq) }

/-- Seen from before the no-show was counted. -/
theorem UncalledFromClosing.of_noShown {v : UnitRecord} {reason : UncallReason}
    (h : UncalledFromClosing (noShown s v.decl.ref) u r l { v with noShow := 1 } 1 reason fs) :
    UncalledFromClosing s u r l v 1 reason fs := by
  obtain ⟨hml, hmt, hload⟩ := promised_congr (w := noShown s v.decl.ref) (s := s) (fun q => by
    rw [unit_noShown]
    by_cases hq : q = v.decl.ref <;> cases s.unit? q <;> simp [hq]) (laneOf_noShown s _) fun _ => rfl
  refine
    { h with
      others := fun q w hq hw => h.others q w hq (by rw [unit_noShown, hw]; simp [hq])
      unknown := fun q hq => h.unknown q (by rw [unit_noShown, hq]; rfl)
      lanes := fun k => ?_
      sums := ?_ }
  · have hk := h.lanes k
    simp only [laneOf_noShown] at hk
    exact hk
  · have hsums := h.sums
    unfold SumsReleased at hsums ⊢
    rw [hml, hmt, hload] at hsums
    exact hsums

/-- The readiness of the state in which the handler left a request. -/
theorem UncallReady.taken (h : UncallReady s r l refs) (f : Frame) (rest : List Frame) :
    UncallReady (s.taken f rest) r l refs := { h with }

/-- Seen from before the request was taken and after it was answered. -/
theorem UncalledFromClosing.answered {v : UnitRecord} {n : Nat} {reason : UncallReason}
    (h : UncalledFromClosing (s.taken f rest) u r l v n reason fs) (t : Ticket) (x : Reply) :
    UncalledFromClosing s (u.fill t x) r l v n reason fs := { h with }

/-- SKIP of a CALLED unit, step by step. -/
theorem exec_skip {v : UnitRecord} (hv : s.unit? ref = some v) (hc : v.status = .called) (hl : v.lane = some l)
    (hh : Handed .skip (deckOfRef s ref) s f rest) (hq : readRef s f.payload = some ref) :
    let p := (s.taken f rest).uncallToWaiting (s.laneFixed l).ramp l false .skipped ref
    exec .skip s = .next (p.1.fill f.ticket (.skipped p.2)).startTx := by
  have hx : exec .skip s = .next (ownSkip f.ticket ref (s.taken f rest)).startTx := handle_of_handed hh hq rfl
  have hv' : (s.taken f rest).unit? ref = some v := hv
  unfold ownSkip at hx
  rw [withUnit_found (b := false) _ _ hv' (by simp)] at hx
  simp only [hc, hl] at hx
  exact hx

/-- A head's first no-show, step by step. -/
theorem exec_firstNoShow {v : UnitRecord} (hv : s.unit? ref = some v) (hc : v.status = .called) (hl : v.lane = some l)
    (hh : (s.ramp r).called.head? = some ref) (hn : v.noShow = 0) (ht : (s.ramp r).callTimer ≠ none) :
    exec (.callTimerExpiry r) s =
      .next (((noShown s ref).uncallToWaiting r l true .noShow ref).1).startTx := by
  have hx : exec (.callTimerExpiry r) s = execCallTimerExpiry r s := rfl
  have ht' : (s.ramp r).callTimer.isSome = true := Option.isSome_iff_ne_none.2 ht
  rw [hx]
  unfold execCallTimerExpiry
  simp only [ht', hh, Option.bind_some, hv, hl, hc, hn, if_true, finish, State.firstNoShow, unit_ref hv]
  rfl

/-- Settles O29: the units return from the last backward, and leave the lane at the same event. -/
theorem uncalledUnitsLeaveAClosingLane : Obligations.UncalledUnitsLeaveAClosingLane := by
  unfold Obligations.UncalledUnitsLeaveAClosingLane
  intro s ref v l hv hc hl hclosing hlaw r followers blocks
  have hready : UncallReady s r l (ref :: s.followers r ref l) := hlaw.uncallReady hv hc hl
  have hfollowers : s.followers r ref l = followers := followers_filter s r ref l
  obtain rfl := unit_ref hv
  refine ⟨fun f rest hh hq => ?_, fun hhead hn ht => ?_⟩
  · obtain ⟨hnews, hout, hframe⟩ := uncallToWaiting_outcome (hready.taken f rest) hclosing hv false .skipped
    rw [← hfollowers]
    exact ⟨_, exec_skip hv hc hl hh hq, replied_of_fill _ hnews, hout.answered _ _,
      onlyChanges_fill (f := f) (rest := rest) _ _ (by simp [blocks]) (hframe.mono (by simp [blocks]))⟩
  · have hv' : (noShown s v.decl.ref).unit? v.decl.ref = some { v with noShow := 1 } := by rw [unit_noShown, hv]; simp
    have hready' : UncallReady (noShown s v.decl.ref) r l
        (v.decl.ref :: (noShown s v.decl.ref).followers r v.decl.ref l) := by
      rw [followers_noShown]; exact hready.noShown _
    obtain ⟨hnews, hout, hframe⟩ := uncallToWaiting_outcome hready' hclosing hv' true .noShow
    rw [followers_noShown, hfollowers] at hout
    exact ⟨_, exec_firstNoShow hv hc hl hhead hn ht, OnlyNews.trans (t := noShown s v.decl.ref) (onlyNews_of_link rfl) hnews,
      hout.of_noShown, .trans (t := noShown s v.decl.ref) ((onlyChanges_modUnit s _ _).mono (by simp [blocks]))
        (hframe.mono (by simp [blocks]))⟩

end Sys2Proof.Machine

namespace Sys2Proof.Machine

open Sys2Proof

/-! ## The sums, account by account (R41, R47, R48)

SumsLaw speaks of four accumulators and four deck loads. Here they are accounts of one kind: each is the sum of what every
record adds to it, and what a record adds rests on its lane, on whether it is ABOARD, and on its figures. So an operation
keeps the sums when what it adds to the accounts is what it changes in the record. -/

/-- A figure of the Stability Unit that SumsLaw speaks of. -/
inductive Account where
  | mlC | mtC | mlP | mtP
  | load (d : Deck)

/-- What the Stability Unit holds in an account. -/
def Stability.account (x : Stability) : Account → Int
  | .mlC => x.mlC
  | .mtC => x.mtC
  | .mlP => x.mlP
  | .mtP => x.mtP
  | .load d => x.load[d]

/-- What a weight ABOARD in a lane adds at its offset (R41, R47). -/
def aboardShare (f : LaneFixed) (weight offset length : Nat) : Account → Int
  | .mlC => weight * f.y
  | .mtC => weight * f.xUnit offset length
  | .mlP | .mtP => 0
  | .load d => if f.deck = d then weight else 0

/-- What a weight reserved in a lane adds (R41, R48). -/
def promisedShare (f : LaneFixed) (weight : Nat) : Account → Int
  | .mlC | .mtC => 0
  | .mlP => weight * f.y
  | .mtP => weight * f.xMid
  | .load d => if f.deck = d then weight else 0

/-- What a record adds: nothing without a lane, its weight used where it is ABOARD, its declared weight where it holds a
reservation. -/
def UnitRecord.share (fixed : Lane → LaneFixed) (v : UnitRecord) (a : Account) : Int :=
  match v.lane with
  | none => 0
  | some l =>
    if v.status = .aboard then aboardShare (fixed l) v.weightUsed (v.offset.getD 0) v.decl.length a
    else promisedShare (fixed l) v.decl.weight a

/-- A record holds a lane where its status says so, and none where its status says so; a CROSSING unit may have lost its
lane (R3, R34). -/
def UnitRecord.Sited (v : UnitRecord) : Prop :=
  match v.status with
  | .waiting | .called | .aboard => v.lane ≠ none
  | .crossing => True
  | .booked | .unplaced | .lapsed | .held | .shutOut => v.lane = none

/-- The right-hand sides of SumsLaw. -/
def State.lawSum (s : State) (a : Account) : Int :=
  let aboard := s.units.filter fun v => decide (v.status = .aboard)
  let promised := s.units.filter holdsReservation
  match a with
  | .mlC => (aboard.map fun v => (v.weightUsed : Int) * (laneOfRecord s v).y).sum
  | .mtC => (aboard.map fun v =>
      (v.weightUsed : Int) * (laneOfRecord s v).xUnit (v.offset.getD 0) v.decl.length).sum
  | .mlP => (promised.map fun v => (v.decl.weight : Int) * (laneOfRecord s v).y).sum
  | .mtP => (promised.map fun v => (v.decl.weight : Int) * (laneOfRecord s v).xMid).sum
  | .load d =>
    ((aboard.filter fun v => decide ((laneOfRecord s v).deck = d)).map fun v => (v.weightUsed : Int)).sum +
      ((promised.filter fun v => decide ((laneOfRecord s v).deck = d)).map fun v => (v.decl.weight : Int)).sum

theorem sumsLaw_iff_lawSum {s : State} : SumsLaw s ↔ ∀ a, s.stb.account a = s.lawSum a := by
  constructor
  · rintro ⟨h1, h2, h3, h4, h5⟩ a
    cases a with
    | mlC => exact h1
    | mtC => exact h2
    | mlP => exact h3
    | mtP => exact h4
    | load d => exact h5 d
  · exact fun h => ⟨h .mlC, h .mtC, h .mlP, h .mtP, fun d => h (.load d)⟩

theorem sum_map_filter_eq_ite (p : UnitRecord → Bool) (g : UnitRecord → Int) (us : List UnitRecord) :
    ((us.filter p).map g).sum = (us.map fun v => if p v = true then g v else 0).sum := by
  simp [List.sum_map_ite]

/-- A sited record holds a lane where it is ABOARD or holds a reservation, and adds nothing elsewhere. -/
theorem UnitRecord.Sited.share_eq {v : UnitRecord} (h : v.Sited) (fixed : Lane → LaneFixed) (a : Account) :
    v.share fixed a =
      if v.status = .aboard then aboardShare (fixed (v.lane.getD 0)) v.weightUsed (v.offset.getD 0) v.decl.length a
      else if holdsReservation v = true then promisedShare (fixed (v.lane.getD 0)) v.decl.weight a else 0 := by
  unfold UnitRecord.Sited at h
  unfold UnitRecord.share holdsReservation
  cases hl : v.lane <;> cases hs : v.status <;> simp_all

theorem not_holdsReservation_of_aboard {v : UnitRecord} (h : v.status = .aboard) : holdsReservation v = false := by
  simp [holdsReservation, h]

/-- Where every record is sited, SumsLaw's sums are those of what the records add. -/
theorem lawSum_eq_sum_share {s : State} (h : ∀ v ∈ s.units, v.Sited) (a : Account) :
    s.lawSum a = (s.units.map (·.share s.laneFixed a)).sum := by
  have shares : s.units.map (·.share s.laneFixed a) = s.units.map fun v =>
      if v.status = .aboard then aboardShare (laneOfRecord s v) v.weightUsed (v.offset.getD 0) v.decl.length a
      else if holdsReservation v = true then promisedShare (laneOfRecord s v) v.decl.weight a else 0 :=
    List.map_congr_left fun v hv => (h v hv).share_eq s.laneFixed a
  rw [shares]
  cases a <;>
    simp only [State.lawSum, List.filter_filter, sum_map_filter_eq_ite, ← List.sum_map_add] <;>
    refine congrArg List.sum (List.map_congr_left fun v _ => ?_) <;>
    by_cases ha : v.status = .aboard <;>
    simp [ha, not_holdsReservation_of_aboard, aboardShare, promisedShare, and_comm, ite_and]

theorem sumsLaw_iff {s : State} (h : ∀ v ∈ s.units, v.Sited) :
    SumsLaw s ↔ ∀ a, s.stb.account a = (s.units.map (·.share s.laneFixed a)).sum := by
  simp only [sumsLaw_iff_lawSum, lawSum_eq_sum_share h]

/-! ## Balance

`Balanced out s` is what the parts of an event keep of the sums. The units of `out` are those whose records stand between
two statuses: their lane is released and their new status is still to be written. -/

structure Balanced (out : List Ref) (s : State) : Prop where
  rise : UnitsRise s.units
  sums : ∀ a, s.stb.account a = (s.units.map (·.share s.laneFixed a)).sum
  sited : ∀ v ∈ s.units, v.decl.ref ∉ out → v.Sited

theorem Balanced.sumsLaw {s : State} (h : Balanced [] s) : SumsLaw s :=
  (sumsLaw_iff fun v hv => h.sited v hv List.not_mem_nil).2 h.sums

theorem ReservationLaw.sited {s : State} (h : ReservationLaw s) : ∀ v ∈ s.units, v.Sited := by
  obtain ⟨-, hstands, -⟩ := h
  intro v hv
  have hs := hstands v hv
  unfold recordStands at hs
  unfold UnitRecord.Sited
  cases hst : v.status <;> cases hl : v.lane <;> simp_all

/-- The laws under which a step keeps the sums. -/
structure SumsReady (s : State) : Prop where
  law : ReservationLaw s
  sums : SumsLaw s

theorem SumsReady.balanced {s : State} (h : SumsReady s) : Balanced [] s where
  rise := h.law.rise
  sums := (sumsLaw_iff h.law.sited).1 h.sums
  sited v hv _ := h.law.sited v hv

/-- An operation that touches neither records nor accounts nor the lanes' fixed parts. -/
theorem Balanced.congr {s u : State} {out : List Ref} (hs : Balanced out s) (hu : u.units = s.units)
    (ha : ∀ a, u.stb.account a = s.stb.account a) (hl : ∀ l, u.laneFixed l = s.laneFixed l) : Balanced out u where
  rise := hu ▸ hs.rise
  sums a := by rw [ha, hs.sums, hu, funext hl]
  sited v hv := hs.sited v (hu ▸ hv)

theorem Balanced.same {s u : State} {out : List Ref} (hs : Balanced out s) (hu : u.units = s.units) (hx : u.stb = s.stb)
    (hl : ∀ l, u.laneFixed l = s.laneFixed l) : Balanced out u := hs.congr hu (fun a => by rw [hx]) hl

theorem sited_of_crossing {v : UnitRecord} (h : v.status = .crossing) : v.Sited := by simp [UnitRecord.Sited, h]

theorem UnitRecord.Sited.congr {v w : UnitRecord} (h : v.Sited) (hs : w.status = v.status) (hl : w.lane = v.lane) : w.Sited := by
  unfold UnitRecord.Sited at h ⊢; rw [hs, hl]; exact h

/-- A CROSSING unit keeps its status when its lane is released (R34): its record is complete. -/
theorem Balanced.keep_crossing {s : State} {out out' : List Ref} (hs : Balanced out s)
    (h : ∀ q ∈ out, q ∉ out' → s.statusOf q = some .crossing) : Balanced out' s :=
  { hs with
    sited := fun v hv hq => by
      by_cases ho : v.decl.ref ∈ out
      · have := h _ ho hq
        rw [State.statusOf, unit_of_mem hs.rise hv] at this
        exact sited_of_crossing (Option.some.inj this)
      · exact hs.sited v hv ho }

theorem Balanced.mono {s : State} {out out' : List Ref} (hs : Balanced out s) (h : ∀ q ∈ out, q ∈ out') :
    Balanced out' s := hs.keep_crossing fun q hq hn => absurd (h q hq) hn

theorem Balanced.sitedAt {s : State} {out : List Ref} (hs : Balanced out s) {ref : Ref} {v : UnitRecord}
    (hv : s.unit? ref = some v) (h : ref ∉ out) : v.Sited := hs.sited v (unit_mem hv) (unit_ref hv ▸ h)

/-! ## One record changes, joins or leaves -/

/-- The record that a reference names stands once in the table (R4). -/
theorem units_split {s : State} (h : UnitsRise s.units) {ref : Ref} {v : UnitRecord} (hv : s.unit? ref = some v) :
    ∃ before behind, s.units = before ++ v :: behind ∧ (∀ w ∈ before, w.decl.ref ≠ ref) ∧
      ∀ w ∈ behind, w.decl.ref ≠ ref := by
  obtain ⟨-, before, behind, hus, hb⟩ := List.find?_eq_some_iff_append.1 hv
  refine ⟨before, behind, hus, by simpa using hb, fun w hw => ?_⟩
  rw [UnitsRise, hus] at h
  have := (List.pairwise_cons.1 (List.pairwise_append.1 h).2.1).1 w hw
  rw [unit_ref hv] at this
  exact Nat.ne_of_gt this

theorem sum_modUnit {s : State} (h : UnitsRise s.units) {ref : Ref} {v : UnitRecord} (hv : s.unit? ref = some v)
    (f : UnitRecord → UnitRecord) (g : UnitRecord → Int) :
    ((s.modUnit ref f).units.map g).sum = (s.units.map g).sum + (g (f v) - g v) := by
  obtain ⟨before, behind, hus, hb, hb'⟩ := units_split h hv
  have keep {us : List UnitRecord} (hn : ∀ w ∈ us, w.decl.ref ≠ ref) :
      us.map (fun u => if u.decl.ref == ref then f u else u) = us :=
    (List.map_congr_left fun w hw => by simp [hn w hw]).trans (List.map_id us)
  have hmod : (s.modUnit ref f).units = before ++ f v :: behind := by
    unfold State.modUnit
    rw [State.setUnits_units, hus, List.map_append, List.map_cons, keep hb, keep hb', unit_ref hv]
    simp
  rw [hmod, hus]
  simp
  omega

theorem sum_retire {s : State} (h : UnitsRise s.units) {ref : Ref} {v : UnitRecord} (hv : s.unit? ref = some v)
    (g : UnitRecord → Int) : ((s.retire ref).units.map g).sum = (s.units.map g).sum - g v := by
  obtain ⟨before, behind, hus, hb, hb'⟩ := units_split h hv
  have keep {us : List UnitRecord} (hn : ∀ w ∈ us, w.decl.ref ≠ ref) : us.filter (fun u => u.decl.ref != ref) = us :=
    List.filter_eq_self.2 fun w hw => by simp [hn w hw]
  simp [State.retire, hus, keep hb, keep hb', unit_ref hv]
  omega

theorem sum_insertUnit (v : UnitRecord) (us : List UnitRecord) (g : UnitRecord → Int) :
    ((insertUnit v us).map g).sum = (us.map g).sum + g v := by
  induction us with
  | nil => simp [insertUnit]
  | cons w us ih => simp only [insertUnit]; split <;> simp [ih] <;> omega

/-- A record changes, and the accounts by what the change makes of its share. -/
theorem Balanced.change {s u : State} {out out' : List Ref} (hs : Balanced out s) {ref : Ref} {v : UnitRecord}
    {f : UnitRecord → UnitRecord} (hf : KeepsRef f) (hv : s.unit? ref = some v) (hu : u.units = (s.modUnit ref f).units)
    (hl : ∀ l, u.laneFixed l = s.laneFixed l)
    (ha : ∀ a, u.stb.account a = s.stb.account a + ((f v).share s.laneFixed a - v.share s.laneFixed a))
    (hsited : ref ∉ out' → (f v).Sited) (hout : ∀ q ∈ out, q ≠ ref → q ∈ out') : Balanced out' u where
  rise := hu ▸ unitsRise_map _ (keepsRef_at hf ref) hs.rise
  sums a := by rw [ha, hs.sums, hu, funext hl, sum_modUnit hs.rise hv f]
  sited w hw hq := by
    rw [hu] at hw
    obtain ⟨x, hx, rfl⟩ := List.mem_map.1 hw
    have hxu := unit_of_mem hs.rise hx
    by_cases hr : x.decl.ref = ref
    · rw [hr, hv] at hxu
      obtain rfl := Option.some.inj hxu
      simp only [hr, beq_self_eq_true, if_true, hf v] at hq ⊢
      exact hsited hq
    · simp only [hr, beq_iff_eq, if_false] at hq ⊢
      exact hs.sited x hx fun ho => hq (hout _ ho hr)

/-- A record that adds nothing more, nor less, afterwards. -/
theorem Balanced.modUnit {s : State} {out out' : List Ref} (hs : Balanced out s) {ref : Ref} {f : UnitRecord → UnitRecord}
    (hf : KeepsRef f)
    (h : ∀ v, s.unit? ref = some v →
      (∀ a, (f v).share s.laneFixed a = v.share s.laneFixed a) ∧ (ref ∉ out' → (f v).Sited))
    (hout : ∀ q ∈ out, q ≠ ref → q ∈ out') : Balanced out' (s.modUnit ref f) := by
  cases hv : s.unit? ref with
  | some v =>
    obtain ⟨ha, hsited⟩ := h v hv
    exact hs.change hf hv rfl (fun l => by simp) (fun a => by simp [ha]) hsited hout
  | none =>
    have hne : ∀ w ∈ s.units, w.decl.ref ≠ ref := fun w hw he => by
      have := unit_of_mem hs.rise hw; rw [he, hv] at this; cases this
    have hid : (s.modUnit ref f).units = s.units :=
      (List.map_congr_left fun w hw => by simp [hne w hw]).trans (List.map_id s.units)
    refine (Balanced.same (u := s.modUnit ref f)
      { hs with sited := fun w hw hq => hs.sited w hw fun ho => hq (hout _ ho (hne w hw)) } hid ?_ ?_) <;> simp

/-- A record joins the table, and the accounts rise by its share. -/
theorem Balanced.insert {s u : State} {out : List Ref} (hs : Balanced out s) {v : UnitRecord}
    (hn : s.unit? v.decl.ref = none) (hu : u.units = insertUnit v s.units) (hl : ∀ l, u.laneFixed l = s.laneFixed l)
    (ha : ∀ a, u.stb.account a = s.stb.account a + v.share s.laneFixed a) (hsited : v.Sited) : Balanced out u where
  rise := hu ▸ unitsRise_insertUnit hs.rise hn
  sums a := by rw [ha, hs.sums, hu, funext hl, sum_insertUnit]
  sited w hw hq := by
    rw [hu] at hw
    rcases mem_insertUnit.1 hw with rfl | hw
    · exact hsited
    · exact hs.sited w hw hq

/-- A record leaves the table, and the accounts fall by its share. -/
theorem Balanced.remove {s u : State} {out : List Ref} {ref : Ref} (hs : Balanced (ref :: out) s) {v : UnitRecord}
    (hv : s.unit? ref = some v) (hu : u.units = (s.retire ref).units) (hl : ∀ l, u.laneFixed l = s.laneFixed l)
    (ha : ∀ a, u.stb.account a = s.stb.account a - v.share s.laneFixed a) : Balanced out u where
  rise := hu ▸ unitsRise_filter _ hs.rise
  sums a := by rw [ha, hs.sums, hu, funext hl, sum_retire hs.rise hv]
  sited w hw hq := by
    rw [hu] at hw
    obtain ⟨hw, hne⟩ := List.mem_filter.1 hw
    refine hs.sited w hw fun ho => ?_
    rcases List.mem_cons.1 ho with he | ho
    · simp [he] at hne
    · exact hq ho

/-- Where no record has a lane the accounts are empty, whatever the profile. -/
theorem Balanced.empty_of_laneless {s : State} {out : List Ref} (hs : Balanced out s) (hl : ∀ v ∈ s.units, v.lane = none)
    (a : Account) : s.stb.account a = 0 := by
  rw [hs.sums, List.map_congr_left (g := fun _ => 0) fun v hv => by simp [UnitRecord.share, hl v hv]]
  simp

theorem balanced_of_laneless {s : State} (hr : UnitsRise s.units) (hl : ∀ v ∈ s.units, v.lane = none ∧ v.Sited)
    (ha : ∀ a, s.stb.account a = 0) : Balanced [] s where
  rise := hr
  sums a := by
    rw [ha, List.map_congr_left (g := fun _ => 0) fun v hv => by simp [UnitRecord.share, (hl v hv).1]]
    simp
  sited v hv _ := (hl v hv).2

end Sys2Proof.Machine

namespace Sys2Proof.Machine

open Sys2Proof

/-! ## What a record adds, by its lane and status -/

section

variable {fixed : Lane → LaneFixed} {v w : UnitRecord} {l : Lane}

theorem share_of_laneless (h : v.lane = none) (a : Account) : v.share fixed a = 0 := by simp [UnitRecord.share, h]

theorem share_of_promised (hl : v.lane = some l) (ha : v.status ≠ .aboard) (a : Account) :
    v.share fixed a = promisedShare (fixed l) v.decl.weight a := by simp [UnitRecord.share, hl, ha]

theorem share_of_aboard (hl : v.lane = some l) (ha : v.status = .aboard) (a : Account) :
    v.share fixed a = aboardShare (fixed l) v.weightUsed (v.offset.getD 0) v.decl.length a := by
  simp [UnitRecord.share, hl, ha]

/-- A unit that is not ABOARD, before and after, adds its declared weight. -/
theorem share_restatus (hv : v.status ≠ .aboard) (hw : w.status ≠ .aboard) (hl : w.lane = v.lane)
    (hd : w.decl = v.decl) (a : Account) : w.share fixed a = v.share fixed a := by
  simp [UnitRecord.share, hv, hw, hl, hd]

/-- A change of a record that touches none of what it adds. -/
structure KeepsShare (f : UnitRecord → UnitRecord) : Prop where
  decl : KeepsDecl f
  status : ∀ v, (f v).status = v.status
  lane : ∀ v, (f v).lane = v.lane
  offset : ∀ v, (f v).offset = v.offset
  measured : ∀ v, (f v).measured = v.measured

theorem KeepsShare.share {f : UnitRecord → UnitRecord} (h : KeepsShare f) (v : UnitRecord) (a : Account) :
    (f v).share fixed a = v.share fixed a := by
  simp only [UnitRecord.share, UnitRecord.weightUsed, h.decl v, h.status, h.lane, h.offset, h.measured]

end

/-- The statuses without a lane (R3). -/
def Status.idle : Status → Bool
  | .booked | .unplaced | .lapsed | .held | .shutOut => true
  | .waiting | .called | .crossing | .aboard => false

theorem sited_of_idle {v : UnitRecord} (hs : v.status.idle = true) (hl : v.lane = none) : v.Sited := by
  unfold UnitRecord.Sited
  cases h : v.status <;> simp_all [Status.idle]

theorem UnitRecord.Sited.laneless {v : UnitRecord} (h : v.Sited) (hs : v.status.idle = true) : v.lane = none := by
  unfold UnitRecord.Sited at h
  cases hst : v.status <;> simp_all [Status.idle]

theorem sited_of_lane {v : UnitRecord} (hs : v.status.idle = false) (hl : v.lane ≠ none) : v.Sited := by
  unfold UnitRecord.Sited
  cases h : v.status <;> simp_all [Status.idle]

theorem UnitRecord.Sited.has_lane {v : UnitRecord} (h : v.Sited) (hs : v.status = .waiting ∨ v.status = .called) :
    v.lane ≠ none := by
  unfold UnitRecord.Sited at h
  rcases hs with hs | hs <;> simpa [hs] using h

/-! ## What the operations on the sums do to the accounts (R41, R49) -/

section

variable (s : State)

theorem account_addProvisional (l : Lane) (w : Nat) (a : Account) :
    (s.addProvisional l w).stb.account a = s.stb.account a + promisedShare (s.laneFixed l) w a := by
  cases a with
  | load d =>
    simp only [State.addProvisional, State.setStb_stb, Stability.account, getElem_addLoad, promisedShare,
      eq_comm (a := d)]
    split <;> simp_all
  | _ => simp [State.addProvisional, Stability.account, Stability.addLoad, promisedShare]

theorem account_subProvisional (l : Lane) (w : Nat) (a : Account) :
    (s.subProvisional l w).stb.account a = s.stb.account a - promisedShare (s.laneFixed l) w a := by
  cases a with
  | load d =>
    simp only [State.subProvisional, State.setStb_stb, Stability.account, getElem_addLoad, promisedShare,
      eq_comm (a := d)]
    split <;> simp_all [sub_eq_add_neg]
  | _ => simp [State.subProvisional, Stability.account, Stability.addLoad, promisedShare]

theorem account_addCommitted (l : Lane) (w o n : Nat) (a : Account) :
    (s.addCommitted l w o n).stb.account a = s.stb.account a + aboardShare (s.laneFixed l) w o n a := by
  cases a with
  | load d =>
    simp only [State.addCommitted, State.setStb_stb, Stability.account, getElem_addLoad, aboardShare,
      eq_comm (a := d)]
    split <;> simp_all
  | _ => simp [State.addCommitted, Stability.account, Stability.addLoad, aboardShare]

theorem account_subCommitted (l : Lane) (w o n : Nat) (a : Account) :
    (s.subCommitted l w o n).stb.account a = s.stb.account a - aboardShare (s.laneFixed l) w o n a := by
  cases a with
  | load d =>
    simp only [State.subCommitted, State.setStb_stb, Stability.account, getElem_addLoad, aboardShare,
      eq_comm (a := d)]
    split <;> simp_all [sub_eq_add_neg]
  | _ => simp [State.subCommitted, Stability.account, Stability.addLoad, aboardShare]

end

variable {s : State} {out : List Ref}

/-! ## Operations that leave records and accounts alone -/

theorem Balanced.modLink (hs : Balanced out s) (f : Link → Link) : Balanced out (s.modLink f) :=
  hs.same rfl rfl fun _ => rfl

theorem Balanced.fill (hs : Balanced out s) (t : Ticket) (r : Reply) : Balanced out (s.fill t r) := hs.modLink _

theorem Balanced.refuse (hs : Balanced out s) (t : Ticket) (r : Result) : Balanced out (s.refuse t r) := hs.fill t _

theorem Balanced.startTx (hs : Balanced out s) : Balanced out s.startTx := by
  rw [startTx_eq_modLink]; exact hs.modLink _

theorem Balanced.notify (hs : Balanced out s) (n : Notice) : Balanced out (s.notify n) :=
  hs.same (by simp) (by simp) (by simp)

theorem Balanced.setAlc (hs : Balanced out s) (x : Allocator) : Balanced out (s.setAlc x) :=
  hs.same rfl rfl fun _ => rfl

theorem Balanced.triggerWalk (hs : Balanced out s) : Balanced out s.triggerWalk :=
  hs.same (by simp) (by simp) (by simp)

theorem Balanced.setLane (hs : Balanced out s) (l : Lane) (x : LaneRun) : Balanced out (s.setLane l x) :=
  hs.same rfl rfl fun _ => rfl

theorem Balanced.setRamp (hs : Balanced out s) (r : Ramp) (x : RampRun) : Balanced out (s.setRamp r x) :=
  hs.same rfl rfl fun _ => rfl

theorem Balanced.setPlate (hs : Balanced out s) (r : Ramp) (x : Plate) : Balanced out (s.setPlate r x) :=
  hs.same rfl rfl fun _ => rfl

theorem Balanced.setCheckIn (hs : Balanced out s) (refs : List Ref) : Balanced out (s.setCheckIn refs) :=
  hs.same rfl rfl fun _ => rfl

theorem Balanced.setSession (hs : Balanced out s) (x : Session) : Balanced out (s.setSession x) :=
  hs.same rfl rfl fun _ => rfl

theorem Balanced.setAgeing (hs : Balanced out s) (t : Timer) : Balanced out (s.setAgeing t) :=
  hs.same rfl rfl fun _ => rfl

theorem Balanced.setRampState (hs : Balanced out s) (r : Ramp) (x : RampState) : Balanced out (s.setRampState r x) :=
  hs.same (by simp) (by simp) (by simp)

theorem Balanced.setGate (hs : Balanced out s) (r : Ramp) (g : Bool) : Balanced out (s.setGate r g) :=
  hs.same (by simp) (by simp) (by simp)

theorem Balanced.timeHead (hs : Balanced out s) (r : Ramp) : Balanced out (s.timeHead r) :=
  hs.same (by simp) (by simp) (by simp)

theorem Balanced.leaveCalled (hs : Balanced out s) (r : Ramp) (ref : Ref) : Balanced out (s.leaveCalled r ref) :=
  hs.same (by simp) (by simp) (by simp)

theorem Balanced.joinQueue (hs : Balanced out s) (r : Ramp) (p b : Bool) (ref : Ref) :
    Balanced out (s.joinQueue r p b ref) := hs.same (by simp) (by simp) (by simp)

theorem Balanced.leaveQueue (hs : Balanced out s) (r : Ramp) (ref : Ref) : Balanced out (s.leaveQueue r ref) :=
  hs.same (by simp) (by simp) (by simp)

theorem Balanced.closeRamp (hs : Balanced out s) (r : Ramp) : Balanced out (s.closeRamp r) :=
  hs.same (by simp) (by simp) (by simp)

theorem Balanced.clearPlate (hs : Balanced out s) (r : Ramp) : Balanced out (s.clearPlate r) := by
  unfold State.clearPlate
  dsimp only
  split
  · exact (hs.setPlate r _).setPlate r _
  · exact (hs.setPlate r _).closeRamp r
  · exact hs.setPlate r _

/-! ## Changes of one record -/

theorem Balanced.keeping (hs : Balanced out s) (ref : Ref) {f : UnitRecord → UnitRecord} (hf : KeepsShare f) :
    Balanced out (s.modUnit ref f) :=
  hs.modUnit hf.decl.keepsRef
    (fun v hv => ⟨hf.share v, fun hn => (hs.sitedAt hv hn).congr (hf.status v) (hf.lane v)⟩) fun _ hq _ => hq

theorem lane_of_laneOf {ref : Ref} {v : UnitRecord} {x : Option Lane} (h : laneOf s ref = x) (hv : s.unit? ref = some v) :
    v.lane = x := by simpa [laneOf, hv] using h

/-- A unit without a lane takes a status that needs none. -/
theorem Balanced.modUnit_idle {ref : Ref} (hs : Balanced (ref :: out) s) (hl : laneOf s ref = none)
    {f : UnitRecord → UnitRecord} (hf : KeepsRef f)
    (h : ∀ v, s.unit? ref = some v → (f v).lane = none ∧ (f v).status.idle = true) : Balanced out (s.modUnit ref f) :=
  hs.modUnit hf
    (fun v hv => ⟨fun a => by rw [share_of_laneless (h v hv).1, share_of_laneless (lane_of_laneOf hl hv)],
      fun _ => sited_of_idle (h v hv).2 (h v hv).1⟩)
    fun q hq hne => (List.mem_cons.1 hq).resolve_left hne

theorem Balanced.setStatus_idle {ref : Ref} (hs : Balanced (ref :: out) s) (hl : laneOf s ref = none) {x : Status}
    (hx : x.idle = true) : Balanced out (s.setStatus ref x) :=
  hs.modUnit_idle hl (fun _ => rfl) fun v hv => ⟨show v.lane = none from lane_of_laneOf hl hv, hx⟩

theorem Balanced.handOver {ref : Ref} (hs : Balanced (ref :: out) s) (hl : laneOf s ref = none) (l : Lane) :
    Balanced out (s.handOver ref l) :=
  (hs.modUnit_idle hl keepsRef_reallocatedRecord fun _ _ => ⟨rfl, rfl⟩).setAlc _

/-- A unit that keeps its lane takes a status that is not ABOARD but has one. -/
theorem Balanced.modUnit_promised (hs : Balanced out s) {ref : Ref} (hl : laneOf s ref ≠ none)
    (hn : s.statusOf ref ≠ some .aboard) {f : UnitRecord → UnitRecord} (hd : KeepsDecl f)
    (h : ∀ v, (f v).lane = v.lane ∧ (f v).status.idle = false ∧ (f v).status ≠ .aboard) :
    Balanced out (s.modUnit ref f) :=
  hs.modUnit hd.keepsRef
    (fun v hv => by
      obtain ⟨hlane, hidle, ha⟩ := h v
      have hv' : v.status ≠ .aboard := by simpa [State.statusOf, hv] using hn
      exact ⟨share_restatus hv' ha hlane (hd v), fun _ => sited_of_lane hidle (by simpa [hlane, laneOf, hv] using hl)⟩)
    fun _ hq _ => hq

theorem Balanced.retire {ref : Ref} (hs : Balanced (ref :: out) s) (hl : laneOf s ref = none) :
    Balanced out (s.retire ref) := by
  cases hv : s.unit? ref with
  | some v =>
    exact hs.remove hv rfl (by simp) fun a => by simp [share_of_laneless (lane_of_laneOf hl hv)]
  | none =>
    have hne : ∀ w ∈ s.units, w.decl.ref ≠ ref := fun w hw he => by
      have := unit_of_mem hs.rise hw; rw [he, hv] at this; cases this
    have hid : (s.retire ref).units = s.units := List.filter_eq_self.2 fun w hw => by simp [hne w hw]
    refine Balanced.same (s := s) (out := out)
      { hs with sited := fun w hw hq => hs.sited w hw (by simp [hne w hw, hq]) } hid ?_ ?_ <;> simp

/-! ## Releases (R10, R41, R49) -/

/-- The release of a unit that is not ABOARD takes its promise off the accounts. -/
theorem Balanced.release (hs : Balanced out s) {ref : Ref} (hn : s.statusOf ref ≠ some .aboard) :
    Balanced (ref :: out) (s.release ref) := by
  have hout : ∀ q ∈ out, q ∈ ref :: out := fun _ => List.mem_cons_of_mem _
  cases hv : s.unit? ref with
  | none => rw [show s.release ref = s by simp [State.release, hv]]; exact hs.mono hout
  | some v =>
    cases hl : v.lane with
    | none => rw [release_noLane hv hl]; exact hs.mono hout
    | some l =>
      have ha : v.status ≠ .aboard := by simpa [State.statusOf, hv] using hn
      rw [release_eq hv hl]
      refine hs.change (f := fun u => { u with lane := none }) (fun _ => rfl) hv ?_ ?_ (fun a => ?_)
        (fun h => absurd (List.mem_cons_self) h) fun q hq _ => hout q hq
      · simp [State.modUnit]
      · simp
      · rw [share_of_laneless rfl, share_of_promised hl ha]
        simpa [sub_eq_add_neg] using account_subProvisional (s.leaveLane l ref) l v.decl.weight a

theorem Balanced.releaseFromLane (hs : Balanced out s) (l : Lane) {ref : Ref} (hn : s.statusOf ref ≠ some .aboard) :
    Balanced (ref :: out) (s.releaseFromLane l ref) := by
  unfold State.releaseFromLane
  dsimp only
  split
  · exact (hs.release hn).leaveCalled _ _
  · exact hs.release hn

theorem Balanced.closeCalled (hs : Balanced out s) (r : Ramp) {ref : Ref} (hn : s.statusOf ref ≠ some .aboard) :
    Balanced (ref :: out) (s.closeCalled r ref) :=
  Balanced.release ((hs.leaveCalled r ref).notify _) (by simpa using hn)

@[simp] theorem statusOf_releaseFromLane (s : State) (l : Lane) (ref q : Ref) :
    (s.releaseFromLane l ref).statusOf q = s.statusOf q := by
  unfold State.releaseFromLane
  dsimp only
  split <;> simp

@[simp] theorem statusOf_closeCalled (s : State) (r : Ramp) (ref q : Ref) :
    (s.closeCalled r ref).statusOf q = s.statusOf q := by
  unfold State.closeCalled
  rw [statusOf_release]
  simp

/-- Units released one after another, none of them ABOARD. -/
theorem Balanced.foldl_release {f : State → Ref → State}
    (hf : ∀ {s out ref}, Balanced out s → s.statusOf ref ≠ some .aboard → Balanced (ref :: out) (f s ref))
    (hst : ∀ s ref q, (f s ref).statusOf q = s.statusOf q) {refs : List Ref} (hs : Balanced out s)
    (hn : ∀ ref ∈ refs, s.statusOf ref ≠ some .aboard) : Balanced (refs ++ out) (refs.foldl f s) := by
  induction refs generalizing s out with
  | nil => exact hs
  | cons ref refs ih =>
    have hb := ih (hf hs (hn ref (.head _))) fun q hq => by rw [hst]; exact hn q (.tail _ hq)
    exact hb.mono fun q => by simp only [List.mem_append, List.mem_cons]; tauto

theorem statusOf_foldl {f : State → Ref → State} (hst : ∀ s ref q, (f s ref).statusOf q = s.statusOf q)
    (refs : List Ref) (s : State) (q : Ref) : (refs.foldl f s).statusOf q = s.statusOf q := by
  induction refs generalizing s with
  | nil => rfl
  | cons ref refs ih => rw [List.foldl_cons, ih, hst]

/-- Units without a lane, each given its new status in turn. -/
theorem Balanced.foldl_settle {f : State → Ref → State} {refs : List Ref}
    (hf : ∀ {s out}, ∀ ref ∈ refs, Balanced (ref :: out) s → laneOf s ref = none → Balanced out (f s ref))
    (hl : ∀ s ref q, laneOf s q = none → laneOf (f s ref) q = none) (hs : Balanced (refs ++ out) s)
    (hn : ∀ ref ∈ refs, laneOf s ref = none) : Balanced out (refs.foldl f s) := by
  induction refs generalizing s with
  | nil => exact hs
  | cons ref refs ih =>
    exact ih (fun q hq => hf q (.tail _ hq)) (hf ref (.head _) hs (hn ref (.head _)))
      fun q hq => hl s ref q (hn q (.tail _ hq))

theorem Balanced.handOverAll {refs : List Ref} (hs : Balanced (refs ++ out) s) (hn : ∀ ref ∈ refs, laneOf s ref = none)
    (l : Lane) : Balanced out (refs.foldl (fun s ref => s.handOver ref l) s) :=
  hs.foldl_settle (fun _ _ hb hl => hb.handOver hl l) (fun _ _ _ => laneOf_handOver_none) hn

theorem Balanced.reallocateAll (hs : Balanced out s) {refs : List Ref} (hn : ∀ ref ∈ refs, s.statusOf ref ≠ some .aboard)
    (l : Lane) : Balanced out (s.reallocateAll refs l) :=
  Balanced.handOverAll (hs.foldl_release (f := fun s ref => s.release ref) (fun ht => ht.release) statusOf_release hn)
    (fun _ hr => laneless_foldl laneOf_release refs s (.inl hr)) l

theorem Balanced.uncallNotices (hs : Balanced out s) (r : Ramp) (x : UncallReason) (l : Option Lane) (refs : List Ref) :
    Balanced out (refs.foldl (fun s ref => s.uncallNotice r x l ref) s) := by
  induction refs generalizing s with
  | nil => exact hs
  | cons ref refs ih => exact ih (hs.notify _)

end Sys2Proof.Machine

namespace Sys2Proof.Machine

open Sys2Proof

variable {s : State} {out : List Ref}

/-! ## Placements (R73, R74) -/

/-- The reservation of a unit that holds none adds its promise to the accounts. -/
theorem Balanced.reserve (hs : Balanced out s) {v : UnitRecord} (hv : s.unit? v.decl.ref = some v) (hl : v.lane = none)
    (l : Lane) : Balanced out (s.reserve v l) := by
  refine hs.change (f := fun u => { u with status := .waiting, lane := some l, age := 0, mark := false })
    (fun _ => rfl) hv ?_ (by simp) (fun a => ?_) (fun _ => sited_of_lane rfl (by simp)) fun _ hq _ => hq
  · unfold State.reserve; simp [State.modUnit]
  · rw [share_of_laneless hl, share_of_promised (l := l) rfl (by simp)]
    unfold State.reserve
    simpa using account_addProvisional
      (s.setLane l { s.lane l with reservations := (s.lane l).reservations ++ [v.decl.ref] }) l v.decl.weight a

theorem Balanced.failPlacement (hs : Balanced out s) {ref : Ref} (hl : laneOf s ref = none) :
    Balanced out (s.failPlacement ref) := by
  unfold State.failPlacement
  refine Balanced.setAlc ?_ _
  exact (hs.mono fun _ => List.mem_cons_of_mem ref).modUnit_idle hl (fun _ => rfl) fun _ _ => ⟨rfl, rfl⟩

theorem Balanced.servePlacement (hs : Balanced out s) {v : UnitRecord} (hv : s.unit? v.decl.ref = some v)
    (hl : v.lane = none) (former : Option Lane) : Balanced out (s.servePlacement v former) := by
  unfold State.servePlacement
  split
  · exact hs.reserve hv hl _
  · exact hs.failPlacement (by simp [laneOf, hv, hl])

theorem Balanced.visit (hs : Balanced out s) {v : UnitRecord} (hv : s.unit? v.decl.ref = some v) (hl : v.lane = none) :
    Balanced out (s.visit v) := by
  unfold State.visit
  split
  · exact Balanced.reserve (s := s.leaveUnplaced v.decl.ref) (hs.setAlc _) hv hl _
  · exact hs

theorem Balanced.tellPlacement (hs : Balanced out s) (ref : Ref) (cause : Cause) :
    Balanced out (s.tellPlacement ref cause) := by
  cases cause with
  | checkIn t => exact hs.fill t _
  | present t => exact hs.fill t _
  | releaseHold t => exact hs.fill t _
  | reallocation former =>
    unfold State.tellPlacement
    dsimp only
    split
    · exact hs.notify _
    · exact hs

/-! ## Units that become ABOARD (R85, R136) -/

/-- The record of a unit that becomes ABOARD, with its crossing's results. -/
def boardedAt (l : Lane) (o : Nat) (x : CrossingResult) (b : Bool) (u : UnitRecord) : UnitRecord :=
  { aboardAt l o u with
    measured := x.measured, axleCount := some x.axleCount, mismatch := x.mismatch, weighFault := x.weighFault,
    redirected := b }

/-- The weight that a crossing's results give a record (R46, R130). -/
def CrossingResult.weightOf (x : CrossingResult) (v : UnitRecord) : Nat := (x.measured.map (·.weight)).getD v.decl.weight

theorem weightUsed_boardedAt (l : Lane) (o : Nat) (x : CrossingResult) (b : Bool) (v : UnitRecord) :
    (boardedAt l o x b v).weightUsed = x.weightOf v := by
  unfold UnitRecord.weightUsed CrossingResult.weightOf boardedAt
  cases x.measured <;> rfl

theorem board_records (s : State) (v : UnitRecord) (l : Lane) (o w : Nat) (x : CrossingResult) (b : Bool) :
    (s.board v l o w x b).units = (s.modUnit v.decl.ref (boardedAt l o x b)).units := by
  rw [board_eq]
  simp only [State.refill_frame, State.writeCrossing, State.modUnit, State.setUnits_units, State.addCommitted_frame,
    State.joinOccupants_frame, List.map_map]
  refine List.map_congr_left fun u _ => ?_
  by_cases h : u.decl.ref = v.decl.ref <;> simp [h, aboardAt, boardedAt]

theorem account_board (s : State) (v : UnitRecord) (l : Lane) (o w : Nat) (x : CrossingResult) (b : Bool) (a : Account) :
    (s.board v l o w x b).stb.account a = s.stb.account a + aboardShare (s.laneFixed l) w o v.decl.length a := by
  rw [board_eq]
  simpa [State.writeCrossing] using account_addCommitted (s.joinOccupants l v.decl.ref o) l w o v.decl.length a

theorem share_boardedAt (fixed : Lane → LaneFixed) (l : Lane) (o : Nat) (x : CrossingResult) (b : Bool) (v : UnitRecord)
    (a : Account) : (boardedAt l o x b v).share fixed a = aboardShare (fixed l) (x.weightOf v) o v.decl.length a := by
  rw [share_of_aboard (l := l) rfl rfl, weightUsed_boardedAt]
  rfl

theorem sited_boardedAt (l : Lane) (o : Nat) (x : CrossingResult) (b : Bool) (v : UnitRecord) :
    (boardedAt l o x b v).Sited := sited_of_lane rfl (by simp [boardedAt, aboardAt])

/-- A unit without a lane becomes ABOARD with the weight that its record then gives (R85). -/
theorem Balanced.board (hs : Balanced out s) {v : UnitRecord} (hv : s.unit? v.decl.ref = some v) (hl : v.lane = none)
    (l : Lane) (o : Nat) {w : Nat} {x : CrossingResult} (hw : w = x.weightOf v) (b : Bool) :
    Balanced out (s.board v l o w x b) := by
  refine hs.change (f := boardedAt l o x b) (fun _ => rfl) hv (board_records s v l o w x b) (by simp) (fun a => ?_)
    (fun _ => sited_boardedAt l o x b v) fun _ hq _ => hq
  rw [account_board, share_boardedAt, share_of_laneless hl, hw, sub_zero]

theorem weightOf_result (p : Plate) (v : UnitRecord) (m : Bool) : (p.result v m).weightOf v = p.weightUsed v := by
  unfold CrossingResult.weightOf Plate.result Plate.measured Plate.weightUsed
  split <;> simp_all

/-- The commit exchanges the unit's promise for its weight ABOARD (R136). -/
theorem Balanced.commit (hs : Balanced out s) {v : UnitRecord} {l : Lane} (hv : s.unit? v.decl.ref = some v)
    (hl : v.lane = some l) (ha : v.status ≠ .aboard) (r : Ramp) (p : Plate) : Balanced out (s.commit r p v l) := by
  have hboard : Balanced out (((s.leaveLane l v.decl.ref).subProvisional l v.decl.weight).board v l
      (s.commitOffset l v.decl.length) (p.weightUsed v) (p.result v (s.outOfWindow r p v)) false) := by
    refine hs.change (f := boardedAt l (s.commitOffset l v.decl.length) (p.result v (s.outOfWindow r p v)) false)
      (fun _ => rfl) hv ?_ (by simp) (fun a => ?_) (fun _ => sited_boardedAt _ _ _ _ v) fun _ hq _ => hq
    · rw [board_records]; simp [State.modUnit]
    · rw [account_board, account_subProvisional, share_boardedAt, weightOf_result, share_of_promised hl ha]
      simp only [State.subProvisional_frame, State.leaveLane_frame]
      omega
  unfold State.commit
  dsimp only
  split
  · exact (hboard.notify _).triggerWalk
  · exact hboard.notify _

/-- A unit whose crossing completes is committed, or loses its lane (R135 to R138). -/
theorem Balanced.settle (hs : Balanced out s) {v : UnitRecord} (hv : s.unit? v.decl.ref = some v)
    (hx : v.status = .crossing) (r : Ramp) (p : Plate) : Balanced out (s.settle r p v) := by
  unfold State.settle
  split
  · next l hl =>
    split
    · exact hs.commit hv hl (by simp [hx]) r p
    · have hst : s.statusOf v.decl.ref = some .crossing := by simp [State.statusOf, hv, hx]
      have hrel : Balanced out (s.release v.decl.ref) :=
        (hs.release (by simp [hst])).keep_crossing fun q hq hn => by
          rw [statusOf_release, (List.mem_cons.1 hq).resolve_right hn, hst]
      exact Balanced.triggerWalk (hrel.setAlc _)
  · exact hs.setAlc _

theorem keepsShare_noShow (n : Nat) : KeepsShare fun u => { u with noShow := n } :=
  ⟨fun _ => rfl, fun _ => rfl, fun _ => rfl, fun _ => rfl, fun _ => rfl⟩

/-- The record of a unit that finds no lane after its crossing (R86, R140). -/
def heldAfter (x : CrossingResult) (u : UnitRecord) : UnitRecord :=
  { u with
    status := .held, measured := x.measured, axleCount := some x.axleCount, mismatch := x.mismatch,
    weighFault := x.weighFault, redirected := false }

theorem heldAfter_records (s : State) (ref : Ref) (x : CrossingResult) :
    ((s.setStatus ref .held).writeCrossing ref x false).units = (s.modUnit ref (heldAfter x)).units := by
  simp only [State.setStatus, State.writeCrossing, State.modUnit, State.setUnits_units, List.map_map]
  refine List.map_congr_left fun u _ => ?_
  by_cases h : u.decl.ref = ref <;> simp [h, heldAfter]

/-- A redirect search's unit holds no lane and becomes ABOARD, or is HELD (R85, R86). -/
theorem Balanced.serveRedirect (hs : Balanced out s) {v : UnitRecord} {x : Redirect} (hv : s.unit? v.decl.ref = some v)
    (hr : v.decl.ref = x.ref) (hl : v.lane = none) (hw : x.weightUsed = x.result.weightOf v) :
    Balanced out (s.serveRedirect v x) := by
  unfold State.serveRedirect
  split
  · exact (hs.board hv hl _ _ hw true).notify _
  · have hheld : Balanced out ((s.setStatus x.ref .held).writeCrossing x.ref x.result false) := by
      refine hs.change (f := heldAfter x.result) (fun _ => rfl) (hr ▸ hv) (heldAfter_records s x.ref x.result)
        (by simp [State.writeCrossing]) (fun a => ?_) (fun _ => sited_of_idle rfl hl) fun _ hq _ => hq
      have hl' : (heldAfter x.result v).lane = none := hl
      rw [share_of_laneless hl, share_of_laneless hl']
      simp [State.writeCrossing]
    exact hheld.notify _

/-! ## Calls, crossings and uncalls (R112, R117, R126) -/

theorem Balanced.setStatus_promised (hs : Balanced out s) {ref : Ref} (hl : laneOf s ref ≠ none)
    (hn : s.statusOf ref ≠ some .aboard) {x : Status} (hx : x.idle = false) (ha : x ≠ .aboard) :
    Balanced out (s.setStatus ref x) :=
  hs.modUnit_promised hl hn (fun _ => rfl) fun _ => ⟨rfl, hx, ha⟩

theorem Balanced.makeCall (hs : Balanced out s) {r : Ramp} {v : UnitRecord} {l : Lane} (hl : laneOf s v.decl.ref ≠ none)
    (hn : s.statusOf v.decl.ref ≠ some .aboard) (credit : Nat) : Balanced out (s.makeCall r v l credit) := by
  have h1 := (hs.leaveQueue r v.decl.ref).setStatus_promised (ref := v.decl.ref) (x := .called)
    (by simpa [laneOf] using hl) (by simpa using hn) rfl nofun
  unfold State.makeCall
  dsimp only
  split
  · exact ((h1.setRamp r _).notify _).timeHead r
  · exact (h1.setRamp r _).notify _

/-- A CROSSING unit's record may hold a lane or none. -/
theorem Balanced.setCrossing (hs : Balanced out s) {ref : Ref} (hn : s.statusOf ref ≠ some .aboard) :
    Balanced out (s.setStatus ref .crossing) :=
  hs.modUnit (fun _ => rfl)
    (fun v hv => ⟨share_restatus (by simpa [State.statusOf, hv] using hn) nofun rfl rfl, fun _ => sited_of_crossing rfl⟩)
    fun _ hq _ => hq

theorem Balanced.openCrossing (hs : Balanced out s) {r : Ramp}
    (hn : ∀ ref ∈ (s.ramp r).called, s.statusOf ref ≠ some .aboard) : Balanced out (s.openCrossing r) := by
  unfold State.openCrossing
  dsimp only
  split
  · next ref hhead =>
    exact ((hs.setPlate r _).setCrossing (hn ref (List.mem_of_head? hhead))).setRamp r _
  · exact (hs.setPlate r _).modLink _

theorem Balanced.returnToWaiting (hs : Balanced out s) {ref : Ref} (hl : laneOf s ref ≠ none)
    (hn : s.statusOf ref ≠ some .aboard) (r : Ramp) (back : Bool) : Balanced out (s.returnToWaiting r back ref) := by
  have h := (hs.leaveCalled r ref).modUnit_promised (ref := ref) (f := fun u => { u with status := .waiting, age := 0 })
    (by simpa [laneOf] using hl) (by simpa using hn) (fun _ => rfl) fun _ => ⟨rfl, rfl, by simp⟩
  exact h.joinQueue r _ back ref

/-- No unit becomes ABOARD by another status. -/
theorem statusOf_modUnit_ne_aboard {q : Ref} (hn : s.statusOf q ≠ some .aboard) {ref : Ref} {f : UnitRecord → UnitRecord}
    (hf : KeepsRef f) (h : ∀ v, (f v).status ≠ .aboard) : (s.modUnit ref f).statusOf q ≠ some .aboard := by
  by_cases hq : q = ref
  · subst hq
    cases hv : s.unit? q with
    | none => simp [State.statusOf, unitOf_modUnit_self s q f hf, hv]
    | some v => simpa [statusOf_modUnit_self hf hv] using h v
  · rwa [statusOf_modUnit_other s hf hq]

theorem statusOf_returnToWaiting_ne_aboard {q : Ref} (hn : s.statusOf q ≠ some .aboard) (r : Ramp) (back : Bool)
    (ref : Ref) : (s.returnToWaiting r back ref).statusOf q ≠ some .aboard := by
  have h := statusOf_modUnit_ne_aboard (s := s.leaveCalled r ref) (q := q) (ref := ref)
    (f := fun u => { u with status := .waiting, age := 0 }) (by simpa using hn) (fun _ => rfl) fun _ => by simp
  simpa [State.returnToWaiting] using h

/-- Units that go back to WAITING one after another keep their lanes (R117). -/
theorem Balanced.returnAll {refs : List Ref} (hs : Balanced out s) (r : Ramp) (back : Bool)
    (hl : ∀ ref ∈ refs, laneOf s ref ≠ none) (hn : ∀ ref ∈ refs, s.statusOf ref ≠ some .aboard) :
    Balanced out (refs.foldl (fun s f => s.returnToWaiting r back f) s) := by
  induction refs generalizing s with
  | nil => exact hs
  | cons ref refs ih =>
    refine ih (hs.returnToWaiting (hl ref (.head _)) (hn ref (.head _)) r back) (fun q hq => ?_) fun q hq => ?_
    · rw [laneOf_returnToWaiting]; exact hl q (.tail _ hq)
    · exact statusOf_returnToWaiting_ne_aboard (hn q (.tail _ hq)) r back ref

theorem returnAll_unit (s : State) (r : Ramp) (back : Bool) (refs : List Ref) (q : Ref) :
    laneOf (refs.foldl (fun s f => s.returnToWaiting r back f) s) q = laneOf s q ∧
      (s.statusOf q ≠ some .aboard →
        (refs.foldl (fun s f => s.returnToWaiting r back f) s).statusOf q ≠ some .aboard) := by
  induction refs generalizing s with
  | nil => exact ⟨rfl, id⟩
  | cons ref refs ih =>
    obtain ⟨hl, hn⟩ := ih (s.returnToWaiting r back ref)
    exact ⟨hl.trans (laneOf_returnToWaiting s r back ref q), fun h => hn (statusOf_returnToWaiting_ne_aboard h r back ref)⟩

theorem statusOf_uncallNotices (r : Ramp) (x : UncallReason) (l : Option Lane) (refs : List Ref) (s : State) (q : Ref) :
    (refs.foldl (fun s ref => s.uncallNotice r x l ref) s).statusOf q = s.statusOf q :=
  statusOf_foldl (f := fun s ref => s.uncallNotice r x l ref) (fun _ _ _ => by simp) refs s q

/-- A follower is CALLED in the lane (R117). -/
theorem follower_unit {r : Ramp} {ref q : Ref} {l : Lane} (h : q ∈ s.followers r ref l) :
    laneOf s q = some l ∧ s.statusOf q = some .called := by
  obtain ⟨-, h⟩ := List.mem_filter.1 h
  cases hu : s.unit? q with
  | none => simp [hu] at h
  | some u => simpa [hu, laneOf, State.statusOf] using h

/-- A CALLED unit and its followers return to WAITING, and in a CLOSING lane they are reallocated (R38, R117). -/
theorem Balanced.uncallToWaiting (hs : Balanced out s) {ref : Ref} {l : Lane} (hl : laneOf s ref ≠ none)
    (hn : s.statusOf ref ≠ some .aboard) (r : Ramp) (back : Bool) (reason : UncallReason) :
    Balanced out (s.uncallToWaiting r l back reason ref).1 := by
  have hf {q : Ref} (hq : q ∈ (s.followers r ref l).reverse) : laneOf s q ≠ none ∧ s.statusOf q ≠ some .aboard := by
    obtain ⟨h1, h2⟩ := follower_unit (List.mem_reverse.1 hq)
    simp [h1, h2]
  have h1 := hs.returnAll (refs := (s.followers r ref l).reverse) r false (fun _ hq => (hf hq).1) fun _ hq => (hf hq).2
  have hkeep := returnAll_unit s r false (s.followers r ref l).reverse
  have h2 := h1.returnToWaiting (ref := ref) (by rw [(hkeep ref).1]; exact hl) ((hkeep ref).2 hn) r back
  have h3 (carried : Option Lane) :=
    (h2.notify (.uncall r ref reason carried)).uncallNotices r .follower carried (s.followers r ref l)
  unfold State.uncallToWaiting
  dsimp only
  split
  · refine (h3 _).reallocateAll (fun q hq => ?_) l
    rw [statusOf_uncallNotices]
    have hq : s.statusOf q ≠ some .aboard := by
      obtain ⟨-, hq⟩ := List.mem_filter.1 hq
      rcases Bool.or_eq_true _ _ ▸ hq with hq | hq
      · rw [beq_iff_eq.1 hq]; exact hn
      · simp [(follower_unit (List.contains_iff_mem.1 hq)).2]
    simpa using statusOf_returnToWaiting_ne_aboard ((hkeep q).2 hq) r back ref
  · exact h3 _

end Sys2Proof.Machine

namespace Sys2Proof.Machine

open Sys2Proof

variable {s : State} {out : List Ref}

/-! ## Obstructions, ageing and sessions (R19, R34, R35, R165, R167) -/

/-- What an obstruction or a withdrawal does with the released units: those that are not CROSSING are handed over. -/
theorem Balanced.handOverReallocated {u : State} {refs : List Ref} (hu : Balanced refs u)
    (hst : ∀ ref ∈ refs, u.statusOf ref = s.statusOf ref) (hl : ∀ ref ∈ refs, laneOf u ref = none) (l : Lane) :
    Balanced [] ((s.reallocated refs).foldl (fun s ref => s.handOver ref l) u) := by
  refine Balanced.handOverAll (hu.keep_crossing fun q hq hn => ?_) (fun ref hr => hl ref (List.mem_filter.1 hr).1) l
  rw [hst q hq]
  by_contra hx
  exact hn (List.mem_append_left _ (List.mem_filter.2 ⟨hq, by simpa using hx⟩))

theorem Balanced.refit (hs : Balanced [] s) (l : Lane)
    (hn : ∀ ref ∈ (s.lane l).reservations, s.statusOf ref ≠ some .aboard) : Balanced [] (s.refit l).1 := by
  unfold State.refit
  dsimp only
  generalize hgone : (s.lane l).reservations.drop _ = gone
  have hmem : ∀ ref ∈ gone, ref ∈ (s.lane l).reservations := fun _ hr => List.mem_of_mem_drop (hgone ▸ hr)
  have h1 := (hs.foldl_release (f := fun s ref => s.releaseFromLane l ref) (refs := gone.reverse)
    (fun ht => ht.releaseFromLane l) (fun s => statusOf_releaseFromLane s l)
    fun ref hr => hn ref (hmem ref (List.mem_reverse.1 hr))).mono (out' := gone) fun q hq => by simpa using hq
  have h2 := h1.uncallNotices (s.laneFixed l).ramp .released none (s.withStatus .called gone)
  have h3 := h2.handOverReallocated (s := s) (fun ref _ => ?_) (fun ref hr => ?_) l
  · split
    · exact h3
    · exact h3.triggerWalk
  · rw [statusOf_uncallNotices]
    exact statusOf_foldl (f := fun s ref => s.releaseFromLane l ref) (fun s => statusOf_releaseFromLane s l) _ s ref
  · rw [laneOf_uncallNotices]
    exact laneless_foldl (fun s ref q => laneOf_releaseFromLane l ref q) _ s (.inl (List.mem_reverse.2 hr))

/-- One release of a withdrawal, with its UNCALL notice (R35). -/
def State.withdrawUnit (l : Lane) (s s' : State) (ref : Ref) : State :=
  let s'' := s'.releaseFromLane l ref
  if s'.statusOf ref = some .called then s''.uncallNotice (s.laneFixed l).ramp .released none ref else s''

theorem Balanced.withdrawUnit {u : State} (hu : Balanced out u) (l : Lane) (s : State) {ref : Ref}
    (hn : u.statusOf ref ≠ some .aboard) : Balanced (ref :: out) (s.withdrawUnit l u ref) := by
  unfold State.withdrawUnit
  dsimp only
  split
  · exact (hu.releaseFromLane l hn).notify _
  · exact hu.releaseFromLane l hn

theorem withdrawUnit_unit (l : Lane) (s u : State) (ref q : Ref) :
    (s.withdrawUnit l u ref).statusOf q = u.statusOf q ∧
      laneOf (s.withdrawUnit l u ref) q = if q = ref then none else laneOf u q := by
  unfold State.withdrawUnit
  dsimp only
  split
  · exact ⟨by simp, (laneOf_uncallNotice _ _ _ _ _).trans (laneOf_releaseFromLane l ref q)⟩
  · exact ⟨by simp, laneOf_releaseFromLane l ref q⟩

theorem Balanced.withdraw (hs : Balanced [] s) (l : Lane)
    (hn : ∀ ref ∈ (s.lane l).reservations, s.statusOf ref ≠ some .aboard) : Balanced [] (s.withdraw l).1 := by
  unfold State.withdraw
  split
  · exact hs
  · have h1 : Balanced [] ((s.setLane l { s.lane l with state := .withdrawn }).notify
        (.laneWithdrawn l (s.laneFixed l).deck)) := (hs.setLane l _).notify _
    have hst (ref : Ref) : ((s.setLane l { s.lane l with state := .withdrawn }).notify
        (.laneWithdrawn l (s.laneFixed l).deck)).statusOf ref = s.statusOf ref := by simp
    have h2 := (h1.foldl_release (f := s.withdrawUnit l) (fun ht => ht.withdrawUnit l s)
      (fun t ref q => (withdrawUnit_unit l s t ref q).1) fun ref hr => by rw [hst]; exact hn ref hr).mono
        (out' := (s.lane l).reservations) fun q hq => by simpa using hq
    exact h2.handOverReallocated
      (fun ref _ => (statusOf_foldl (fun t ref q => (withdrawUnit_unit l s t ref q).1) _ _ ref).trans (hst ref))
      (fun ref hr => laneless_foldl (fun t ref q => (withdrawUnit_unit l s t ref q).2) _ _ (.inl hr)) l

theorem Balanced.lapse (hs : Balanced out s) {ref : Ref} (hn : s.statusOf ref ≠ some .aboard) :
    Balanced out (s.lapse ref) :=
  (hs.release hn).setStatus_idle (by simp [laneOf_release]) rfl

theorem Balanced.lapseAll {refs : List Ref} (hs : Balanced out s) (hn : ∀ ref ∈ refs, s.statusOf ref ≠ some .aboard) :
    Balanced out (refs.foldl State.lapse s) := by
  induction refs generalizing s with
  | nil => exact hs
  | cons ref refs ih =>
    refine ih (hs.lapse (hn ref (.head _))) fun q hq => ?_
    exact statusOf_modUnit_ne_aboard (by simpa using hn q (.tail _ hq)) (fun _ => rfl) fun _ => by simp

theorem keepsShare_aged : KeepsShare UnitRecord.aged where
  decl := aged_decl
  status := aged_status
  lane := aged_lane
  offset v := by unfold UnitRecord.aged; split <;> rfl
  measured v := by unfold UnitRecord.aged; split <;> rfl

theorem Balanced.ageAll (hs : Balanced out s) : Balanced out s.ageAll where
  rise := by rw [units_ageAll]; exact unitsRise_map _ keepsShare_aged.decl.keepsRef hs.rise
  sums a := by
    have hx : s.ageAll.stb = s.stb := rfl
    have hl : s.ageAll.laneFixed = s.laneFixed := rfl
    rw [hx, hs.sums, units_ageAll, List.map_map, hl]
    exact congrArg List.sum (List.map_congr_left fun v _ => (keepsShare_aged.share v a).symm)
  sited v hv hq := by
    rw [units_ageAll] at hv
    obtain ⟨w, hw, rfl⟩ := List.mem_map.1 hv
    rw [aged_decl] at hq
    exact (hs.sited w hw hq).congr (aged_status w) (aged_lane w)

theorem Balanced.shutOut (hs : Balanced out s) {ref : Ref} (hd : Dismissible s ref) : Balanced out (s.shutOut ref) := by
  have hf : KeepsRef fun u => { u with status := .shutOut, lane := none } := fun _ => rfl
  have hwide : ∀ q ∈ out, q ∈ ref :: out := fun _ => List.mem_cons_of_mem _
  unfold State.shutOut
  dsimp only
  split
  · next h => exact (hs.release (by simp [h])).modUnit_idle (by simp [laneOf_release]) hf fun _ _ => ⟨rfl, rfl⟩
  · next h =>
    exact Balanced.modUnit_idle (s := s.leaveUnplaced ref) ((hs.setAlc _).mono hwide)
      (by simpa [laneOf] using hd.resolve_left (by simp [h])) hf fun _ _ => ⟨rfl, rfl⟩
  · next h _ => exact (hs.mono hwide).modUnit_idle (hd.resolve_left h) hf fun _ _ => ⟨rfl, rfl⟩

theorem dismissible_shutOut {ref q : Ref} (hq : Dismissible s q) : Dismissible (s.shutOut ref) q := by
  obtain ⟨hl, hst⟩ := shutOut_unit s ref q
  by_cases he : q = ref
  · exact .inr (hl.trans (if_pos he))
  · exact hq.imp (fun h => (hst he).trans h) fun h => by rw [hl, if_neg he, h]

theorem Balanced.shutOutAll {refs : List Ref} (hs : Balanced out s) (hd : ∀ ref ∈ refs, Dismissible s ref) :
    Balanced out (refs.foldl State.shutOut s) := by
  induction refs generalizing s with
  | nil => exact hs
  | cons ref refs ih => exact ih (hs.shutOut (hd ref (.head _))) fun q hq => dismissible_shutOut (hd q (.tail _ hq))

theorem Balanced.unplaceAgain {refs : List Ref} (hs : Balanced out s) (hl : ∀ ref ∈ refs, laneOf s ref = none) :
    Balanced out (refs.foldl (fun s ref => (s.setStatus ref .unplaced).joinUnplaced ref) s) := by
  induction refs generalizing s with
  | nil => exact hs
  | cons ref refs ih =>
    refine ih ?_ fun q hq => ?_
    · exact ((hs.mono fun _ => List.mem_cons_of_mem ref).setStatus_idle (hl ref (.head _)) rfl).setAlc _
    · exact (laneOf_setStatus s ref q .unplaced).trans (hl q (.tail _ hq))

theorem Balanced.secureRamp (hs : Balanced out s) (r : Ramp) : Balanced out (s.secureRamp r) :=
  (((hs.setRampState r .closed).setGate r false).setRamp r _).setPlate r _

end Sys2Proof.Machine

namespace Sys2Proof.Machine

open Sys2Proof

/-! ## What the law says of the units that a step takes up -/

theorem statusOf_eq {s : State} {ref : Ref} {v : UnitRecord} (hv : s.unit? ref = some v) :
    s.statusOf ref = some v.status := by simp [State.statusOf, hv]

theorem ReservationLaw.reserved_notAboard {s : State} (h : ReservationLaw s) {l : Lane} {ref : Ref}
    (hr : ref ∈ (s.lane l).reservations) : s.statusOf ref ≠ some .aboard := by
  obtain ⟨v, hv, -, hst⟩ := h.reserved hr
  rw [statusOf_eq hv]
  rcases hst with hst | hst | hst <;> simp [hst]

theorem ReservationLaw.called_notAboard {s : State} (h : ReservationLaw s) {r : Ramp} {ref : Ref}
    (hr : ref ∈ (s.ramp r).called) : s.statusOf ref ≠ some .aboard := by
  obtain ⟨v, hv, ⟨hst, -⟩ | ⟨hst, -⟩⟩ := h.calledUnit hr <;> simp [statusOf_eq hv, hst]

theorem SumsReady.unit_sited {s : State} (h : SumsReady s) {ref : Ref} {v : UnitRecord} (hv : s.unit? ref = some v) :
    v.Sited := h.law.sited v (unit_mem hv)

/-- A unit that waits to be placed holds no lane (R62). -/
theorem ReservationLaw.placement_laneless {s : State} (h : ReservationLaw s) {ref : Ref} {cause : Cause}
    (hm : .placement ref cause ∈ s.alc.service) {v : UnitRecord} (hv : s.unit? ref = some v) : v.lane = none := by
  obtain ⟨-, -, -, -, hserv, -⟩ := id h
  have hfit := hserv _ hm
  refine (h.sited v (unit_mem hv)).laneless ?_
  cases cause <;>
  · obtain ⟨w, hw, hp⟩ := unitIs_iff.1 hfit
    obtain rfl := Option.some.inj (hv.symm.trans hw)
    simp only [Bool.and_eq_true, decide_eq_true_eq] at hp
    rw [hp.2]
    rfl

/-- The units of a walk hold no lane (R75, R78). -/
theorem ReservationLaw.walk_laneless {s : State} (h : ReservationLaw s) {ref : Ref} (hm : ref ∈ s.alc.walk)
    {v : UnitRecord} (hv : s.unit? ref = some v) : v.lane = none := by
  obtain ⟨-, -, -, -, -, -, -, hunplaced, hwalk, -⟩ := id h
  obtain ⟨w, hw, hp⟩ := unitIs_iff.1 (hunplaced ref (hwalk.subset hm))
  obtain rfl := Option.some.inj (hv.symm.trans hw)
  simp only [Bool.and_eq_true, decide_eq_true_eq] at hp
  exact (h.sited v (unit_mem hv)).laneless (by rw [hp.1]; rfl)

/-- A unit that waits for a redirect search holds no lane, and the item carries the weight of its crossing (R83). -/
theorem ReservationLaw.redirect_unit {s : State} (h : ReservationLaw s) {x : Redirect}
    (hm : .redirect x ∈ s.alc.service) {v : UnitRecord} (hv : s.unit? x.ref = some v) :
    v.lane = none ∧ x.weightUsed = x.result.weightOf v := by
  obtain ⟨-, -, -, -, hserv, -⟩ := h
  have hfit := hserv _ hm
  simp only [itemFits, Bool.and_eq_true] at hfit
  obtain ⟨⟨hunit, -⟩, -⟩ := hfit
  obtain ⟨w, hw, hp⟩ := unitIs_iff.1 hunit
  obtain rfl := Option.some.inj (hv.symm.trans hw)
  simp only [Bool.and_eq_true, decide_eq_true_eq] at hp
  obtain ⟨⟨-, hl⟩, hweight⟩ := hp
  exact ⟨hl, hweight⟩

/-! ## Steps' ends, and the request handler -/

theorem balanced_finish {v u : State} (h : Balanced [] v) (hu : finish v = .next u) : Balanced [] u := by
  cases hu; exact h.startTx

theorem balanced_notNow {s u : State} (h : Balanced [] s) (hu : notNow s = .next u) : Balanced [] u := by
  cases hu; exact h

/-- A request's row keeps the sums when its owner does. -/
theorem balanced_handle {α : Type} {k : RequestKind} {parse : State → List Byte → Option α}
    {deckOf : State → α → Option Deck} {owner : Ticket → α → State → State} {s u : State} (hs : SumsReady s)
    (ho : ∀ t req v, SumsReady v → admits v.session k = true → Balanced [] (owner t req v))
    (h : handle k parse deckOf owner s = .next u) : Balanced [] u := by
  obtain rfl | ⟨f, rest, -, ⟨r, rfl⟩ | ⟨req, -, ha, rfl⟩⟩ := handle_next h
  · exact hs.balanced
  · exact ((hs.balanced.modLink _).fill f.ticket _).startTx
  · have hv : SumsReady (s.taken f rest) := ⟨hs.law, hs.sums⟩
    exact (ho f.ticket req _ hv ha).startTx

theorem balanced_withUnit {s : State} {b : Bool} {t : Ticket} {ref : Ref} {go : UnitRecord → State} (hs : Balanced [] s)
    (h : ∀ u, s.unit? ref = some u → Balanced [] (go u)) : Balanced [] (s.withUnit b t ref go) := by
  unfold State.withUnit
  split
  · exact hs.refuse t _
  · next u hu =>
    split
    · exact hs.refuse t _
    · exact h u hu

variable {s : State}

theorem Balanced.widen {out : List Ref} (hs : Balanced out s) (ref : Ref) : Balanced (ref :: out) s :=
  hs.mono fun _ => List.mem_cons_of_mem ref

/-- A change of the record of a unit without a lane that keeps lane and status. -/
theorem Balanced.modUnit_laneless {out : List Ref} (hs : Balanced out s) {ref : Ref} (hl : laneOf s ref = none)
    {f : UnitRecord → UnitRecord} (hf : KeepsRef f) (h : ∀ v, (f v).lane = v.lane ∧ (f v).status = v.status) :
    Balanced out (s.modUnit ref f) :=
  hs.modUnit hf
    (fun v hv => by
      have hv' := lane_of_laneOf hl hv
      exact ⟨fun a => by rw [share_of_laneless hv', share_of_laneless ((h v).1.trans hv')],
        fun hn => (hs.sitedAt hv hn).congr (h v).2 (h v).1⟩)
    fun _ hq _ => hq

theorem laneOf_of_unit {ref : Ref} {v : UnitRecord} (hv : s.unit? ref = some v) : laneOf s ref = v.lane := by
  simp [laneOf, hv]

/-! ## The Unit Table's requests (R8 to R16) -/

theorem sited_booked (d : Declared) : d.booked.Sited := sited_of_idle rfl rfl

theorem balanced_ownBook (hs : SumsReady s) (t : Ticket) (d : Declared) : Balanced [] (ownBook t d s) := by
  unfold ownBook
  split_ifs with hdup hfull
  · exact hs.balanced.refuse t _
  · exact hs.balanced.refuse t _
  · have hn : s.unit? d.booked.decl.ref = none := Option.not_isSome_iff_eq_none.1 hdup
    have h1 : Balanced [] (s.addUnit d.booked) :=
      hs.balanced.insert hn rfl (fun _ => rfl)
        (fun a => by rw [share_of_laneless (v := d.booked) rfl, add_zero]; rfl) (sited_booked d)
    exact h1.fill t _

theorem balanced_ownAmend (hs : SumsReady s) (t : Ticket) (q : Ref × Declared) : Balanced [] (ownAmend t q s) :=
  balanced_withUnit hs.balanced fun u hu => by
    split_ifs with hr hb
    · exact hs.balanced.refuse t _
    · have hl : laneOf s q.1 = none := (laneOf_of_unit hu).trans ((hs.unit_sited hu).laneless (by rw [hb]; rfl))
      rw [modUnit_decl_eq s (not_not.1 hr)]
      refine Balanced.fill ?_ t _
      exact hs.balanced.modUnit_laneless hl (fun _ => rfl) fun _ => ⟨rfl, rfl⟩
    · exact hs.balanced.refuse t _

theorem balanced_ownCancel (hs : SumsReady s) (t : Ticket) (ref : Ref) : Balanced [] (ownCancel t ref s) :=
  balanced_withUnit hs.balanced fun u hu => by
    have gone (h : u.status.idle = true) : laneOf s ref = none :=
      (laneOf_of_unit hu).trans ((hs.unit_sited hu).laneless h)
    have retired (h : u.status.idle = true) : Balanced [] ((s.retire ref).fill t .done) :=
      ((hs.balanced.widen ref).retire (gone h)).fill t _
    split
    case h_5 h =>
      exact ((hs.balanced.release (by simp [statusOf_eq hu, h])).retire (by simp [laneOf_release])).triggerWalk.fill t _
    case h_6 h =>
      refine Balanced.fill ?_ t _
      exact Balanced.retire (s := s.leaveUnplaced ref) ((hs.balanced.setAlc _).widen ref)
        (by simpa [laneOf] using gone (by rw [h]; rfl))
    case h_7 | h_8 | h_9 => exact hs.balanced.refuse t _
    all_goals next h => exact retired (by rw [h]; rfl)

theorem Balanced.handFresh {out : List Ref} (hs : Balanced out s) (ref : Ref) (cause : Cause) :
    Balanced out (s.handFresh ref cause) := by
  unfold State.handFresh
  refine Balanced.setAlc ?_ _
  exact hs.keeping ref ⟨fun _ => rfl, fun _ => rfl, fun _ => rfl, fun _ => rfl, fun _ => rfl⟩

theorem balanced_ownCheckIn (hs : SumsReady s) (t : Ticket) (q : Ref × Option Nat) : Balanced [] (ownCheckIn t q s) :=
  balanced_withUnit hs.balanced fun u hu => by
    split_ifs with hb
    · have hl : laneOf s q.1 = none := (laneOf_of_unit hu).trans ((hs.unit_sited hu).laneless (by rw [hb]; rfl))
      have h1 : Balanced [] (s.modUnit q.1 fun u =>
          { u with decl := { u.decl with length := q.2.getD u.decl.length }, gate := some t.stn.toNat }) :=
        hs.balanced.modUnit_laneless hl (fun _ => rfl) fun _ => ⟨rfl, rfl⟩
      exact (h1.setCheckIn _).handFresh _ _
    · exact hs.balanced.refuse t _

theorem balanced_ownPresent (hs : SumsReady s) (t : Ticket) (ref : Ref) : Balanced [] (ownPresent t ref s) :=
  balanced_withUnit hs.balanced fun u _ => by
    split
    · have h1 : Balanced [] (s.modUnit ref fun u => { u with age := 0 }) :=
        hs.balanced.keeping ref ⟨fun _ => rfl, fun _ => rfl, fun _ => rfl, fun _ => rfl, fun _ => rfl⟩
      exact h1.fill t _
    · exact hs.balanced.handFresh ref _
    all_goals exact hs.balanced.refuse t _

theorem balanced_ownHoldUnit (hs : SumsReady s) (t : Ticket) (ref : Ref) : Balanced [] (ownHoldUnit t ref s) :=
  balanced_withUnit hs.balanced fun u hu => by
    have released (h : u.status ≠ .aboard) : Balanced [] ((s.release ref).setStatus ref .held) :=
      (hs.balanced.release (by simpa [statusOf_eq hu] using h)).setStatus_idle (by simp [laneOf_release]) rfl
    have gone (h : u.status.idle = true) : laneOf s ref = none :=
      (laneOf_of_unit hu).trans ((hs.unit_sited hu).laneless h)
    split
    · next h => exact (released (by simp [h])).triggerWalk.fill t _
    · next h =>
      refine Balanced.fill ?_ t _
      exact Balanced.setStatus_idle (s := s.leaveUnplaced ref) ((hs.balanced.setAlc _).widen ref)
        (by simpa [laneOf] using gone (by rw [h]; rfl)) rfl
    · next h => exact ((hs.balanced.widen ref).setStatus_idle (gone (by rw [h]; rfl)) rfl).fill t _
    · next h => exact ((((released (by simp [h])).leaveCalled _ ref).notify _).triggerWalk).fill t _
    all_goals exact hs.balanced.refuse t _

theorem balanced_ownReleaseHold (hs : SumsReady s) (t : Ticket) (ref : Ref) : Balanced [] (ownReleaseHold t ref s) :=
  balanced_withUnit hs.balanced fun u _ => by
    split_ifs
    · exact (hs.balanced.keeping ref (keepsShare_noShow 0)).handFresh ref _
    · exact hs.balanced.refuse t _

/-! ## Through cargo (R155, R156, R159) -/

theorem balanced_ownPlace (hs : SumsReady s) (t : Ticket) (q : PlaceRequest) : Balanced [] (ownPlace t q s) := by
  unfold ownPlace
  split
  · exact hs.balanced.refuse t _
  · next h =>
    obtain ⟨hn, -⟩ := placeRefusal_eq_none s h
    refine Balanced.fill (hs.balanced.insert (v := s.placedRecord q) hn ?_ ?_ (fun a => ?_)
      (sited_of_lane rfl (by simp [State.placedRecord]))) t _
    · unfold State.placeUnit; simp [State.addUnit]
    · unfold State.placeUnit; simp
    · have hshare : (s.placedRecord q).share s.laneFixed a = aboardShare (s.laneFixed q.lane) q.weight q.offset q.length a :=
        share_of_aboard (l := q.lane) rfl rfl a
      rw [hshare]
      unfold State.placeUnit
      simpa using account_addCommitted ((s.addUnit (s.placedRecord q)).setLane q.lane
        { s.lane q.lane with
          occupants := insertOccupant { ref := q.ref, offset := q.offset } (s.lane q.lane).occupants })
        q.lane q.weight q.offset q.length a

theorem balanced_dischargeUnit (hs : SumsReady s) {v : UnitRecord} {l : Lane} {offset : Nat}
    (hv : s.unit? v.decl.ref = some v) (ha : v.status = .aboard) (hl : v.lane = some l) (ho : v.offset = some offset) :
    Balanced [] (s.dischargeUnit v l offset) := by
  refine (hs.balanced.widen v.decl.ref).remove hv ?_ ?_ fun a => ?_
  · unfold State.dischargeUnit; simp [State.retire]
  · unfold State.dischargeUnit; simp
  · rw [share_of_aboard hl ha, ho]
    unfold State.dischargeUnit
    simpa using account_subCommitted s l v.weightUsed offset v.decl.length a

theorem balanced_ownDischarge (hs : SumsReady s) (t : Ticket) (ref : Ref) : Balanced [] (ownDischarge t ref s) :=
  balanced_withUnit hs.balanced fun u hu => by
    split
    · next l offset ha hl ho =>
      split
      · exact hs.balanced.refuse t _
      · exact ((balanced_dischargeUnit hs (by rw [unit_ref hu]; exact hu) ha hl ho).fill t _).triggerWalk
    · exact hs.balanced.refuse t _

/-! ## Lanes and ramps (R33 to R39, R105 to R108, R118) -/

theorem balanced_ownObstructionAdd (hs : SumsReady s) (t : Ticket) (q : SpanRequest) :
    Balanced [] (ownObstructionAdd t q s) := by
  have hn : ∀ ref ∈ (s.lane q.lane).reservations, s.statusOf ref ≠ some .aboard :=
    fun _ hr => hs.law.reserved_notAboard hr
  unfold ownObstructionAdd
  dsimp only
  split_ifs
  · exact hs.balanced.refuse t _
  · exact ((hs.balanced.setLane q.lane _).refit q.lane (by simpa using hn)).fill t _
  · exact (hs.balanced.withdraw q.lane hn).fill t _

theorem balanced_ownObstructionClear (hs : Balanced [] s) (t : Ticket) (q : SpanRequest) :
    Balanced [] (ownObstructionClear t q s) := by
  unfold ownObstructionClear
  dsimp only
  split_ifs
  · exact (hs.setLane q.lane _).triggerWalk.fill t _
  · exact hs.refuse t _

theorem balanced_ownLaneClose (hs : SumsReady s) (t : Ticket) (l : Lane) : Balanced [] (ownLaneClose t l s) := by
  unfold ownLaneClose
  dsimp only
  split
  · have h1 := (hs.balanced.setLane l { s.lane l with state := .closing }).reallocateAll
      (refs := s.withStatus .waiting (s.lane l).reservations)
      (fun ref hr => by simpa using hs.law.reserved_notAboard (List.mem_filter.1 hr).1) l
    split
    · exact (h1.setLane l _).fill t _
    · exact h1.fill t _
  · exact hs.balanced.refuse t _

theorem balanced_ownLaneOpen (hs : Balanced [] s) (t : Ticket) (l : Lane) : Balanced [] (ownLaneOpen t l s) := by
  unfold ownLaneOpen
  dsimp only
  split
  · exact hs.refuse t _
  · exact (hs.setLane l _).triggerWalk.fill t _

theorem balanced_ownRampOpen (hs : Balanced [] s) (t : Ticket) (r : Ramp) : Balanced [] (ownRampOpen t r s) := by
  unfold ownRampOpen
  dsimp only
  split
  · exact (((hs.setRampState r .opened).setRamp r _).setPlate r _).triggerWalk.fill t _
  · exact hs.refuse t _

theorem balanced_ownSetRamp (hs : Balanced [] s) (t : Ticket) (q : RampSettings) : Balanced [] (ownSetRamp t q s) := by
  unfold ownSetRamp
  exact (hs.setRamp q.ramp _).fill t _

theorem Balanced.handOverFrom {out refs : List Ref} {lanes : Ref → Option Lane} (hs : Balanced (refs ++ out) s)
    (hlanes : ∀ ref ∈ refs, lanes ref ≠ none) (hn : ∀ ref ∈ refs, laneOf s ref = none) :
    Balanced out (refs.foldl (Machine.handOverFrom lanes) s) := by
  refine hs.foldl_settle (fun ref hr hb hl => ?_) (fun t ref q hq => ?_) hn <;> unfold Machine.handOverFrom <;> split
  · exact hb.handOver hl _
  · next hx => exact absurd hx (hlanes ref hr)
  · exact laneOf_handOver_none hq
  · exact hq

/-- A CALLED or queued unit's record holds a lane (R103, R104). -/
theorem SumsReady.lane_of_waiting_or_called (hs : SumsReady s) {ref : Ref}
    (h : s.statusOf ref = some .waiting ∨ s.statusOf ref = some .called) : laneOf s ref ≠ none := by
  obtain ⟨v, hv, hst⟩ : ∃ v, s.unit? ref = some v ∧ (v.status = .waiting ∨ v.status = .called) := by
    cases hv : s.unit? ref with
    | none => simp [State.statusOf, hv] at h
    | some v => exact ⟨v, rfl, by simpa [State.statusOf, hv] using h⟩
  rw [laneOf_of_unit hv]
  exact (hs.unit_sited hv).has_lane hst

theorem balanced_ownRampClose (hs : SumsReady s) (t : Ticket) (r : Ramp) : Balanced [] (ownRampClose t r s) := by
  unfold ownRampClose
  dsimp only
  split
  · have hcalled : ∀ ref ∈ s.withStatus .called (s.ramp r).called, s.statusOf ref = some .called :=
      fun ref hr => by simpa using (List.mem_filter.1 hr).2
    have hqueued : ∀ ref ∈ (s.ramp r).prio ++ (s.ramp r).ord, s.statusOf ref = some .waiting := fun ref hr => by
      obtain ⟨v, hv, hst⟩ := hs.law.queued_waits (List.mem_append.1 hr)
      rw [statusOf_eq hv, hst]
    generalize s.withStatus .called (s.ramp r).called = called at hcalled ⊢
    generalize (s.ramp r).prio ++ (s.ramp r).ord = queued at hqueued ⊢
    have h2 : Balanced [] ((s.setRampState r .closing).setRamp r
        { (s.setRampState r .closing).ramp r with intervalTimer := none, callTimer := none }) :=
      (hs.balanced.setRampState r .closing).setRamp r _
    have hst : ∀ q, ((s.setRampState r .closing).setRamp r
        { (s.setRampState r .closing).ramp r with intervalTimer := none, callTimer := none }).statusOf q =
          s.statusOf q := by simp
    generalize (s.setRampState r .closing).setRamp r
      { (s.setRampState r .closing).ramp r with intervalTimer := none, callTimer := none } = v at h2 hst ⊢
    have h3 := h2.foldl_release (f := fun s ref => s.closeCalled r ref) (refs := called) (fun ht => ht.closeCalled r)
      (fun s => statusOf_closeCalled s r) fun ref hr => by simp [hst, hcalled ref hr]
    have h4 := h3.foldl_release (f := fun s ref => s.release ref) (refs := queued) (fun ht => ht.release)
      statusOf_release fun ref hr => by
        rw [statusOf_foldl (f := fun s ref => s.closeCalled r ref) (fun s => statusOf_closeCalled s r), hst,
          hqueued ref hr]
        simp
    have h5 := Balanced.handOverFrom (lanes := laneOf s) (refs := called ++ queued) (out := [])
      (h4.mono fun q => by simp only [List.mem_append]; tauto)
      (fun ref hr => hs.lane_of_waiting_or_called
        ((List.mem_append.1 hr).symm.imp (hqueued ref) (hcalled ref)))
      fun ref hr => laneless_foldl (f := fun s ref => s.release ref) laneOf_release queued _
        ((List.mem_append.1 hr).imp_left fun hc => laneless_foldl (f := fun s ref => s.closeCalled r ref)
          (fun s ref q => laneOf_closeCalled s r ref q) called v (.inl hc)).symm
    split
    · exact (h5.closeRamp r).fill t _
    · exact h5.fill t _
  · exact hs.balanced.refuse t _

theorem balanced_ownSkip (hs : SumsReady s) (t : Ticket) (ref : Ref) : Balanced [] (ownSkip t ref s) :=
  balanced_withUnit hs.balanced fun u hu => by
    split
    · next hc =>
      split
      · next l hl =>
        exact (hs.balanced.uncallToWaiting (by simp [laneOf_of_unit hu, hl]) (by simp [statusOf_eq hu, hc]) _ false
          .skipped).fill t _
      · exact hs.balanced.refuse t _
    all_goals exact hs.balanced.refuse t _

/-- The ballast offsets are no account. -/
theorem balanced_ownSetBallast (hs : Balanced [] s) (t : Ticket) (q : Int × Int) : Balanced [] (ownSetBallast t q s) := by
  have h1 : Balanced [] (s.setStb { s.stb with bl := clampBallast q.1, bt := clampBallast q.2 }) :=
    hs.congr rfl (fun a => by cases a <;> rfl) fun _ => rfl
  unfold ownSetBallast
  exact (h1.fill t _).triggerWalk

end Sys2Proof.Machine

namespace Sys2Proof.Machine

open Sys2Proof

variable {s : State}

/-! ## Sessions, loads and the Profile Store (R161 to R168, R182 to R187) -/

/-- BOOKED records hold no lane. -/
theorem laneless_of_all_booked (hs : ReservationLaw s) (hb : ∀ v ∈ s.units, v.status = .booked) :
    ∀ v ∈ s.units, v.lane = none ∧ v.Sited := fun v hv =>
  ⟨(hs.sited v hv).laneless (by rw [hb v hv]; rfl), hs.sited v hv⟩

/-- Where every record is BOOKED the accounts are empty, whatever the profile becomes. -/
theorem balanced_of_new_profile {u : State} (hs : SumsReady s) (ha : s.session ≠ .alongside)
    (hsec : s.session ≠ .secured) (hu : u.units = s.units) (hx : u.stb = s.stb) : Balanced [] u := by
  have hl := laneless_of_all_booked hs.law (hs.law.all_booked ha hsec)
  exact balanced_of_laneless (hu ▸ hs.law.rise) (hu ▸ hl)
    fun a => by rw [hx]; exact hs.balanced.empty_of_laneless (fun v hv => (hl v hv).1) a

theorem account_reset (a : Account) : Stability.reset.account a = 0 := by
  cases a <;> simp [Stability.account, Stability.reset]

theorem Balanced.forDecks {f : Deck → State → State} (hf : ∀ d s, Balanced [] s → Balanced [] (f d s))
    (hs : Balanced [] s) : Balanced [] (s.forDecks f) := by
  unfold State.forDecks
  generalize allDecks = ds
  induction ds generalizing s with
  | nil => exact hs
  | cons d ds ih => exact ih (hf d s hs)

theorem Balanced.forRamps {f : Ramp → State → State} (hf : ∀ r s, Balanced [] s → Balanced [] (f r s))
    (hs : Balanced [] s) : Balanced [] (s.forRamps f) := hf .b _ (hf .a s hs)

theorem Balanced.freshRamp (r : Ramp) (s : State) (hs : Balanced [] s) :
    Balanced [] ((s.freshRamp r).setPlate r Plate.reset) :=
  (((hs.setRampState r .closed).setGate r false).setRamp r _).setPlate r _

theorem Balanced.freshDeck (d : Deck) (s : State) (hs : Balanced [] s) : Balanced [] (s.freshDeck d) :=
  hs.same (by simp [State.freshDeck]) (by simp [State.freshDeck]) (by simp [State.freshDeck])

theorem Balanced.releaseDeck (d : Deck) (s : State) (hs : Balanced [] s) : Balanced [] (s.releaseDeck d) :=
  hs.same (by simp [State.releaseDeck]) (by simp [State.releaseDeck]) (by simp [State.releaseDeck])

theorem Balanced.releaseRamp (r : Ramp) (s : State) (hs : Balanced [] s) : Balanced [] (s.releaseRamp r) :=
  ((hs.setRampState r .closed).setGate r false).setRamp r _

/-- A vessel call begins with BOOKED records and empty accounts (R163). -/
theorem balanced_ownVesselOpen (hs : SumsReady s) (t : Ticket) (x : Unit) (h : admits s.session .vesselOpen = true) :
    Balanced [] (ownVesselOpen t x s) := by
  have hsession := admits_vesselOpen h
  have hl := laneless_of_all_booked hs.law (hs.law.all_booked (by simp [hsession]) (by simp [hsession]))
  have h1 : Balanced [] ((((((s.setSession .alongside).setCheckIn []).setAgeing (some s.agePeriodMs)).setLanes
      (Vector.replicate 96 LaneRun.reset)).setStb Stability.reset).setAlc Allocator.reset) :=
    balanced_of_laneless hs.law.rise hl account_reset
  exact ((h1.forRamps Balanced.freshRamp).forDecks Balanced.freshDeck).fill t _

/-- The records that are not BOOKED are retired, and nothing is left aboard or promised (R168). -/
theorem balanced_ownVesselRelease (hs : SumsReady s) (t : Ticket) (x : Unit) : Balanced [] (ownVesselRelease t x s) := by
  have hl : ∀ v ∈ s.units.filter (fun u => decide (u.status = .booked)), v.lane = none ∧ v.Sited := fun v hv => by
    obtain ⟨hv, hb⟩ := List.mem_filter.1 hv
    have hsited := hs.law.sited v hv
    exact ⟨hsited.laneless (by rw [of_decide_eq_true hb]; rfl), hsited⟩
  have h1 : Balanced [] (((((s.setSession .noVessel).setUnits
      (s.units.filter fun u => decide (u.status = .booked))).setCheckIn []).setLanes
        (Vector.replicate 96 LaneRun.reset)).setStb Stability.reset) :=
    balanced_of_laneless (unitsRise_filter _ hs.law.rise) hl account_reset
  exact ((h1.forDecks Balanced.releaseDeck).forRamps Balanced.releaseRamp).fill t _

theorem balanced_ownVesselSecure (hs : SumsReady s) (t : Ticket) (x : Unit) : Balanced [] (ownVesselSecure t x s) := by
  unfold ownVesselSecure
  split_ifs
  · exact hs.balanced.fill t _
  · exact hs.balanced.refuse t _
  · have h1 : Balanced [] (s.toShutOut.foldl State.shutOut s) := hs.balanced.shutOutAll fun ref hr => by
      obtain ⟨-, hr⟩ := List.mem_filter.1 hr
      cases hst : s.statusOf ref with
      | none => simp [hst] at hr
      | some x =>
        by_cases hw : x = .waiting
        · exact .inl (hw ▸ hst)
        · refine .inr (hs.law.laneless hst ?_)
          cases x <;> simp [hst, Status.shutsOut] at hr hw ⊢
    exact (((h1.setSession .secured).setAgeing none).forRamps fun r _ ht => ht.secureRamp r).fill t _

theorem balanced_ownVesselReopen (hs : SumsReady s) (t : Ticket) (x : Unit) : Balanced [] (ownVesselReopen t x s) := by
  have h1 := hs.balanced.unplaceAgain (refs := s.shutOutRefs) fun ref hr =>
    hs.law.laneless (by simpa using (List.mem_filter.1 hr).2) (.inr (.inr (.inr rfl)))
  unfold ownVesselReopen
  exact (((h1.setSession .alongside).setAgeing _).triggerWalk).fill t _

theorem balanced_ownProfileReload (hs : SumsReady s) (t : Ticket) (x : Unit)
    (h : admits s.session .profileReload = true) : Balanced [] (ownProfileReload t x s) := by
  unfold ownProfileReload
  split_ifs
  · exact hs.balanced.refuse t _
  · have hne : s.session ≠ .alongside ∧ s.session ≠ .secured := by rcases admits_profileReload h with e | e <;> simp [e]
    exact balanced_of_new_profile hs hne.1 hne.2 (by simp) (by simp)

theorem balanced_execLoadEnd (hs : SumsReady s) {gradA gradB : BitVec 8} {incl : BitVec 10} {u : State}
    (h : execLoadEnd gradA gradB incl s = .next u) : Balanced [] u := by
  unfold execLoadEnd at h
  split at h
  · next hl =>
    obtain ⟨hunits, -, hstb, -⟩ := endLoad_cargo_frame s (loadImage s.pst.mem s.freeCount) gradA gradB incl
    exact balanced_finish (balanced_of_new_profile hs (by simp [hl]) (by simp [hl]) hunits hstb) h
  · exact balanced_notNow hs.balanced h

theorem balanced_resetWith (rate : Nat) (mem : List Host.Cell) (q : List Instr) (n : Nat) :
    Balanced [] (State.resetWith rate mem q n) :=
  balanced_of_laneless .nil (fun _ hv => absurd hv List.not_mem_nil) account_reset

theorem balanced_execHardwareReset {baud1 baud0 : Bool} {partsDone : Nat} {mix : List Byte} {u : State}
    (h : execHardwareReset baud1 baud0 partsDone mix s = .next u) : Balanced [] u :=
  balanced_finish (balanced_resetWith _ _ _ _) h

/-- The Profile Store's writes keep the shadow, hence the lanes. -/
theorem Balanced.setPst {out : List Ref} (hs : Balanced out s) {x : ProfileStore} (h : x.shadow = s.pst.shadow) :
    Balanced out (s.setPst x) :=
  hs.same rfl rfl fun l => by unfold State.laneFixed State.profile; rw [State.setPst_pst, h]

theorem balanced_ownProfileWrite (hs : Balanced [] s) (prot : Bool) (t : Ticket) (q : ChunkRequest) :
    Balanced [] (ownProfileWrite prot t q s) := by
  unfold ownProfileWrite
  split_ifs
  · exact hs.refuse t _
  · exact hs.refuse t _
  · split
    · exact hs.refuse t _
    · exact hs.setPst (by rfl)

theorem balanced_execProfileWriteEnd (hs : Balanced [] s) {stored : List Byte} {u : State}
    (h : execProfileWriteEnd stored s = .next u) : Balanced [] u := by
  unfold execProfileWriteEnd at h
  split at h
  · refine balanced_finish (Balanced.fill ?_ _ _) h
    exact Balanced.same (hs.setPst (by rfl)) rfl rfl fun _ => rfl
  · exact balanced_notNow hs h

theorem balanced_execWriteTimeout (hs : Balanced [] s) {partsDone : Nat} {mix : List Byte} {u : State}
    (h : execWriteTimeout partsDone mix s = .next u) : Balanced [] u := by
  unfold execWriteTimeout at h
  split at h
  · refine balanced_finish (Balanced.fill ?_ _ _) h
    exact hs.setPst (by rfl)
  · exact balanced_notNow hs h

/-! ## The Allocator's commands (R63, R78, R84) -/

theorem balanced_execPlacementServed (hs : SumsReady s) {u : State} (h : execPlacementServed s = .next u) :
    Balanced [] u := by
  unfold execPlacementServed at h
  split at h
  · split at h
    · next ref cause rest hserv =>
      have h1 := hs.balanced.setAlc { s.alc with service := rest }
      dsimp only at h
      split at h
      · next v hv =>
        have hl := hs.law.placement_laneless (ref := ref) (cause := cause) (by rw [hserv]; exact .head _) hv
        obtain rfl : v.decl.ref = ref := unit_ref (s := s) hv
        exact balanced_finish ((h1.servePlacement hv hl _).tellPlacement _ _) h
      · exact balanced_finish (h1.tellPlacement _ _) h
    · exact balanced_notNow hs.balanced h
  · exact balanced_notNow hs.balanced h

theorem balanced_execRetryWalk (hs : Balanced [] s) {u : State} (h : execRetryWalk s = .next u) : Balanced [] u := by
  unfold execRetryWalk at h
  split at h
  · split at h
    · exact balanced_finish (hs.setAlc _) h
    · exact balanced_notNow hs h
  · exact balanced_notNow hs h

theorem balanced_execWalkVisit (hs : SumsReady s) {u : State} (h : execWalkVisit s = .next u) : Balanced [] u := by
  unfold execWalkVisit at h
  split at h
  · exact balanced_notNow hs.balanced h
  · next ref rest hwalk =>
    have h1 := hs.balanced.setAlc { s.alc with walk := rest }
    dsimp only at h
    split at h
    · next v hv =>
      have hl := hs.law.walk_laneless (ref := ref) (by rw [hwalk]; exact .head _) hv
      obtain rfl : v.decl.ref = ref := unit_ref (s := s) hv
      exact balanced_finish (h1.visit hv hl) h
    · exact balanced_finish h1 h

theorem balanced_execRedirectSearch (hs : SumsReady s) {u : State} (h : execRedirectSearch s = .next u) :
    Balanced [] u := by
  unfold execRedirectSearch at h
  split at h
  · split at h
    · next x rest hserv =>
      have h1 := hs.balanced.setAlc { s.alc with service := rest }
      dsimp only at h
      split at h
      · next v hv =>
        obtain ⟨hl, hw⟩ := hs.law.redirect_unit (x := x) (by rw [hserv]; exact .head _) hv
        have hr : v.decl.ref = x.ref := unit_ref (s := s) hv
        exact balanced_finish (h1.serveRedirect (by rw [hr]; exact hv) hr hl hw) h
      · exact balanced_finish h1 h
    · exact balanced_notNow hs.balanced h
  · exact balanced_notNow hs.balanced h

/-! ## Ageing, calls and their timers (R17 to R19, R109 to R116) -/

/-- The units that lapse at an expiry wait (R19). -/
theorem lapsing_waits (h : UnitsRise s.units) {ref : Ref} (hr : ref ∈ s.lapsing) : s.statusOf ref = some .waiting := by
  obtain ⟨v, hv, rfl⟩ := List.mem_map.1 hr
  obtain ⟨hv, hp⟩ := List.mem_filter.1 hv
  simp only [Bool.and_eq_true, decide_eq_true_eq] at hp
  obtain ⟨⟨hwait, -⟩, -⟩ := hp
  rw [statusOf_eq (unit_of_mem h hv), hwait]

theorem balanced_execAgeingExpiry (hs : Balanced [] s) {u : State} (h : execAgeingExpiry s = .next u) :
    Balanced [] u := by
  unfold execAgeingExpiry at h
  split at h
  · have h1 := (hs.setAgeing (some s.agePeriodMs)).ageAll
    have h2 := h1.lapseAll (refs := (s.setAgeing (some s.agePeriodMs)).ageAll.lapsing) fun ref hr => by
      simp [lapsing_waits h1.rise hr]
    refine balanced_finish ?_ h
    split
    · exact h2
    · exact h2.triggerWalk
  · exact balanced_notNow hs h

theorem balanced_execCall (hs : SumsReady s) {r : Ramp} {u : State} (h : execCall r s = .next u) : Balanced [] u := by
  unfold execCall at h
  split at h
  · split at h
    · next ref credit hch =>
      split at h
      · next v hv =>
        split at h
        · next l hl =>
          obtain rfl := unit_ref hv
          obtain ⟨w, hw, hwait⟩ := hs.law.queued_waits (callChoice_spec hch).1
          obtain rfl := Option.some.inj (hv.symm.trans hw)
          exact balanced_finish (hs.balanced.makeCall (by simp [laneOf_of_unit hv, hl])
            (by simp [statusOf_eq hv, hwait]) credit) h
        · exact balanced_notNow hs.balanced h
      · exact balanced_notNow hs.balanced h
    · exact balanced_notNow hs.balanced h
  · exact balanced_notNow hs.balanced h

theorem balanced_execIntervalTimerExpiry (hs : Balanced [] s) {r : Ramp} {u : State}
    (h : execIntervalTimerExpiry r s = .next u) : Balanced [] u := by
  unfold execIntervalTimerExpiry at h
  split at h
  · exact balanced_finish (hs.setRamp r _) h
  · exact balanced_notNow hs h

/-- A CALLED unit takes its first no-show (R115). -/
theorem Balanced.firstNoShow (hs : Balanced [] s) {v : UnitRecord} {l : Lane} (hv : s.unit? v.decl.ref = some v)
    (hl : v.lane = some l) (hc : v.status = .called) (r : Ramp) : Balanced [] (s.firstNoShow r v l) := by
  have hf : KeepsRef fun u => { u with noShow := 1 } := fun _ => rfl
  have h1 := hs.keeping v.decl.ref (keepsShare_noShow 1)
  have hunit := (unitOf_modUnit_self s v.decl.ref _ hf).trans (congrArg (Option.map _) hv)
  unfold State.firstNoShow
  exact h1.uncallToWaiting (by simp [laneOf_of_unit hunit, hl]) (by simp [statusOf_eq hunit, hc]) r true .noShow

/-- A CALLED unit takes its second no-show (R116). -/
theorem Balanced.secondNoShow (hs : Balanced [] s) {v : UnitRecord} (hn : s.statusOf v.decl.ref ≠ some .aboard)
    (r : Ramp) : Balanced [] (s.secondNoShow r v) := by
  have held := (hs.release hn).setStatus_idle (x := .held) (by simp [laneOf_release]) rfl
  unfold State.secondNoShow
  exact ((held.leaveCalled r v.decl.ref).notify _).triggerWalk

theorem balanced_execCallTimerExpiry (hs : Balanced [] s) {r : Ramp} {u : State}
    (h : execCallTimerExpiry r s = .next u) : Balanced [] u := by
  unfold execCallTimerExpiry at h
  split at h
  · split at h
    · next v hv =>
      split at h
      · next l hl =>
        split at h
        · next hc =>
          obtain ⟨ref, -, hv⟩ := Option.bind_eq_some_iff.1 hv
          obtain rfl := unit_ref hv
          refine balanced_finish ?_ h
          split
          · exact hs.firstNoShow hv hl hc r
          · exact hs.secondNoShow (by simp [statusOf_eq hv, hc]) r
        · exact balanced_notNow hs h
      · exact balanced_notNow hs h
    · exact balanced_notNow hs h
  · exact balanced_notNow hs h

/-! ## Crossings and samples (R125 to R142) -/

theorem balanced_execAxleEdge (hs : SumsReady s) {r : Ramp} {u : State} (h : execAxleEdge r s = .next u) :
    Balanced [] u := by
  unfold execAxleEdge at h
  split at h
  · exact balanced_notNow hs.balanced h
  · exact balanced_finish (hs.balanced.openCrossing fun _ hr => hs.law.called_notAboard hr) h
  · exact balanced_finish (hs.balanced.setPlate r _) h

theorem balanced_execConversionComplete (hs : Balanced [] s) {r : Ramp} {code : BitVec 10} {u : State}
    (h : execConversionComplete r code s = .next u) : Balanced [] u := by
  unfold execConversionComplete at h
  split at h
  · exact balanced_finish (hs.setPlate r _) h
  · exact balanced_notNow hs h

theorem balanced_execGapTimerExpiry (hs : SumsReady s) {r : Ramp} {u : State} (h : execGapTimerExpiry r s = .next u) :
    Balanced [] u := by
  unfold execGapTimerExpiry at h
  dsimp only at h
  have hclear := hs.balanced.clearPlate r
  split at h
  · split at h
    · next ref hp =>
      obtain ⟨-, w, hw, hx, -⟩ := hs.law.onPlate hp
      have hleft := hclear.leaveCalled r ref
      have hunit : ((s.clearPlate r).leaveCalled r ref).unit? ref = s.unit? ref := by simp [unitOf_clearPlate]
      split at h
      · next v hv =>
        obtain rfl := Option.some.inj ((hunit.symm.trans hv).symm.trans hw)
        have hr := unit_ref hv
        exact balanced_finish ((hleft.settle (by rw [hr]; exact hv) hx r _).timeHead r) h
      · exact balanced_finish (hleft.timeHead r) h
    · exact balanced_finish ((hclear.notify _).timeHead r) h
  · exact balanced_notNow hs.balanced h

theorem balanced_execSampleTimerExpiry (hs : Balanced [] s) {gradA gradB : BitVec 8} {incl : BitVec 10} {u : State}
    (h : execSampleTimerExpiry gradA gradB incl s = .next u) : Balanced [] u := by
  unfold execSampleTimerExpiry at h
  split at h
  · exact balanced_finish (hs.same (by simp) (by simp) (by simp)) h
  · exact balanced_notNow hs h

/-! ## The link (R169 to R178) -/

theorem Balanced.receiveByte (hs : Balanced [] s) (b : Byte) : Balanced [] (s.receiveByte b) := by
  have h1 : Balanced [] (s.modLink fun k => { k with rx := (receive s.link.rx b).1 }) := hs.modLink _
  unfold State.receiveByte
  dsimp only
  split
  · unfold State.acceptFrame
    split_ifs
    · exact h1
    · exact h1
    · exact h1
    · exact h1.modLink _
  · exact h1

theorem Balanced.receiveBytes (hs : Balanced [] s) (bytes : List Byte) : Balanced [] (s.receiveBytes bytes) := by
  unfold State.receiveBytes
  induction bytes generalizing s with
  | nil => exact hs
  | cons b bytes ih => exact ih (hs.receiveByte b)

theorem balanced_execBadKindRequest (hs : Balanced [] s) {u : State} (h : execBadKindRequest s = .next u) :
    Balanced [] u := by
  unfold execBadKindRequest at h
  split at h
  · exact balanced_notNow hs h
  · next f v hf =>
    obtain ⟨rest, -, rfl⟩ := takeFrame_eq_some hf
    split at h
    · exact balanced_finish ((hs.modLink _).refuse _ _) h
    · exact balanced_notNow hs h

theorem balanced_execFrameSent (hs : Balanced [] s) {u : State} (h : execFrameSent s = .next u) : Balanced [] u := by
  unfold execFrameSent at h
  split at h
  · exact balanced_notNow hs h
  · exact balanced_finish (hs.modLink _) h

/-! ## Flags and queries (R21, R44, R122, R179, R180) -/

theorem balanced_ownClearFlags (hs : Balanced [] s) (t : Ticket) (sel : Byte) : Balanced [] (ownClearFlags t sel s) :=
  (hs.modLink _).fill t _

theorem balanced_ownQueryUnit (hs : Balanced [] s) (t : Ticket) (ref : Ref) : Balanced [] (ownQueryUnit t ref s) :=
  balanced_withUnit hs fun _ _ => hs.fill t _

theorem balanced_ownQueryLane (hs : Balanced [] s) (t : Ticket) (q : Lane × Nat) : Balanced [] (ownQueryLane t q s) :=
  hs.fill t _

theorem balanced_ownQueryQueue (hs : Balanced [] s) (t : Ticket) (q : QueueRequest) : Balanced [] (ownQueryQueue t q s) :=
  hs.fill t _

theorem balanced_ownQueryStatus (hs : Balanced [] s) (t : Ticket) (x : Unit) : Balanced [] (ownQueryStatus t x s) :=
  hs.fill t _

/-! ## Every step -/

theorem balanced_exec {c : Instr} {u : State} (hs : SumsReady s) (h : exec c s = .next u) : Balanced [] u := by
  cases c with
  | hardwareReset => exact balanced_execHardwareReset h
  | loadEnd => exact balanced_execLoadEnd hs h
  | frameComplete bytes => cases h; exact hs.balanced.receiveBytes bytes
  | framingError bytes => cases h; exact (hs.balanced.receiveBytes bytes).modLink _
  | frameDiscarded bytes => cases h; exact hs.balanced.receiveBytes bytes
  | frameSent => exact balanced_execFrameSent hs.balanced h
  | badKindRequest => exact balanced_execBadKindRequest hs.balanced h
  | vesselOpen => exact balanced_handle hs (fun t req _ hv ha => balanced_ownVesselOpen hv t req ha) h
  | vesselSecure => exact balanced_handle hs (fun t req _ hv _ => balanced_ownVesselSecure hv t req) h
  | vesselReopen => exact balanced_handle hs (fun t req _ hv _ => balanced_ownVesselReopen hv t req) h
  | vesselRelease => exact balanced_handle hs (fun t req _ hv _ => balanced_ownVesselRelease hv t req) h
  | book => exact balanced_handle hs (fun t req _ hv _ => balanced_ownBook hv t req) h
  | amend => exact balanced_handle hs (fun t req _ hv _ => balanced_ownAmend hv t req) h
  | cancel => exact balanced_handle hs (fun t req _ hv _ => balanced_ownCancel hv t req) h
  | checkIn => exact balanced_handle hs (fun t req _ hv _ => balanced_ownCheckIn hv t req) h
  | present => exact balanced_handle hs (fun t req _ hv _ => balanced_ownPresent hv t req) h
  | holdUnit => exact balanced_handle hs (fun t req _ hv _ => balanced_ownHoldUnit hv t req) h
  | releaseHold => exact balanced_handle hs (fun t req _ hv _ => balanced_ownReleaseHold hv t req) h
  | place => exact balanced_handle hs (fun t req _ hv _ => balanced_ownPlace hv t req) h
  | discharge => exact balanced_handle hs (fun t req _ hv _ => balanced_ownDischarge hv t req) h
  | rampOpen => exact balanced_handle hs (fun t req _ hv _ => balanced_ownRampOpen hv.balanced t req) h
  | rampClose => exact balanced_handle hs (fun t req _ hv _ => balanced_ownRampClose hv t req) h
  | setRamp => exact balanced_handle hs (fun t req _ hv _ => balanced_ownSetRamp hv.balanced t req) h
  | skip => exact balanced_handle hs (fun t req _ hv _ => balanced_ownSkip hv t req) h
  | laneClose => exact balanced_handle hs (fun t req _ hv _ => balanced_ownLaneClose hv t req) h
  | laneOpen => exact balanced_handle hs (fun t req _ hv _ => balanced_ownLaneOpen hv.balanced t req) h
  | obstructionAdd => exact balanced_handle hs (fun t req _ hv _ => balanced_ownObstructionAdd hv t req) h
  | obstructionClear => exact balanced_handle hs (fun t req _ hv _ => balanced_ownObstructionClear hv.balanced t req) h
  | setBallast => exact balanced_handle hs (fun t req _ hv _ => balanced_ownSetBallast hv.balanced t req) h
  | clearFlags => exact balanced_handle hs (fun t req _ hv _ => balanced_ownClearFlags hv.balanced t req) h
  | profileWrite prot => exact balanced_handle hs (fun t req _ hv _ => balanced_ownProfileWrite hv.balanced prot t req) h
  | profileWriteEnd => exact balanced_execProfileWriteEnd hs.balanced h
  | writeTimeout => exact balanced_execWriteTimeout hs.balanced h
  | profileReload => exact balanced_handle hs (fun t req _ hv ha => balanced_ownProfileReload hv t req ha) h
  | queryUnit => exact balanced_handle hs (fun t req _ hv _ => balanced_ownQueryUnit hv.balanced t req) h
  | queryLane => exact balanced_handle hs (fun t req _ hv _ => balanced_ownQueryLane hv.balanced t req) h
  | queryQueue => exact balanced_handle hs (fun t req _ hv _ => balanced_ownQueryQueue hv.balanced t req) h
  | queryStatus => exact balanced_handle hs (fun t req _ hv _ => balanced_ownQueryStatus hv.balanced t req) h
  | placementServed => exact balanced_execPlacementServed hs h
  | retryWalk => exact balanced_execRetryWalk hs.balanced h
  | walkVisit => exact balanced_execWalkVisit hs h
  | redirectSearch => exact balanced_execRedirectSearch hs h
  | ageingExpiry => exact balanced_execAgeingExpiry hs.balanced h
  | call r => exact balanced_execCall hs h
  | intervalTimerExpiry r => exact balanced_execIntervalTimerExpiry hs.balanced h
  | callTimerExpiry r => exact balanced_execCallTimerExpiry hs.balanced h
  | axleEdge r => exact balanced_execAxleEdge hs h
  | conversionComplete r code => exact balanced_execConversionComplete hs.balanced h
  | gapTimerExpiry r => exact balanced_execGapTimerExpiry hs h
  | sampleTimerExpiry => exact balanced_execSampleTimerExpiry hs.balanced h

theorem balanced_step {u : State} (hs : SumsReady s) (h : step s = .next u) : Balanced [] u := by
  obtain rfl | ⟨c, q, hc⟩ := step_next h
  · exact hs.balanced
  · exact balanced_exec (s := s.setPending q) ⟨hs.law, hs.sums⟩ hc

/-- Settles O57: each command changes the accounts by what it changes of the records' shares. -/
theorem accumulatorsStayTheSums : Obligations.AccumulatorsStayTheSums := by
  unfold Obligations.AccumulatorsStayTheSums
  exact fun _ _ _ hlaw hsums h => (balanced_step ⟨hlaw, hsums⟩ h).sumsLaw

end Sys2Proof.Machine

namespace Sys2Proof.Machine

open Sys2Proof

/-! ## CONVERSION_COMPLETE (R58, R59) -/

theorem onlyChanges_setPlate (s : State) (r : Ramp) (x : Plate) : OnlyChanges [.plate r] s (s.setPlate r x) :=
  fun b hb => by
  cases b with
  | plate q => exact State.plate_setPlate_other s x (by simpa using hb)
  | _ => rfl

/-- The saturating sum and the running maximum of R59, by the two cases of each. -/
theorem converted_eq (load : Nat) (p : Plate) : p.converted load =
    { p with
      busy := false
      axleSum := if 600 < p.axleSum + load then 600 else p.axleSum + load
      axleMax := if p.axleMax < load then load else p.axleMax } := by
  have hsum : min 600 (p.axleSum + load) = if 600 < p.axleSum + load then 600 else p.axleSum + load := by
    split <;> omega
  have hmax : max p.axleMax load = if p.axleMax < load then load else p.axleMax := by
    split <;> omega
  rw [← hsum, ← hmax]
  rfl

theorem exec_conversionComplete_idle {s : State} {r : Ramp} (code : BitVec 10) (h : (s.plate r).busy = false) :
    exec (.conversionComplete r code) s = .next s := by
  change execConversionComplete r code s = _
  simp [execConversionComplete, h, notNow]

theorem exec_conversionComplete_busy {s : State} {r : Ramp} (code : BitVec 10) (h : (s.plate r).busy = true) :
    exec (.conversionComplete r code) s =
      .next (s.setPlate r ((s.plate r).converted (axleLoad (s.rampFixed r) code.toNat))).startTx := by
  change execConversionComplete r code s = _
  simp [execConversionComplete, h, finish]

/-- Settles O36: an idle converter delivers nothing; a busy one gives the plate its converted record. -/
theorem conversionAddsTheAxleLoad : Obligations.ConversionAddsTheAxleLoad := by
  unfold Obligations.ConversionAddsTheAxleLoad
  intro s r code p z load
  refine ⟨exec_conversionComplete_idle code, fun hb => ⟨_, exec_conversionComplete_busy code hb, ?_, ?_⟩⟩
  · rw [State.plate_setPlate_same, converted_eq]
    rfl
  · exact onlyChanges_setPlate s r _

end Sys2Proof.Machine

namespace Sys2Proof.Machine

open Sys2Proof

/-! ## SET_BALLAST and CLEAR_FLAGS (R50, R179) -/

theorem onlyChanges_setStb (s : State) (x : Stability) : OnlyChanges [.stb] s (s.setStb x) := fun b hb => by
  cases b with
  | stb => simp at hb
  | _ => rfl

/-- The walk is asked for of the allocator and the answer written on the link, so their order does not matter. -/
theorem triggerWalk_fill (s : State) (t : Ticket) (r : Reply) : (s.fill t r).triggerWalk = s.triggerWalk.fill t r := by
  unfold State.triggerWalk
  have halc : (s.fill t r).alc = s.alc := rfl
  rw [halc]
  split <;> rfl

theorem clampBallast_eq (v : Int) : clampBallast v = max (-50000000) (min 50000000 v) := by
  unfold clampBallast
  have hmax : Config.ballastMax = 50000000 := rfl
  rw [hmax]
  split
  · omega
  · split <;> omega

/-- Offsets that are written, with a walk asked for and the request answered. -/
theorem ballast_then_walk (s : State) (f : Frame) (rest : List Frame) (x : Stability) (r : Reply) :
    let u := (((s.taken f rest).setStb x).fill f.ticket r).triggerWalk
    Replied s u f rest r ∧ NoNews s u ∧ u.stb = x ∧ WalkAsked s u ∧ u.alc.unplaced = s.alc.unplaced ∧
      u.alc.walk = s.alc.walk ∧ OnlyChanges [.link, .stb, .alc] s u := by
  rw [triggerWalk_fill]
  obtain ⟨hunplaced, hwalk⟩ := triggerWalk_lists ((s.taken f rest).setStb x)
  refine answered_of_link (by simp) ⟨by simp, ?_, by simpa using hunplaced, by simpa using hwalk, ?_⟩
  · exact (walkAsked_triggerWalk ((s.taken f rest).setStb x)).of_eq (by simp)
  · exact onlyChanges_fill _ _ (by simp)
      (.trans ((onlyChanges_setStb _ x).mono (by simp)) ((onlyChanges_triggerWalk _).mono (by simp)))

/-- A selected flag is clear afterwards and the others stand (R179). -/
theorem getLsbD_cleared (flags sel : Byte) (i : Nat) :
    (flags &&& ~~~sel).getLsbD i = (flags.getLsbD i && !sel.getLsbD i) := by
  rw [BitVec.getLsbD_and, BitVec.getLsbD_not]
  by_cases hi : i < 8
  · simp [hi]
  · simp [BitVec.getLsbD_of_ge flags i (by omega)]

/-- Settles O23: the clamped offsets with the walk behind them, and the masked sticky flags. -/
theorem ballastIsSetAndFlagsAreCleared : Obligations.BallastIsSetAndFlagsAreCleared := by
  unfold Obligations.BallastIsSetAndFlagsAreCleared
  refine ⟨?_, fun s f rest sel hh hq => ?_⟩
  · intro s f rest l t hh hq clamp
    have hx : exec .setBallast s = .next (ownSetBallast f.ticket (l, t) (s.taken f rest)).startTx :=
      handle_of_handed hh hq rfl
    unfold ownSetBallast at hx
    simp only [clampBallast_eq] at hx
    exact ⟨_, hx, ballast_then_walk s f rest _ _⟩
  · have hx : exec .clearFlags s = .next (ownClearFlags f.ticket sel (s.taken f rest)).startTx :=
      handle_of_handed hh hq rfl
    refine ⟨_, hx, ?_, getLsbD_cleared _ _, rfl, rfl, ?_⟩
    · exact replied_of_fill _ ⟨rfl, rfl, rfl, rfl, rfl, rfl⟩
    · exact onlyChanges_fill _ _ (by simp) (onlyChanges_modLink _ _)

end Sys2Proof.Machine

namespace Sys2Proof.Machine

open Sys2Proof

/-! ## Classification (R60, R91 to R97) -/

/-- Entry n of the table stands at place n - 1 (R88, R91). -/
theorem hazardEntry_of_pos (s : State) {n : Nat} (hn : 1 ≤ n) :
    s.hazardEntry (some n) = s.pst.hazards.getD (n - 1) HazardEntry.default := by
  cases n with
  | zero => omega
  | succ m => rfl

/-- A GATE station gives its level and ceiling, any other 0 and 7 (R92). -/
theorem gateFigures_some (s : State) (stn : Nat) :
    let e := s.profile.stations.getD (stn - 1) Station.blank
    s.gateFigures (some stn) = (if e.role = .gate then e.level else 0, if e.role = .gate then e.ceiling else 7) := by
  intro e
  have h : s.gateFigures (some stn) = if e.role = .gate then (e.level, e.ceiling) else (0, 7) := rfl
  rw [h]
  split <;> rfl

/-- The booked level, or the gate's default, under the gate's ceiling (R92, R93). -/
theorem serviceLevel_eq (s : State) (v : UnitRecord) : s.serviceLevel v =
    if (s.gateFigures v.gate).2 < v.decl.service.getD (s.gateFigures v.gate).1 then (s.gateFigures v.gate).2
    else v.decl.service.getD (s.gateFigures v.gate).1 := by
  have h : s.serviceLevel v = min (v.decl.service.getD (s.gateFigures v.gate).1) (s.gateFigures v.gate).2 := rfl
  rw [h]
  split <;> omega

theorem inDecks_single (c d : Deck) : inDecks (1#4 <<< c.val) d = true ↔ c = d := by
  revert c d
  decide

theorem inDecks_or (x y : DeckSet) (d : Deck) : inDecks (x ||| y) d = (inDecks x d || inDecks y d) := BitVec.getLsbD_or

theorem inDecks_and (x y : DeckSet) (d : Deck) : inDecks (x &&& y) d = (inDecks x d && inDecks y d) := BitVec.getLsbD_and

theorem inDecks_zero (d : Deck) : inDecks 0 d = false := BitVec.getLsbD_zero

/-- A set that collects the lanes' decks holds what it held and those decks. -/
theorem inDecks_foldl (ls : List LaneFixed) (set : DeckSet) (d : Deck) :
    inDecks (ls.foldl (fun set l => set ||| (1#4 <<< l.deck.val)) set) d = true ↔
      inDecks set d = true ∨ ∃ l ∈ ls, l.deck = d := by
  induction ls generalizing set with
  | nil => simp
  | cons l ls ih =>
    rw [List.foldl_cons, ih, inDecks_or, Bool.or_eq_true, inDecks_single]
    simp [or_assoc]

theorem inDecks_tallDecks (s : State) (h : Nat) (d : Deck) :
    inDecks (s.tallDecks h) d = true ↔ ∃ l ∈ s.profile.lanes, l.deck = d ∧ h ≤ l.heightClass := by
  unfold State.tallDecks
  rw [inDecks_foldl, inDecks_zero]
  simp [and_assoc, and_comm, and_left_comm]

/-- The four fields by name, from the entry, the level and the tall decks. -/
theorem classification_fields (s : State) (v : UnitRecord) :
    ((s.classification v).priority = true ↔
      (s.hazardEntry v.decl.hazard).priority = true ∨ s.vessel.baseLevel ≤ s.serviceLevel v) ∧
    (s.classification v).seg = (s.hazardEntry v.decl.hazard).seg ∧
    (∀ d, inDecks (s.classification v).decks d = true ↔ inDecks (s.hazardEntry v.decl.hazard).decks d = true ∧
      ∃ l ∈ s.profile.lanes, l.deck = d ∧ v.decl.heightClass ≤ l.heightClass) ∧
    (s.classification v).axleEst = v.decl.axleEstimate := by
  refine ⟨by simp [State.classification], rfl, fun d => ?_, rfl⟩
  rw [← inDecks_tallDecks, ← Bool.and_eq_true, ← inDecks_and]
  rfl

theorem axleEstimate_of_maxAxle {d : Declared} {m : Nat} (h : d.maxAxle = some m) : d.axleEstimate = m := by
  simp [Declared.axleEstimate, h]

theorem axleEstimate_of_axles {d : Declared} {n : Nat} (h : d.maxAxle = none) (k : d.axles = some n) :
    d.axleEstimate = (d.weight + n - 1) / n := by
  simp [Declared.axleEstimate, h, k]

theorem axleEstimate_of_weight {d : Declared} (h : d.maxAxle = none) (k : d.axles = none) :
    d.axleEstimate = (d.weight + 1) / 2 := by
  simp [Declared.axleEstimate, h, k]

/-- Settles O15: the entry by whether the unit declares a hazard, the level by the gate's role. -/
theorem classificationFollowsTheTables : Obligations.ClassificationFollowsTheTables := by
  unfold Obligations.ClassificationFollowsTheTables
  intro s v stn gate hazard booked ceiling level c hgate _ hpos
  have hentry : s.hazardEntry v.decl.hazard = hazard := by
    cases hz : v.decl.hazard with
    | none => simp only [hazard, hz]; rfl
    | some n => simp only [hazard, hz]; exact hazardEntry_of_pos s (hpos n hz)
  have hlevel : s.serviceLevel v = level := by
    rw [serviceLevel_eq, hgate, gateFigures_some]
    rfl
  obtain ⟨hprio, hseg, hdecks, haxle⟩ := classification_fields s v
  rw [hentry, hlevel] at hprio
  rw [hentry] at hseg hdecks
  exact ⟨hprio, hseg, hdecks, fun m hm => haxle.trans (axleEstimate_of_maxAxle hm),
    fun n hm hn => haxle.trans (axleEstimate_of_axles hm hn), fun hm hn => haxle.trans (axleEstimate_of_weight hm hn)⟩

end Sys2Proof.Machine

namespace Sys2Proof.Machine

open Sys2Proof

/-! ## The choice among scored lanes (R72) -/

/-- The first three keys of R72 as one key, compared lexicographically. -/
def Score.key (x : Score) : Nat ×ₗ Int ×ₗ Nat := toLex (x.absMl, toLex (x.dMt, x.free))

theorem Score.key_lt_iff {x y : Score} :
    x.key < y.key ↔ x.absMl < y.absMl ∨ x.absMl = y.absMl ∧ (x.dMt < y.dMt ∨ x.dMt = y.dMt ∧ x.free < y.free) := by
  simp [Score.key, Prod.Lex.toLex_lt_toLex]

theorem Score.key_injective : Function.Injective Score.key := fun x y h => by
  cases x
  cases y
  simpa [Score.key] using h

theorem Score.better_iff {x y : Score} : x.better y = true ↔ x.key < y.key := by
  simp [Score.better, Score.key_lt_iff]

/-- The choice of R72 is the first of the least by the three keys. -/
theorem chooseLane_eq_argmin (xs : List (Lane × Score)) :
    chooseLane xs = (xs.argmin fun p => p.2.key).map (·.1) := by
  have hstep : keepBetter = List.argAux fun p q => p.2.key < q.2.key := by
    funext best p
    cases best with
    | none => rfl
    | some b => simp [keepBetter, List.argAux, Score.better_iff]
  rw [chooseLane, hstep]
  rfl

/-- One scored lane comes before another by the four keys of R72, or is the same. -/
def Precedes (p q : Lane × Score) : Prop := p.2.key < q.2.key ∨ p.2.key = q.2.key ∧ p.1 ≤ q.1

theorem chooseLane_eq_none {xs : List (Lane × Score)} : chooseLane xs = none ↔ xs = [] := by
  rw [chooseLane_eq_argmin, Option.map_eq_none_iff, List.argmin_eq_none]

/-- In a list whose entries stand in the order `r`, the first of the least by `f` stands before every other that is as
small. -/
theorem argmin_first {α β : Type} [DecidableEq α] [LinearOrder β] {f : α → β} {r : α → α → Prop} (hr : ∀ a, r a a)
    {xs : List α} (hxs : xs.Pairwise r) {m : α} (h : m ∈ xs.argmin f) {a : α} (ha : a ∈ xs) :
    f m < f a ∨ f m = f a ∧ r m a := by
  obtain ⟨hmem, hleast, hfirst⟩ := List.mem_argmin_iff.1 h
  refine (hleast a ha).lt_or_eq.imp_right fun heq => ⟨heq, ?_⟩
  rcases (hfirst a ha heq.ge).lt_or_eq with hlt | hsame
  · simpa using
      List.pairwise_iff_getElem.1 hxs _ _ (List.idxOf_lt_length_of_mem hmem) (List.idxOf_lt_length_of_mem ha) hlt
  · exact (List.idxOf_inj hmem).1 hsame ▸ hr m

/-- Among lanes in rising order the chosen one precedes every other. -/
theorem chooseLane_precedes {xs : List (Lane × Score)} (hxs : xs.Pairwise fun p q => p.1 ≤ q.1) {l : Lane}
    (h : chooseLane xs = some l) : ∃ x, (l, x) ∈ xs ∧ ∀ q ∈ xs, Precedes (l, x) q := by
  rw [chooseLane_eq_argmin] at h
  obtain ⟨⟨k, x⟩, hmin, rfl⟩ := Option.map_eq_some_iff.1 h
  exact ⟨x, List.argmin_mem hmin, fun q hq => argmin_first (fun p => le_refl p.1) hxs hmin hq⟩

/-! ## The projection with a candidate (R28, R69) -/

/-- Where a unit behind projected ones may start: the gap beyond the last, or the start point where there is
none. -/
def startBehind (gap start : Nat) (ps : List Projected) : Nat := (ps.getLast?.map fun p => p.stop + gap).getD start

/-- A unit as it is projected from a start point. -/
def projectOne (obs : List Obstruction) (start : Nat) (ref : Ref) (length : Nat) : Projected :=
  { ref := ref, offset := feasible obs length start, stop := feasible obs length start + length }

theorem startBehind_cons (gap start : Nat) (p : Projected) (ps : List Projected) :
    startBehind gap start (p :: ps) = startBehind gap (p.stop + gap) ps := by
  unfold startBehind
  rw [List.getLast?_cons]
  cases ps.getLast? <;> rfl

theorem projectFrom_append_one (obs : List Obstruction) (gap start : Nat) (xs : List (Ref × Nat)) (ref : Ref)
    (length : Nat) :
    projectFrom obs gap start (xs ++ [(ref, length)]) =
      projectFrom obs gap start xs ++
        [projectOne obs (startBehind gap start (projectFrom obs gap start xs)) ref length] := by
  induction xs generalizing start with
  | nil => rfl
  | cons x xs ih =>
    obtain ⟨r, n⟩ := x
    simp only [List.cons_append, projectFrom, ih, startBehind_cons]

/-- The candidate's start behind the lane's projection is the one behind its projected units. -/
theorem candidateStart_eq (s : State) (l : Lane) :
    (if (s.lane l).reservations.isEmpty then s.startPoint l else s.projectedEnd l + s.vessel.gap) =
      startBehind s.vessel.gap (s.startPoint l) (s.projection l) := by
  unfold State.projectedEnd State.projection State.projectUnits
  cases (s.lane l).reservations with
  | nil => rfl
  | cons ref refs => simp [startBehind, projectFrom, List.getLast?_cons]

/-- The projection of a lane's reserved units with a candidate behind them (R69). -/
def State.projectionWith (s : State) (l : Lane) (v : UnitRecord) : List Projected :=
  projectFrom (s.lane l).obstructions s.vessel.gap (s.startPoint l)
    (((s.lane l).reservations.map fun r => (r, s.lengthOf r)) ++ [(v.decl.ref, v.decl.length)])

theorem projectionWith_eq (s : State) (l : Lane) (v : UnitRecord) :
    s.projectionWith l v = s.projection l ++
      [projectOne (s.lane l).obstructions (startBehind s.vessel.gap (s.startPoint l) (s.projection l)) v.decl.ref
        v.decl.length] := projectFrom_append_one ..

/-- There is a candidate's end when the projection with the candidate fits, and it is the last unit's end. -/
theorem candidateEnd_eq_some_iff {s : State} {l : Lane} {v : UnitRecord} {stop : Nat} :
    s.candidateEnd l v.decl.length = some stop ↔
      (∀ p ∈ s.projectionWith l v, p.stop ≤ (s.laneFixed l).length) ∧
        ∃ p, (s.projectionWith l v).getLast? = some p ∧ stop = p.stop := by
  unfold State.candidateEnd
  rw [candidateStart_eq, projectionWith_eq, List.getLast?_concat]
  simp [State.allFit, projectOne, or_imp, forall_and, eq_comm (a := stop)]

/-! ## The ten tests (R65 to R71) -/

theorem lastUnit_eq_some_iff {s : State} {l : Lane} {w : UnitRecord} : s.lastUnit l = some w ↔ LastUnit s l w := by
  unfold State.lastUnit LastUnit
  cases hr : (s.lane l).reservations.getLast? with
  | none => simp [List.getLast?_eq_none_iff.1 hr, Option.bind_eq_some_iff]
  | some ref =>
    have hne : (s.lane l).reservations ≠ [] := fun e => by simp [e] at hr
    simp [hne]

/-- Tests 4 and 5 against the last unit, if there is one (R68). -/
theorem orderTests_iff {s : State} {v : UnitRecord} {l : Lane} :
    (s.test4 v l && s.test5 v l) = true ↔
      ∀ w, LastUnit s l w → v.decl.group ≤ w.decl.group ∧ (v.cls.seg = 0 ∨ w.cls.seg = 0 ∨ w.cls.seg = v.cls.seg) := by
  simp only [← lastUnit_eq_some_iff]
  unfold State.test4 State.test5
  cases s.lastUnit l with
  | none => simp
  | some w => simp [or_assoc]

theorem test8_iff {s : State} {v : UnitRecord} {l : Lane} {free : Nat} :
    s.test8 v l free = true ↔
      v.cls.priority = true ∨ (s.deckFixed (s.laneFixed l).deck).reserve ≤ freeWith s l free := by
  rw [State.test8, Bool.or_eq_true, decide_eq_true_iff]
  rfl

/-- Tests 1 to 5, 7 and 8, as the model evaluates them and as the spec lists them. -/
theorem laneTakes_iff {s : State} {v : UnitRecord} {l : Lane} {axle weight free : Nat} :
    LaneTakes s v l axle weight free ↔
      (s.test1 v l && s.test2 v l && s.test3 axle l && s.test4 v l && s.test5 v l) = true ∧
        (s.test7 weight l && s.test8 v l free) = true := by
  rw [Bool.and_assoc (_ && _), Bool.and_eq_true, orderTests_iff]
  simp [LaneTakes, State.test1, State.test2, State.test3, test7_iff, test8_iff, and_assoc]

/-- The score that a contribution gives a lane (R72). -/
def State.scoreOf (s : State) (dMl dMt : Int) (free : Nat) : Score :=
  { absMl := (s.stb.ml + dMl).natAbs, dMt := trimDistance s.vessel (s.stb.mt + dMt), free := free }

theorem listImproves_iff {v : Vessel} {before after : Int} :
    listImproves v before after = true ↔ after.natAbs ≤ v.listLimit ∨ after.natAbs < before.natAbs := by
  simp [listImproves]

theorem trimImproves_iff {v : Vessel} {before after : Int} :
    trimImproves v before after = true ↔
      trimDistance v after = 0 ∨ trimDistance v after < trimDistance v before := by
  simp [trimImproves]

/-- Tests 9 and 10 pass when both moments improve, and the score is the contribution's. -/
theorem moments_eq_some_iff {s : State} {dMl dMt : Int} {free : Nat} {x : Score} :
    s.moments dMl dMt free = some x ↔ MomentsImprove s dMl dMt ∧ s.scoreOf dMl dMt free = x := by
  simp [State.moments, MomentsImprove, listImproves_iff, trimImproves_iff, State.scoreOf, Stability.ml, Stability.mt]

/-- The geometry of the ten tests, through the candidate's end (R69). -/
theorem tenTests_iff {s : State} {v : UnitRecord} {l : Lane} {free : Nat} :
    TenTests s v l free ↔ ∃ stop, s.candidateEnd l v.decl.length = some stop ∧ free = (s.laneFixed l).length - stop ∧
      LaneTakes s v l v.cls.axleEst v.decl.weight free ∧
      MomentsImprove s (v.decl.weight * (s.laneFixed l).y) (v.decl.weight * (s.laneFixed l).xMid) := by
  simp only [candidateEnd_eq_some_iff]
  constructor
  · rintro ⟨hfit, ⟨p, hlast, rfl⟩, htakes, hmoments⟩
    exact ⟨p.stop, ⟨hfit, p, hlast, rfl⟩, rfl, htakes, hmoments⟩
  · rintro ⟨_, ⟨hfit, p, hlast, rfl⟩, rfl, htakes, hmoments⟩
    exact ⟨hfit, ⟨p, hlast, rfl⟩, htakes, hmoments⟩

/-- A lane is scored for a placement when the ten tests pass (R65). -/
theorem admissible_eq_some_iff {s : State} {v : UnitRecord} {l : Lane} {x : Score} :
    s.admissible v l = some x ↔
      ∃ free, TenTests s v l free ∧
        s.scoreOf (v.decl.weight * (s.laneFixed l).y) (v.decl.weight * (s.laneFixed l).xMid) free = x := by
  unfold State.admissible
  simp only [tenTests_iff, laneTakes_iff]
  by_cases h : (s.test1 v l && s.test2 v l && s.test3 v.cls.axleEst l && s.test4 v l && s.test5 v l) = true
  · cases s.candidateEnd l v.decl.length with
    | none => simp
    | some stop => simp [h, moments_eq_some_iff, and_assoc]
  · simp [h]

/-- A lane of the crossed ramp with no reservations is scored for a redirect search when the tests of R84 pass. -/
theorem redirectAdmissible_eq_some_iff {s : State} {v : UnitRecord} {y : Redirect} {l : Lane} {x : Score} :
    ((s.laneFixed l).ramp = y.ramp ∧ (s.lane l).reservations = [] ∧ s.redirectAdmissible v y l = some x) ↔
      ∃ free, RedirectTests s v y l free ∧
        s.scoreOf (y.weightUsed * (s.laneFixed l).y)
          (y.weightUsed * (s.laneFixed l).xUnit (s.commitOffset l v.decl.length) v.decl.length) free = x := by
  unfold State.redirectAdmissible RedirectTests
  simp only [laneTakes_iff]
  by_cases h : (s.test1 v l && s.test2 v l && s.test3 y.axleFigure l && s.test4 v l && s.test5 v l) = true
  · simp [h, moments_eq_some_iff, and_assoc]
  · simp [h]

/-! ## The chosen lane (R72, R81, R84) -/

theorem pairwise_laneNumbers (s : State) : s.laneNumbers.Pairwise (· ≤ ·) :=
  List.Pairwise.filter _ ((List.pairwise_lt_finRange 96).imp le_of_lt)

/-- One lane's contribution comes before another's by the keys of R72. -/
theorem precedes_iff_keysBefore {s : State} {dMl dMt dMl' dMt' : Int} {free free' : Nat} {l k : Lane} :
    Precedes (l, s.scoreOf dMl dMt free) (k, s.scoreOf dMl' dMt' free') ↔
      keysBefore s dMl dMt free l dMl' dMt' free' k := by
  simp only [Precedes, Score.key_lt_iff, Score.key_injective.eq_iff, State.scoreOf, keysBefore, Score.mk.injEq]
  tauto

/-- Lanes with the scores of those that are scored, as the model lists them for the choice. -/
def scoredLanes (ls : List Lane) (score : Lane → Option Score) : List (Lane × Score) :=
  ls.filterMap fun l => (score l).map fun x => (l, x)

theorem mem_scoredLanes {ls : List Lane} {score : Lane → Option Score} {l : Lane} {x : Score} :
    (l, x) ∈ scoredLanes ls score ↔ l ∈ ls ∧ score l = some x := by
  simp [scoredLanes]

theorem pairwise_scoredLanes {ls : List Lane} (hls : ls.Pairwise (· ≤ ·)) (score : Lane → Option Score) :
    (scoredLanes ls score).Pairwise fun p q => p.1 ≤ q.1 := by
  refine hls.filterMap _ fun a b hab p hp q hq => ?_
  obtain ⟨_, _, rfl⟩ := Option.map_eq_some_iff.1 hp
  obtain ⟨_, _, rfl⟩ := Option.map_eq_some_iff.1 hq
  exact hab

/-- The choice among lanes in rising order, where a candidate is scored by its contribution: one is chosen exactly when
there is one, and none comes before it. -/
theorem chooseLane_best (s : State) {ls : List Lane} (hls : ls.Pairwise (· ≤ ·)) {score : Lane → Option Score}
    {candidate : Lane → Nat → Prop} {dMl dMt : Lane → Int}
    (hc : ∀ l x, (l ∈ ls ∧ score l = some x) ↔ ∃ free, candidate l free ∧ s.scoreOf (dMl l) (dMt l) free = x) :
    (chooseLane (scoredLanes ls score) = none ↔ ∀ l free, ¬ candidate l free) ∧
      ∀ l, chooseLane (scoredLanes ls score) = some l →
        ∃ free, candidate l free ∧ ∀ k free', candidate k free' →
          keysBefore s (dMl l) (dMt l) free l (dMl k) (dMt k) free' k := by
  simp only [← mem_scoredLanes] at hc
  refine ⟨?_, fun l hl => ?_⟩
  · rw [chooseLane_eq_none, List.eq_nil_iff_forall_not_mem, Prod.forall]
    simp only [hc]
    exact ⟨fun h l free hf => h l _ ⟨free, hf, rfl⟩, fun h l _ ⟨free, hf, _⟩ => h l free hf⟩
  · obtain ⟨x, hx, hfirst⟩ := chooseLane_precedes (pairwise_scoredLanes hls score) hl
    obtain ⟨free, hfree, rfl⟩ := (hc l x).1 hx
    exact ⟨free, hfree, fun k free' hk => precedes_iff_keysBefore.1 (hfirst _ ((hc k _).2 ⟨free', hk, rfl⟩))⟩

theorem mem_laneNumbers {s : State} {l : Lane} : l ∈ s.laneNumbers ↔ l.val < s.laneCount := by
  simp [State.laneNumbers]

/-- Settles O31: the model scores the lanes that pass the tests, and the choice is the first by the keys. -/
theorem chosenLaneIsBest : Obligations.ChosenLaneIsBest := by
  unfold Obligations.ChosenLaneIsBest
  refine fun s v => ⟨fun former => ?_, fun y => ?_⟩
  · refine chooseLane_best s ((pairwise_laneNumbers s).filter _) fun l x => ?_
    simp [mem_laneNumbers, admissible_eq_some_iff, and_assoc]
  · refine chooseLane_best s ((pairwise_laneNumbers s).filter _) fun l x => ?_
    simp [mem_laneNumbers, ← redirectAdmissible_eq_some_iff, and_assoc]

end Sys2Proof.Machine

namespace Sys2Proof.Machine

open Sys2Proof

/-! ## The reservation (R73) -/

/-- A step that keeps the Unit Table keeps the lookup. -/
theorem OnlyChanges.unit_eq {bs : List Block} {s u : State} (h : OnlyChanges bs s u) (hb : Block.units ∉ bs)
    (ref : Ref) : u.unit? ref = s.unit? ref := by
  have hunits : u.units = s.units := h .units hb
  simp only [State.unit?, hunits]

/-- What the reservation writes to the record. -/
def waitingIn (l : Lane) (v : UnitRecord) : UnitRecord :=
  { v with status := .waiting, lane := some l, age := 0, mark := false }

/-- The first half of the reservation: the lane's list and the sums, before the call queue and the record. -/
def State.promise (v : UnitRecord) (l : Lane) (s : State) : State :=
  (s.setLane l { s.lane l with reservations := (s.lane l).reservations ++ [v.decl.ref] }).addProvisional l v.decl.weight

theorem reserve_eq (s : State) (v : UnitRecord) (l : Lane) :
    s.reserve v l =
      ((s.promise v l).joinQueue (s.laneFixed l).ramp v.cls.priority true v.decl.ref).modUnit v.decl.ref
        (waitingIn l) :=
  rfl

theorem onlyChanges_promise (s : State) (v : UnitRecord) (l : Lane) : OnlyChanges [.lane l, .stb] s (s.promise v l) :=
  .trans ((onlyChanges_setLane s l _).mono (by simp)) ((onlyChanges_setStb _ _).mono (by simp))

theorem onlyChanges_joinQueue (s : State) (r : Ramp) (p b : Bool) (ref : Ref) :
    OnlyChanges [.link, .ramp r] s (s.joinQueue r p b ref) := fun x hx => by
  cases x with
  | ramp q => exact joinQueue_other _ _ _ _ (by simpa using hx)
  | link => simp at hx
  | _ => simp [sameBlock]

/-- The reservation touches the lane, the sums, the ramp's queues and the record, and on the link the gate's flag. -/
theorem onlyChanges_reserve (s : State) (v : UnitRecord) (l : Lane) :
    OnlyChanges [.link, .units, .lane l, .stb, .ramp (s.laneFixed l).ramp] s (s.reserve v l) := by
  rw [reserve_eq]
  exact .trans ((onlyChanges_promise s v l).mono (by simp)) (.trans ((onlyChanges_joinQueue _ _ _ _ _).mono (by simp))
    ((onlyChanges_modUnit _ _ _).mono (by simp)))

/-- The reservation tells nothing. -/
theorem reserve_news (s : State) (v : UnitRecord) (l : Lane) :
    OnlyNews s (s.reserve v l) ∧ Notified s (s.reserve v l) [] := by
  rw [reserve_eq]
  obtain ⟨hnotices, hsticky⟩ := joinQueue_notices (s.promise v l) (s.laneFixed l).ramp v.cls.priority true v.decl.ref
  exact ⟨joinQueue_onlyNews (s.promise v l) _ _ _ _, notified_nil hnotices hsticky⟩

theorem unitBecomes_reserve {s : State} {v : UnitRecord} (hv : s.unit? v.decl.ref = some v) (l : Lane) :
    UnitBecomes s (s.reserve v l) v.decl.ref (waitingIn l v) := by
  have hsame (r : Ref) :
      ((s.promise v l).joinQueue (s.laneFixed l).ramp v.cls.priority true v.decl.ref).unit? r = s.unit? r := by
    simp [State.promise]
  obtain ⟨hself, hother⟩ := unitBecomes_modUnit ((hsame _).trans hv) (waitingIn l) fun _ => rfl
  exact ⟨hself, fun r hr => (hother r hr).trans (hsame r)⟩

theorem reserved_reserve {s : State} {v : UnitRecord} (hv : s.unit? v.decl.ref = some v) (l : Lane) :
    Reserved s (s.reserve v l) v l where
  record := unitBecomes_reserve hv l
  lane := by simp [reserve_eq, State.promise]
  sums := by simp [reserve_eq, State.promise, addProvisional_stb]
  queue := by
    have hjoin := requeued_joinQueue (s.promise v l) (s.laneFixed l).ramp v.cls.priority true v.decl.ref
    simpa [Requeued, reserve_eq, State.promise] using hjoin

/-- An answer or a notice that follows leaves the reservation as it was made. -/
theorem Reserved.of_link {s u w : State} {v : UnitRecord} {l : Lane} (h : Reserved s u v l)
    (hw : OnlyChanges [.link] u w) (hflags : w.link.flags = u.link.flags) : Reserved s w v l where
  record := h.record.of_eq (hw.unit_eq (by simp))
  lane := (hw (.lane l) (by simp)).trans h.lane
  sums := (hw .stb (by simp)).trans h.sums
  queue := ⟨(hw (.ramp _) (by simp)).trans h.queue.1, hflags.trans h.queue.2⟩

/-- The reservation reads nothing of the allocator, so it may be told of the state before an item was taken. -/
theorem Reserved.of_setAlc {s u : State} {a : Allocator} {v : UnitRecord} {l : Lane}
    (h : Reserved (s.setAlc a) u v l) : Reserved s u v l := ⟨h.record, h.lane, h.sums, h.queue⟩

theorem placementLane_setAlc (s : State) (a : Allocator) (v : UnitRecord) (former : Option Lane) :
    (s.setAlc a).placementLane v former = s.placementLane v former := rfl

/-! ## What a placement tells (R12, R82) -/

theorem onlyChanges_tellPlacement (s : State) (ref : Ref) (cause : Cause) :
    OnlyChanges [.link] s (s.tellPlacement ref cause) := by
  cases cause with
  | checkIn t | present t | releaseHold t => exact onlyChanges_modLink s _
  | reallocation former =>
    unfold State.tellPlacement
    dsimp only
    split
    · exact onlyChanges_notify s _
    · exact .refl _ s

theorem tellPlacement_flags (s : State) (ref : Ref) (cause : Cause) :
    (s.tellPlacement ref cause).link.flags = s.link.flags := by
  cases cause with
  | checkIn t | present t | releaseHold t => rfl
  | reallocation former =>
    unfold State.tellPlacement
    dsimp only
    split
    · exact notify_flags s _
    · rfl

/-- Told after a placement that told nothing itself: the status, the priority and the lane are those of the record as it
stands. -/
theorem told_tellPlacement {s w : State} {ref : Ref} {x : UnitRecord} (cause : Cause) (hx : w.unit? ref = some x)
    (hnews : OnlyNews s w) (hquiet : Notified s w []) (hfixed : ∀ l, w.laneFixed l = s.laneFixed l) :
    Told s (w.tellPlacement ref cause) ref cause x.status x.cls.priority x.lane := by
  have hsite : w.site = fun l => { lane := l, deck := (s.laneFixed l).deck, ramp := (s.laneFixed l).ramp } := by
    funext l
    simp only [State.site, hfixed]
  have hreply : w.allocationReply ref = .allocation x.status x.cls.priority (x.lane.map w.site) := by
    simp only [State.allocationReply, hx]
  rw [hsite] at hreply
  obtain ⟨hrate, hrx, hbuffer, hreserved, hfilled, htx⟩ := hnews
  cases cause with
  | checkIn t | present t | releaseHold t =>
    refine ⟨hbuffer, htx, hrate, hrx, ?_, ?_, hquiet⟩
    · exact congrArg (·.erase t) hreserved
    · simp [State.tellPlacement, fill_link, hreply, hfilled]
  | reallocation former =>
    have htell : w.tellPlacement ref (.reallocation former) =
        w.notify (.relocated ref former x.status (x.lane.map w.site)) := by
      simp only [State.tellPlacement, hx]
    rw [hsite] at htell
    rw [htell]
    obtain ⟨hrate', hrx', hbuffer', hreserved', hfilled', htx'⟩ := onlyNews_notify w
      (.relocated ref former x.status (x.lane.map fun l =>
        { lane := l, deck := (s.laneFixed l).deck, ramp := (s.laneFixed l).ramp }))
    exact ⟨hbuffer'.trans hbuffer, htx'.trans htx, hrate'.trans hrate, hrx'.trans hrx, hreserved'.trans hreserved,
      hfilled'.trans hfilled, hquiet.trans (notified_notify w _)⟩

/-! ## PLACEMENT_SERVED (R63, R74) -/

/-- The state in which an item is served: it has left the front of the service input (R61). -/
def State.tookItem (rest : List Item) (s : State) : State := s.setAlc { s.alc with service := rest }

@[simp] theorem laneFixed_tookItem (s : State) (rest : List Item) (l : Lane) :
    (s.tookItem rest).laneFixed l = s.laneFixed l := rfl

theorem onlyChanges_tookItem (s : State) (rest : List Item) : OnlyChanges [.alc] s (s.tookItem rest) :=
  onlyChanges_setAlc s _

/-- What the failure writes to the record. -/
def unplacedAgain (v : UnitRecord) : UnitRecord := { v with status := .unplaced, lane := none, mark := false }

theorem unitBecomes_failPlacement {s : State} {ref : Ref} {v : UnitRecord} (hv : s.unit? ref = some v) :
    UnitBecomes s (s.failPlacement ref) ref (unplacedAgain v) := unitBecomes_modUnit hv unplacedAgain fun _ => rfl

theorem onlyChanges_failPlacement (s : State) (ref : Ref) : OnlyChanges [.units, .alc] s (s.failPlacement ref) :=
  .trans ((onlyChanges_modUnit s ref _).mono (by simp)) ((onlyChanges_setAlc _ _).mono (by simp))

theorem exec_placementServed_idle {s : State}
    (h : s.alc.walk ≠ [] ∨ ∀ ref cause, s.alc.service.head? ≠ some (.placement ref cause)) :
    exec .placementServed s = .next s := by
  change execPlacementServed s = _
  unfold execPlacementServed
  split
  · next hwalk =>
    split
    · next ref cause _ hserv => exact absurd (by rw [hserv]; rfl) (h.resolve_left (not_not.2 hwalk) ref cause)
    · rfl
  · rfl

theorem exec_placementServed_found {s : State} {ref : Ref} {cause : Cause} {more : List Item} {v : UnitRecord}
    (hwalk : s.alc.walk = []) (hserv : s.alc.service = .placement ref cause :: more) (hv : s.unit? ref = some v) :
    exec .placementServed s =
      .next (((s.tookItem more).servePlacement v cause.former).tellPlacement ref cause).startTx := by
  change execPlacementServed s = _
  simp [execPlacementServed, State.tookItem, hwalk, hserv, hv, finish]

theorem servePlacement_of_lane {s : State} {v : UnitRecord} {former : Option Lane} {l : Lane}
    (h : s.placementLane v former = some l) : s.servePlacement v former = s.reserve v l := by
  simp [State.servePlacement, h]

theorem servePlacement_of_none {s : State} {v : UnitRecord} {former : Option Lane}
    (h : s.placementLane v former = none) : s.servePlacement v former = s.failPlacement v.decl.ref := by
  simp [State.servePlacement, h]

/-- Settles O32: the reservation or the failure, and then what is told of it. -/
theorem placementIsServed : Obligations.PlacementIsServed := by
  unfold Obligations.PlacementIsServed
  refine fun s => ⟨exec_placementServed_idle, fun ref cause more v hwalk hserv hv => ?_⟩
  have hx := exec_placementServed_found hwalk hserv hv
  have htaken := onlyChanges_tookItem s more
  obtain rfl : v.decl.ref = ref := unit_ref hv
  refine ⟨fun l hl => ?_, fun hl => ?_⟩
  · rw [servePlacement_of_lane (s := s.tookItem more) hl] at hx
    have hres := reserved_reserve (s := s.tookItem more) hv l
    obtain ⟨hnews, hquiet⟩ := reserve_news (s.tookItem more) v l
    have htold := onlyChanges_tellPlacement ((s.tookItem more).reserve v l) v.decl.ref cause
    refine ⟨_, hx, (hres.of_link htold (tellPlacement_flags _ _ _)).of_setAlc, ?_, ?_, ?_⟩
    · exact (htold .alc (by simp)).trans (onlyChanges_reserve (s.tookItem more) v l .alc (by simp))
    · exact told_tellPlacement (s := s) cause hres.record.1 hnews hquiet fun k => by simp
    · exact .trans (htaken.mono (by simp)) (.trans ((onlyChanges_reserve _ v l).mono (by simp)) (htold.mono (by simp)))
  · rw [servePlacement_of_none (s := s.tookItem more) hl] at hx
    have hrec := unitBecomes_failPlacement (s := s.tookItem more) hv
    have htold := onlyChanges_tellPlacement ((s.tookItem more).failPlacement v.decl.ref) v.decl.ref cause
    refine ⟨_, hx, hrec.of_eq (htold.unit_eq (by simp)), htold .alc (by simp), ?_, tellPlacement_flags _ _ _, ?_⟩
    · exact told_tellPlacement (s := s) cause hrec.1 (onlyNews_of_link rfl) (notified_nil rfl rfl) fun _ => rfl
    · exact .trans (htaken.mono (by simp))
        (.trans ((onlyChanges_failPlacement _ _).mono (by simp)) (htold.mono (by simp)))

/-! ## RETRY_WALK and WALK_VISIT (R78) -/

theorem exec_retryWalk_idle {s : State} (h : s.alc.walk ≠ [] ∨ s.alc.service.head? ≠ some .walk) :
    exec .retryWalk s = .next s := by
  change execRetryWalk s = _
  unfold execRetryWalk
  split
  · next hwalk =>
    split
    · next hserv => exact absurd (by rw [hserv]; rfl) (h.resolve_left (not_not.2 hwalk))
    · rfl
  · rfl

theorem exec_retryWalk_begins {s : State} {more : List Item} (hwalk : s.alc.walk = [])
    (hserv : s.alc.service = .walk :: more) :
    exec .retryWalk s = .next (s.setAlc { s.alc with service := more, walk := s.alc.unplaced }).startTx := by
  change execRetryWalk s = _
  simp [execRetryWalk, hwalk, hserv, finish]

theorem exec_walkVisit_idle {s : State} (h : s.alc.walk = []) : exec .walkVisit s = .next s := by
  change execWalkVisit s = _
  simp [execWalkVisit, h, notNow]

theorem exec_walkVisit_found {s : State} {ref : Ref} {more : List Ref} {v : UnitRecord}
    (hwalk : s.alc.walk = ref :: more) (hv : s.unit? ref = some v) :
    exec .walkVisit s = .next ((s.setAlc { s.alc with walk := more }).visit v).startTx := by
  change execWalkVisit s = _
  simp [execWalkVisit, hwalk, hv, finish]

theorem visit_of_none {s : State} {v : UnitRecord} (h : s.placementLane v none = none) : s.visit v = s := by
  simp [State.visit, h]

/-- The state in which a visited entry is reserved: it has left the unplaced list, and the extent is what is left of it
(R75, R78). -/
def State.tookEntry (ref : Ref) (rest : List Ref) (s : State) : State :=
  s.setAlc { s.alc with unplaced := s.alc.unplaced.erase ref, walk := rest }

theorem onlyChanges_tookEntry (s : State) (ref : Ref) (rest : List Ref) : OnlyChanges [.alc] s (s.tookEntry ref rest) :=
  onlyChanges_setAlc s _

@[simp] theorem laneFixed_tookEntry (s : State) (ref : Ref) (rest : List Ref) (l : Lane) :
    (s.tookEntry ref rest).laneFixed l = s.laneFixed l := rfl

/-- A visited entry that finds a lane leaves the unplaced list; the rest of an extent without repetitions stays. -/
theorem visit_of_lane {s : State} {v : UnitRecord} {l : Lane} {more : List Ref} (h : s.placementLane v none = some l)
    (hn : v.decl.ref ∉ more) :
    (s.setAlc { s.alc with walk := more }).visit v = (s.tookEntry v.decl.ref more).reserve v l := by
  have hl : (s.setAlc { s.alc with walk := more }).placementLane v none = some l := h
  have hleave : (s.setAlc { s.alc with walk := more }).leaveUnplaced v.decl.ref =
      s.tookEntry v.decl.ref (more.erase v.decl.ref) := rfl
  simp only [State.visit, hl, hleave, List.erase_of_not_mem hn]

/-- Settles O33: the extent is copied from the unplaced list, and each of its entries is reserved or left. -/
theorem retryWalkVisitsTheExtent : Obligations.RetryWalkVisitsTheExtent := by
  unfold Obligations.RetryWalkVisitsTheExtent
  refine fun s => ⟨exec_retryWalk_idle, fun more hwalk hserv => ?_, exec_walkVisit_idle,
    fun ref more v hwalk hnodup hv => ?_⟩
  · exact ⟨_, exec_retryWalk_begins hwalk hserv, rfl, onlyChanges_setAlc s _⟩
  have hx := exec_walkVisit_found hwalk hv
  obtain rfl : v.decl.ref = ref := unit_ref hv
  refine ⟨fun l hl => ?_, fun hl => ?_⟩
  · have hfresh : v.decl.ref ∉ more := by
      rw [hwalk] at hnodup
      exact (List.nodup_cons.1 hnodup).1
    rw [visit_of_lane hl hfresh] at hx
    obtain ⟨hnews, hquiet⟩ := reserve_news (s.tookEntry v.decl.ref more) v l
    have hres := reserved_reserve (s := s.tookEntry v.decl.ref more) hv l
    have hframe := onlyChanges_reserve (s.tookEntry v.decl.ref more) v l
    exact ⟨_, hx, hres.of_setAlc, hframe .alc (by simp), hquiet, hnews,
      .trans ((onlyChanges_tookEntry s _ _).mono (by simp)) (hframe.mono (by simp))⟩
  · rw [visit_of_none ((placementLane_setAlc s _ v none).trans hl)] at hx
    exact ⟨_, hx, rfl, onlyChanges_setAlc s _⟩

end Sys2Proof.Machine

namespace Sys2Proof.Machine

open Sys2Proof

/-! ## REDIRECT_SEARCH (R84 to R86) -/

/-- What a crossing's results write to the record (R140). -/
theorem unitBecomes_writeCrossing {s : State} {ref : Ref} {v : UnitRecord} (x : CrossingResult) (redirected : Bool)
    (hv : s.unit? ref = some v) :
    UnitBecomes s (s.writeCrossing ref x redirected) ref (crossingRecord v x redirected) :=
  unitBecomes_modUnit hv (crossingRecord · x redirected) fun _ => rfl

theorem onlyChanges_writeCrossing (s : State) (ref : Ref) (x : CrossingResult) (redirected : Bool) :
    OnlyChanges [.units] s (s.writeCrossing ref x redirected) := onlyChanges_modUnit s ref _

theorem unitBecomes_board {s : State} {v : UnitRecord} (hv : s.unit? v.decl.ref = some v) (l : Lane)
    (offset weight : Nat) (x : CrossingResult) (redirected : Bool) :
    UnitBecomes s (s.board v l offset weight x redirected) v.decl.ref (boardedAt l offset x redirected v) :=
  (unitBecomes_modUnit hv (boardedAt l offset x redirected) fun _ => rfl).of_eq fun r => by
    simp only [State.unit?, board_records]

theorem fillOf_notify (s : State) (n : Notice) (d : Deck) : (s.notify n).fillOf d = s.fillOf d := by
  unfold State.notify
  split <;> rfl

/-- A notice that follows leaves the deck as it was refilled. -/
theorem Refilled.notify {s u : State} {d : Deck} (h : Refilled s u d) (n : Notice) : Refilled s (u.notify n) d := by
  simpa [Refilled, fillOf_notify, notify_flags] using h

theorem onlyChanges_setDeck (s : State) (d : Deck) (x : DeckRun) : OnlyChanges [.deck d] s (s.setDeck d x) :=
  fun b hb => by
  cases b with
  | deck e => exact State.deck_setDeck_other s x (by simpa using hb)
  | _ => rfl

theorem onlyChanges_setWarning (s : State) (d : Deck) (w : Bool) :
    OnlyChanges [.link, .deck d] s (s.setWarning d w) := by
  unfold State.setWarning
  dsimp only
  split
  · exact (onlyChanges_setDeck s d _).mono (by simp)
  · exact .trans ((onlyChanges_setDeck s d _).mono (by simp)) ((onlyChanges_modLink _ _).mono (by simp))

theorem onlyChanges_refill (s : State) (d : Deck) : OnlyChanges [.link, .deck d] s (s.refill d) :=
  .trans ((onlyChanges_setDeck s d _).mono (by simp)) (onlyChanges_setWarning _ d _)

/-- A refill tells nothing but the deck's flag. -/
theorem refill_news (s : State) (d : Deck) : OnlyNews s (s.refill d) ∧ Notified s (s.refill d) [] := by
  unfold State.refill State.examineWarning State.setWarning
  dsimp only
  split <;> exact ⟨⟨rfl, rfl, rfl, rfl, rfl, rfl⟩, notified_nil rfl rfl⟩

/-- The unit in its lane, in the sums and in its record, before the deck is refilled. -/
def State.stow (v : UnitRecord) (l : Lane) (offset weight : Nat) (x : CrossingResult) (redirected : Bool) (s : State) :
    State :=
  (((s.joinOccupants l v.decl.ref offset).addCommitted l weight offset v.decl.length).modUnit v.decl.ref
    (aboardAt l offset)).writeCrossing v.decl.ref x redirected

theorem board_eq_refill (s : State) (v : UnitRecord) (l : Lane) (offset weight : Nat) (x : CrossingResult)
    (redirected : Bool) :
    s.board v l offset weight x redirected = (s.stow v l offset weight x redirected).refill (s.laneFixed l).deck := rfl

theorem onlyChanges_stow (s : State) (v : UnitRecord) (l : Lane) (offset weight : Nat) (x : CrossingResult)
    (redirected : Bool) : OnlyChanges [.units, .lane l, .stb] s (s.stow v l offset weight x redirected) :=
  .trans ((onlyChanges_setLane s l _).mono (by simp)) (.trans ((onlyChanges_setStb _ _).mono (by simp))
    (.trans ((onlyChanges_modUnit _ _ _).mono (by simp)) ((onlyChanges_modUnit _ _ _).mono (by simp))))

theorem onlyChanges_board (s : State) (v : UnitRecord) (l : Lane) (offset weight : Nat) (x : CrossingResult)
    (redirected : Bool) :
    OnlyChanges [.link, .units, .lane l, .stb, .deck (s.laneFixed l).deck] s
      (s.board v l offset weight x redirected) := by
  rw [board_eq_refill]
  exact .trans ((onlyChanges_stow s v l offset weight x redirected).mono (by simp))
    ((onlyChanges_refill _ _).mono (by simp))

/-- A unit that becomes ABOARD tells nothing but its deck's flag. -/
theorem board_news (s : State) (v : UnitRecord) (l : Lane) (offset weight : Nat) (x : CrossingResult)
    (redirected : Bool) :
    OnlyNews s (s.board v l offset weight x redirected) ∧ Notified s (s.board v l offset weight x redirected) [] := by
  rw [board_eq_refill]
  exact refill_news (s.stow v l offset weight x redirected) _

theorem board_lane (s : State) (v : UnitRecord) (l : Lane) (offset weight : Nat) (x : CrossingResult)
    (redirected : Bool) :
    (s.board v l offset weight x redirected).lane l =
      { s.lane l with occupants := (s.lane l).occupants ++ [{ ref := v.decl.ref, offset := offset }] } := by
  simp [board_eq, State.joinOccupants]

theorem board_stb (s : State) (v : UnitRecord) (l : Lane) (offset weight : Nat) (x : CrossingResult)
    (redirected : Bool) :
    (s.board v l offset weight x redirected).stb = sumsWithAboard s l weight offset v.decl.length := by
  have hstb : (s.board v l offset weight x redirected).stb =
      ((s.joinOccupants l v.decl.ref offset).addCommitted l weight offset v.decl.length).stb := by
    simp [board_eq]
  exact hstb

theorem refilled_board (s : State) (v : UnitRecord) (l : Lane) (offset weight : Nat) (x : CrossingResult)
    (redirected : Bool) :
    Refilled s (s.board v l offset weight x redirected) (s.laneFixed l).deck := by
  rw [board_eq_refill]
  exact refilled_refill (s.stow v l offset weight x redirected) _

/-- A unit that becomes ABOARD, with the notice of it. -/
theorem board_then_notify {s : State} {v : UnitRecord} (hv : s.unit? v.decl.ref = some v) (l : Lane)
    (offset weight : Nat) (x : CrossingResult) (redirected : Bool) (n : Notice) :
    let u := (s.board v l offset weight x redirected).notify n
    OnlyNews s u ∧ UnitBecomes s u v.decl.ref (boardedAt l offset x redirected v) ∧
      u.lane l = { s.lane l with occupants := (s.lane l).occupants ++ [{ ref := v.decl.ref, offset := offset }] } ∧
      u.stb = sumsWithAboard s l weight offset v.decl.length ∧ Refilled s u (s.laneFixed l).deck ∧ u.alc = s.alc ∧
      Notified s u [n] ∧ OnlyChanges [.link, .units, .lane l, .stb, .deck (s.laneFixed l).deck] s u := by
  obtain ⟨hnews, hquiet⟩ := board_news s v l offset weight x redirected
  have hframe := onlyChanges_board s v l offset weight x redirected
  have htold := onlyChanges_notify (s.board v l offset weight x redirected) n
  exact ⟨hnews.trans (onlyNews_notify _ n),
    (unitBecomes_board hv l offset weight x redirected).of_eq (htold.unit_eq (by simp)),
    (htold (.lane l) (by simp)).trans (board_lane s v l offset weight x redirected),
    (htold .stb (by simp)).trans (board_stb s v l offset weight x redirected),
    (refilled_board s v l offset weight x redirected).notify n, (htold .alc (by simp)).trans (hframe .alc (by simp)),
    hquiet.trans (notified_notify _ n), .trans hframe (htold.mono (by simp))⟩

/-- A unit that is HELD with its crossing's results, with the notice of it. -/
theorem held_then_notify {s : State} {ref : Ref} {v : UnitRecord} (hv : s.unit? ref = some v) (x : CrossingResult)
    (n : Notice) :
    let u := ((s.setStatus ref .held).writeCrossing ref x false).notify n
    OnlyNews s u ∧ u.link.flags = s.link.flags ∧ UnitBecomes s u ref { crossingRecord v x false with status := .held } ∧
      u.alc = s.alc ∧ Notified s u [n] ∧ OnlyChanges [.link, .units] s u := by
  have hlink : ((s.setStatus ref .held).writeCrossing ref x false).link = s.link := rfl
  have hheld := unitBecomes_setStatus .held hv
  have hrec := hheld.trans (unitBecomes_writeCrossing x false hheld.1)
  have hframe := (onlyChanges_setStatus s ref .held).trans (onlyChanges_writeCrossing _ ref x false)
  have htold := onlyChanges_notify ((s.setStatus ref .held).writeCrossing ref x false) n
  exact ⟨(onlyNews_of_link hlink).trans (onlyNews_notify _ n), notify_flags _ n, hrec.of_eq (htold.unit_eq (by simp)),
    htold .alc (by simp), (notified_nil (s := s) rfl rfl).trans (notified_notify _ n),
    .trans (hframe.mono (by simp)) (htold.mono (by simp))⟩

theorem exec_redirectSearch_idle {s : State}
    (h : s.alc.walk ≠ [] ∨ ∀ y, s.alc.service.head? ≠ some (.redirect y)) : exec .redirectSearch s = .next s := by
  change execRedirectSearch s = _
  unfold execRedirectSearch
  split
  · next hwalk =>
    split
    · next y _ hserv => exact absurd (by rw [hserv]; rfl) (h.resolve_left (not_not.2 hwalk) y)
    · rfl
  · rfl

theorem exec_redirectSearch_found {s : State} {y : Redirect} {more : List Item} {v : UnitRecord}
    (hwalk : s.alc.walk = []) (hserv : s.alc.service = .redirect y :: more) (hv : s.unit? y.ref = some v) :
    exec .redirectSearch s = .next ((s.tookItem more).serveRedirect v y).startTx := by
  change execRedirectSearch s = _
  simp [execRedirectSearch, State.tookItem, hwalk, hserv, hv, finish]

/-- A search that finds a lane boards the unit there and tells so (R85, R139). -/
theorem serveRedirect_of_lane {s : State} {v : UnitRecord} {y : Redirect} {l : Lane} (h : s.redirectLane v y = some l) :
    s.serveRedirect v y =
      (s.board v l (s.commitOffset l v.decl.length) y.weightUsed y.result true).notify
        (.crossingResult y.ramp y.ref .redirected true y.reserved
          (some (l, (s.laneFixed l).deck, s.commitOffset l v.decl.length)) y.result) := by
  simp [State.serveRedirect, h]

/-- A search that finds none holds the unit and tells so (R86, R139). -/
theorem serveRedirect_of_none {s : State} {v : UnitRecord} {y : Redirect} (h : s.redirectLane v y = none) :
    s.serveRedirect v y =
      ((s.setStatus y.ref .held).writeCrossing y.ref y.result false).notify
        (.crossingResult y.ramp y.ref .held false y.reserved none y.result) := by
  simp [State.serveRedirect, h]

/-- Settles O34: the commit or the hold, and the notice. -/
theorem redirectSearchCommitsOrHolds : Obligations.RedirectSearchCommitsOrHolds := by
  unfold Obligations.RedirectSearchCommitsOrHolds
  refine fun s => ⟨exec_redirectSearch_idle, fun y more v hwalk hserv hv => ?_⟩
  have hx := exec_redirectSearch_found hwalk hserv hv
  have htaken := onlyChanges_tookItem s more
  refine ⟨fun l hl => ?_, fun hl => ?_⟩
  · rw [serveRedirect_of_lane (s := s.tookItem more) hl] at hx
    have href : v.decl.ref = y.ref := unit_ref hv
    have hfound : (s.tookItem more).unit? v.decl.ref = some v := href ▸ hv
    obtain ⟨hnews, hrec, hlane, hsums, hdeck, halc, htold, hframe⟩ := board_then_notify hfound l
      (s.commitOffset l v.decl.length) y.weightUsed y.result true (.crossingResult y.ramp y.ref .redirected true
        y.reserved (some (l, (s.laneFixed l).deck, s.commitOffset l v.decl.length)) y.result)
    rw [href] at hrec hlane
    exact ⟨_, hx, hnews, hrec, hlane, hsums, hdeck, halc, htold, .trans (htaken.mono (by simp)) (hframe.mono (by simp))⟩
  · rw [serveRedirect_of_none (s := s.tookItem more) hl] at hx
    obtain ⟨hnews, hflags, hrec, halc, htold, hframe⟩ := held_then_notify (s := s.tookItem more) hv y.result
      (.crossingResult y.ramp y.ref .held false y.reserved none y.result)
    exact ⟨_, hx, hnews, hflags, hrec, halc, htold, .trans (htaken.mono (by simp)) (hframe.mono (by simp))⟩

end Sys2Proof.Machine

namespace Sys2Proof.Machine

open Sys2Proof

/-! ## What the law of ramps and plates reads (R113, R125, R128)

`State.rampPair` is all that RampPlateLaw reads of a ramp. Most operations leave it as it is; the lemmas about the others
say what becomes of it. -/

/-- What RampPlateLaw reads of one ramp: the session, the ramp's state, whether its interval timer runs, its plate. -/
structure RampPair where
  session : Session
  state   : RampState
  timed   : Bool
  plate   : Plate

/-- Ramp `r` with its plate. -/
def State.rampPair (s : State) (r : Ramp) : RampPair :=
  { session := s.session, state := (s.ramp r).state, timed := (s.ramp r).intervalTimer.isSome, plate := s.plate r }

/-- RampPlateLaw for one ramp. -/
def RampPair.Lawful (x : RampPair) : Prop :=
  (x.state = .closed → x.plate.state = .disarmed) ∧
    (x.state = .opened → x.plate.state ≠ .disarmed) ∧
    (x.state = .closing → x.plate.state = .weighing) ∧
    (x.timed = true ↔ x.state = .opened) ∧
    (x.plate.state ≠ .weighing → x.plate = { Plate.reset with state := x.plate.state }) ∧
    (x.plate.state = .weighing →
      x.plate.gapTimer.isSome = true ∧ 1 ≤ x.plate.axleCount ∧ x.plate.axleCount ≤ 15) ∧
    (x.session ≠ .alongside → x.state = .closed)

theorem rampPlateLaw_iff {s : State} : RampPlateLaw s ↔ ∀ r, (s.rampPair r).Lawful := Iff.rfl

/-- The law in a state that agrees on what it reads. -/
theorem RampPlateLaw.congr {s u : State} (h : RampPlateLaw s) (e : u.rampPair = s.rampPair) : RampPlateLaw u := by
  rw [rampPlateLaw_iff, e]; exact h

theorem rampPair_congr {s u : State} (hs : u.session = s.session) (hc : u.csc = s.csc) (hp : u.plates = s.plates) :
    u.rampPair = s.rampPair := by
  funext r; simp only [State.rampPair, State.ramp, State.plate, hs, hc, hp]

section

variable (s : State)

/-! ### Updates elsewhere -/

@[simp] theorem rampPair_setPending (q : List Instr) : (s.setPending q).rampPair = s.rampPair := rfl
@[simp] theorem rampPair_modLink (f : Link → Link) : (s.modLink f).rampPair = s.rampPair := rfl
@[simp] theorem rampPair_setUnits (us : List UnitRecord) : (s.setUnits us).rampPair = s.rampPair := rfl
@[simp] theorem rampPair_modUnit (ref : Ref) (f : UnitRecord → UnitRecord) :
    (s.modUnit ref f).rampPair = s.rampPair := rfl
@[simp] theorem rampPair_setStatus (ref : Ref) (x : Status) : (s.setStatus ref x).rampPair = s.rampPair := rfl
@[simp] theorem rampPair_addUnit (v : UnitRecord) : (s.addUnit v).rampPair = s.rampPair := rfl
@[simp] theorem rampPair_retire (ref : Ref) : (s.retire ref).rampPair = s.rampPair := rfl
@[simp] theorem rampPair_setCheckIn (refs : List Ref) : (s.setCheckIn refs).rampPair = s.rampPair := rfl
@[simp] theorem rampPair_setAgeing (t : Timer) : (s.setAgeing t).rampPair = s.rampPair := rfl
@[simp] theorem rampPair_setLane (l : Lane) (x : LaneRun) : (s.setLane l x).rampPair = s.rampPair := rfl
@[simp] theorem rampPair_setLanes (x : Vector LaneRun 96) : (s.setLanes x).rampPair = s.rampPair := rfl
@[simp] theorem rampPair_setDeck (d : Deck) (x : DeckRun) : (s.setDeck d x).rampPair = s.rampPair := rfl
@[simp] theorem rampPair_setStb (x : Stability) : (s.setStb x).rampPair = s.rampPair := rfl
@[simp] theorem rampPair_setAlc (x : Allocator) : (s.setAlc x).rampPair = s.rampPair := rfl
@[simp] theorem rampPair_setComp (r : Ramp) (x : Comparator) : (s.setComp r x).rampPair = s.rampPair := rfl
@[simp] theorem rampPair_setHlm (x : HeelMonitor) : (s.setHlm x).rampPair = s.rampPair := rfl
@[simp] theorem rampPair_setPst (x : ProfileStore) : (s.setPst x).rampPair = s.rampPair := rfl
@[simp] theorem rampPair_setFreeCount (n : Nat) : (s.setFreeCount n).rampPair = s.rampPair := rfl
@[simp] theorem rampPair_setFlag (x : Subject) : (s.setFlag x).rampPair = s.rampPair := rfl
@[simp] theorem rampPair_setSticky (x : Sticky) : (s.setSticky x).rampPair = s.rampPair := rfl
@[simp] theorem rampPair_fill (t : Ticket) (r : Reply) : (s.fill t r).rampPair = s.rampPair := rfl
@[simp] theorem rampPair_refuse (t : Ticket) (r : Result) : (s.refuse t r).rampPair = s.rampPair := rfl
@[simp] theorem rampPair_handItem (x : Item) : (s.handItem x).rampPair = s.rampPair := rfl
@[simp] theorem rampPair_handOver (ref : Ref) (l : Lane) : (s.handOver ref l).rampPair = s.rampPair := rfl
@[simp] theorem rampPair_leaveUnplaced (ref : Ref) : (s.leaveUnplaced ref).rampPair = s.rampPair := rfl
@[simp] theorem rampPair_joinUnplaced (ref : Ref) : (s.joinUnplaced ref).rampPair = s.rampPair := rfl
@[simp] theorem rampPair_leaveLane (l : Lane) (ref : Ref) : (s.leaveLane l ref).rampPair = s.rampPair := rfl
@[simp] theorem rampPair_subProvisional (l : Lane) (w : Nat) : (s.subProvisional l w).rampPair = s.rampPair := rfl
@[simp] theorem rampPair_addProvisional (l : Lane) (w : Nat) : (s.addProvisional l w).rampPair = s.rampPair := rfl
@[simp] theorem rampPair_subCommitted (l : Lane) (w o n : Nat) : (s.subCommitted l w o n).rampPair = s.rampPair := rfl
@[simp] theorem rampPair_addCommitted (l : Lane) (w o n : Nat) : (s.addCommitted l w o n).rampPair = s.rampPair := rfl
@[simp] theorem rampPair_taken (f : Frame) (rest : List Frame) : (s.taken f rest).rampPair = s.rampPair := rfl

@[simp] theorem rampPair_startTx : s.startTx.rampPair = s.rampPair :=
  rampPair_congr (by simp) (by simp) (by simp)

@[simp] theorem rampPair_endTx : s.endTx.rampPair = s.rampPair := rampPair_congr (by simp) (by simp) (by simp)

@[simp] theorem rampPair_notify (n : Notice) : (s.notify n).rampPair = s.rampPair :=
  rampPair_congr (by simp) (by simp) (by simp)

@[simp] theorem rampPair_uncallNotice (r : Ramp) (x : UncallReason) (l : Option Lane) (ref : Ref) :
    (s.uncallNotice r x l ref).rampPair = s.rampPair := rampPair_notify s _

@[simp] theorem rampPair_triggerWalk : s.triggerWalk.rampPair = s.rampPair :=
  rampPair_congr (by simp) (by simp) (by simp)

@[simp] theorem rampPair_refill (d : Deck) : (s.refill d).rampPair = s.rampPair :=
  rampPair_congr (by simp) (by simp) (by simp)

@[simp] theorem rampPair_setWarning (d : Deck) (w : Bool) : (s.setWarning d w).rampPair = s.rampPair :=
  rampPair_congr (by simp) (by simp) (by simp)

@[simp] theorem rampPair_examineWarning (d : Deck) : (s.examineWarning d).rampPair = s.rampPair :=
  rampPair_congr (by simp) (by simp) (by simp)

@[simp] theorem rampPair_failPlacement (ref : Ref) : (s.failPlacement ref).rampPair = s.rampPair := rfl

@[simp] theorem rampPair_board (v : UnitRecord) (l : Lane) (o w : Nat) (x : CrossingResult) (b : Bool) :
    (s.board v l o w x b).rampPair = s.rampPair := rampPair_congr (by simp) (by simp) (by simp)

@[simp] theorem rampPair_writeCrossing (ref : Ref) (x : CrossingResult) (b : Bool) :
    (s.writeCrossing ref x b).rampPair = s.rampPair := rfl

@[simp] theorem rampPair_takeSample (a b : BitVec 8) (c : BitVec 10) : (s.takeSample a b c).rampPair = s.rampPair :=
  rampPair_congr (by simp) (by simp) (by simp)

@[simp] theorem rampPair_startSampling : s.startSampling.rampPair = s.rampPair := rfl

@[simp] theorem rampPair_stopMonitors : s.stopMonitors.rampPair = s.rampPair :=
  rampPair_congr (by simp) (by simp) (by simp)

/-! ### Updates of a ramp, of a plate, of the session -/

theorem rampPair_setRamp {r : Ramp} {x : RampRun} (q : Ramp) :
    (s.setRamp r x).rampPair q =
      if q = r then { s.rampPair q with state := x.state, timed := x.intervalTimer.isSome } else s.rampPair q := by
  cases q <;> cases r <;> rfl

theorem rampPair_setPlate {r : Ramp} {x : Plate} (q : Ramp) :
    (s.setPlate r x).rampPair q = if q = r then { s.rampPair q with plate := x } else s.rampPair q := by
  cases q <;> cases r <;> rfl

theorem rampPair_setSession (x : Session) (q : Ramp) :
    (s.setSession x).rampPair q = { s.rampPair q with session := x } := rfl

theorem rampPair_setRampState (r : Ramp) (x : RampState) (q : Ramp) :
    (s.setRampState r x).rampPair q = if q = r then { s.rampPair q with state := x } else s.rampPair q := by
  unfold State.setRampState
  dsimp only
  split
  all_goals
    simp only [rampPair_setFlag, rampPair_setRamp]
    split
    · next h => subst h; rfl
    · rfl

/-- A ramp's update that keeps its state, and its interval timer running or stopped. -/
theorem rampPair_setRamp_keeping {r : Ramp} {x : RampRun} (hs : x.state = (s.ramp r).state)
    (ht : x.intervalTimer.isSome = (s.ramp r).intervalTimer.isSome) : (s.setRamp r x).rampPair = s.rampPair := by
  funext q
  rw [rampPair_setRamp]
  split
  · next h => subst h; rw [hs, ht]; rfl
  · rfl

/-! ### Queues, called lists, reservations -/

@[simp] theorem rampPair_setGate (r : Ramp) (g : Bool) : (s.setGate r g).rampPair = s.rampPair := by
  unfold State.setGate
  dsimp only
  split
  · exact rampPair_setRamp_keeping s rfl rfl
  · exact rampPair_setRamp_keeping s rfl rfl

@[simp] theorem rampPair_examineGate (r : Ramp) : (s.examineGate r).rampPair = s.rampPair := rampPair_setGate s r _

@[simp] theorem rampPair_joinQueue (r : Ramp) (p b : Bool) (ref : Ref) :
    (s.joinQueue r p b ref).rampPair = s.rampPair := by
  unfold State.joinQueue
  rw [rampPair_examineGate]
  cases p <;> exact rampPair_setRamp_keeping s rfl rfl

@[simp] theorem rampPair_leaveQueue (r : Ramp) (ref : Ref) : (s.leaveQueue r ref).rampPair = s.rampPair := by
  unfold State.leaveQueue
  dsimp only
  split
  · rw [rampPair_examineGate]; exact rampPair_setRamp_keeping s rfl rfl
  · rfl

@[simp] theorem rampPair_timeHead (r : Ramp) : (s.timeHead r).rampPair = s.rampPair :=
  rampPair_setRamp_keeping s rfl rfl

@[simp] theorem rampPair_leaveCalled (r : Ramp) (ref : Ref) : (s.leaveCalled r ref).rampPair = s.rampPair := by
  have h : (s.setRamp r { s.ramp r with called := (s.ramp r).called.erase ref }).rampPair = s.rampPair :=
    rampPair_setRamp_keeping s rfl rfl
  unfold State.leaveCalled
  dsimp only
  split
  · rw [rampPair_timeHead, h]
  · exact h

@[simp] theorem rampPair_release (ref : Ref) : (s.release ref).rampPair = s.rampPair := by
  unfold State.release
  split
  · rfl
  · split <;> simp

@[simp] theorem rampPair_reserve (v : UnitRecord) (l : Lane) : (s.reserve v l).rampPair = s.rampPair := by
  unfold State.reserve; simp

end

/-- Operations on each of several things, one after another. -/
theorem rampPair_foldl {α : Type} {f : State → α → State} (h : ∀ s a, (f s a).rampPair = s.rampPair) (xs : List α)
    (s : State) : (xs.foldl f s).rampPair = s.rampPair := by
  induction xs generalizing s with
  | nil => rfl
  | cons x xs ih => exact (ih _).trans (h s x)

section

variable (s : State)

@[simp] theorem rampPair_reallocateAll (refs : List Ref) (l : Lane) :
    (s.reallocateAll refs l).rampPair = s.rampPair :=
  (rampPair_foldl (fun s ref => rampPair_handOver s ref l) refs _).trans (rampPair_foldl rampPair_release refs s)

@[simp] theorem rampPair_returnToWaiting (r : Ramp) (back : Bool) (ref : Ref) :
    (s.returnToWaiting r back ref).rampPair = s.rampPair := by
  unfold State.returnToWaiting; simp

@[simp] theorem rampPair_uncallToWaiting (r : Ramp) (l : Lane) (back : Bool) (x : UncallReason) (ref : Ref) :
    (s.uncallToWaiting r l back x ref).1.rampPair = s.rampPair := by
  have returned := rampPair_foldl fun s f => rampPair_returnToWaiting s r false f
  have told := fun carried => rampPair_foldl fun s f => rampPair_uncallNotice s r .follower carried f
  unfold State.uncallToWaiting
  dsimp only
  split <;> simp [returned, told, -List.foldl_reverse]

theorem rampPair_releaseFromLane (l : Lane) (ref : Ref) : (s.releaseFromLane l ref).rampPair = s.rampPair := by
  unfold State.releaseFromLane; dsimp only; split <;> simp

theorem rampPair_refit (l : Lane) : (s.refit l).1.rampPair = s.rampPair := by
  have released := rampPair_foldl fun s ref => rampPair_releaseFromLane s l ref
  have told := fun r => rampPair_foldl fun s ref => rampPair_uncallNotice s r .released none ref
  have handed := rampPair_foldl fun s ref => rampPair_handOver s ref l
  unfold State.refit
  dsimp only
  split <;> simp [released, told, handed, -List.foldl_reverse]

theorem rampPair_withdraw (l : Lane) : (s.withdraw l).1.rampPair = s.rampPair := by
  have handed := rampPair_foldl fun s ref => rampPair_handOver s ref l
  unfold State.withdraw
  split
  · rfl
  · dsimp only
    rw [handed, rampPair_foldl]
    · simp
    · intro v ref; split <;> simp [rampPair_releaseFromLane]

theorem rampPair_closeCalled (r : Ramp) (ref : Ref) : (s.closeCalled r ref).rampPair = s.rampPair := by
  unfold State.closeCalled; simp

theorem rampPair_servePlacement (v : UnitRecord) (former : Option Lane) :
    (s.servePlacement v former).rampPair = s.rampPair := by
  unfold State.servePlacement; split <;> simp

theorem rampPair_tellPlacement (ref : Ref) (cause : Cause) : (s.tellPlacement ref cause).rampPair = s.rampPair := by
  unfold State.tellPlacement
  cases cause with
  | reallocation former => dsimp only; split <;> simp
  | _ => exact rampPair_fill s _ _

theorem rampPair_visit (v : UnitRecord) : (s.visit v).rampPair = s.rampPair := by
  unfold State.visit; split <;> simp

theorem rampPair_serveRedirect (v : UnitRecord) (x : Redirect) : (s.serveRedirect v x).rampPair = s.rampPair := by
  unfold State.serveRedirect; split <;> simp

theorem rampPair_lapse (ref : Ref) : (s.lapse ref).rampPair = s.rampPair := by simp [State.lapse]

theorem rampPair_makeCall (r : Ramp) (v : UnitRecord) (l : Lane) (credit : Nat) :
    (s.makeCall r v l credit).rampPair = s.rampPair := by
  unfold State.makeCall
  dsimp only
  split
  all_goals
    simp only [rampPair_timeHead, rampPair_notify]
    refine (rampPair_setRamp_keeping _ ?_ ?_).trans (rampPair_leaveQueue s r v.decl.ref) <;> rfl

theorem rampPair_secondNoShow (r : Ramp) (v : UnitRecord) : (s.secondNoShow r v).rampPair = s.rampPair := by
  simp [State.secondNoShow]

theorem rampPair_firstNoShow (r : Ramp) (v : UnitRecord) (l : Lane) : (s.firstNoShow r v l).rampPair = s.rampPair := by
  simp [State.firstNoShow]

theorem rampPair_settle (r : Ramp) (p : Plate) (v : UnitRecord) : (s.settle r p v).rampPair = s.rampPair := by
  unfold State.settle
  split
  · split
    · unfold State.commit; dsimp only; split <;> simp
    · simp
  · simp

theorem rampPair_receiveBytes (bytes : List Byte) : (s.receiveBytes bytes).rampPair = s.rampPair := by
  refine rampPair_foldl (fun s b => ?_) bytes s
  unfold State.receiveByte State.acceptFrame
  dsimp only
  split
  · split_ifs <;> simp
  · simp

theorem rampPair_shutOut (ref : Ref) : (s.shutOut ref).rampPair = s.rampPair := by
  unfold State.shutOut; dsimp only; split <;> simp

theorem rampPair_forDecks {f : Deck → State → State} (h : ∀ d s, (f d s).rampPair = s.rampPair) :
    (s.forDecks f).rampPair = s.rampPair := rampPair_foldl (fun s d => h d s) allDecks s

@[simp] theorem rampPair_answerLoad : s.answerLoad.rampPair = s.rampPair := by
  unfold State.answerLoad; split <;> rfl

end

/-! ### Requests and commands that leave ramps and plates alone -/

theorem rampPair_finish {s v u : State} (h : v.rampPair = s.rampPair) (hu : finish v = .next u) :
    u.rampPair = s.rampPair := by
  cases hu; exact (rampPair_startTx v).trans h

theorem rampPair_notNow {s u : State} (hu : notNow s = .next u) : u.rampPair = s.rampPair := by cases hu; rfl

/-- A request's row leaves ramps and plates alone when its owner does. -/
theorem rampPair_handle {α : Type} {k : RequestKind} {parse : State → List Byte → Option α}
    {deckOf : State → α → Option Deck} {owner : Ticket → α → State → State} {s u : State}
    (ho : ∀ t req v, (owner t req v).rampPair = v.rampPair) (h : handle k parse deckOf owner s = .next u) :
    u.rampPair = s.rampPair := by
  obtain rfl | ⟨f, rest, -, ⟨r, rfl⟩ | ⟨req, -, -, rfl⟩⟩ := handle_next h
  · rfl
  · simp
  · simp [ho]

theorem rampPair_withUnit {s : State} {b : Bool} {t : Ticket} {ref : Ref} {go : UnitRecord → State}
    (h : ∀ v, (go v).rampPair = s.rampPair) : (s.withUnit b t ref go).rampPair = s.rampPair := by
  unfold State.withUnit
  split
  · rfl
  · split
    · rfl
    · exact h _

section

variable (s : State)

theorem rampPair_ownBook (t : Ticket) (d : Declared) : (ownBook t d s).rampPair = s.rampPair := by
  unfold ownBook; split_ifs <;> simp

theorem rampPair_ownAmend (t : Ticket) (q : Ref × Declared) : (ownAmend t q s).rampPair = s.rampPair :=
  rampPair_withUnit fun v => by split_ifs <;> simp

theorem rampPair_ownCancel (t : Ticket) (ref : Ref) : (ownCancel t ref s).rampPair = s.rampPair :=
  rampPair_withUnit fun v => by split <;> simp

theorem rampPair_ownCheckIn (t : Ticket) (q : Ref × Option Nat) : (ownCheckIn t q s).rampPair = s.rampPair :=
  rampPair_withUnit fun v => by split_ifs <;> rfl

theorem rampPair_ownPresent (t : Ticket) (ref : Ref) : (ownPresent t ref s).rampPair = s.rampPair :=
  rampPair_withUnit fun v => by split <;> rfl

theorem rampPair_ownHoldUnit (t : Ticket) (ref : Ref) : (ownHoldUnit t ref s).rampPair = s.rampPair :=
  rampPair_withUnit fun v => by split <;> simp

theorem rampPair_ownReleaseHold (t : Ticket) (ref : Ref) : (ownReleaseHold t ref s).rampPair = s.rampPair :=
  rampPair_withUnit fun v => by split_ifs <;> rfl

theorem rampPair_ownPlace (t : Ticket) (q : PlaceRequest) : (ownPlace t q s).rampPair = s.rampPair := by
  unfold ownPlace; split <;> simp [State.placeUnit]

theorem rampPair_ownDischarge (t : Ticket) (ref : Ref) : (ownDischarge t ref s).rampPair = s.rampPair :=
  rampPair_withUnit fun v => by
    split
    · split <;> simp [State.dischargeUnit]
    · rfl

theorem rampPair_ownSetRamp (t : Ticket) (q : RampSettings) : (ownSetRamp t q s).rampPair = s.rampPair :=
  rampPair_setRamp_keeping s rfl rfl

theorem rampPair_ownSkip (t : Ticket) (ref : Ref) : (ownSkip t ref s).rampPair = s.rampPair :=
  rampPair_withUnit fun v => by
    split
    · split <;> simp
    all_goals rfl

theorem rampPair_ownLaneClose (t : Ticket) (l : Lane) : (ownLaneClose t l s).rampPair = s.rampPair := by
  unfold ownLaneClose
  dsimp only
  split
  · split <;> simp
  · rfl

theorem rampPair_ownLaneOpen (t : Ticket) (l : Lane) : (ownLaneOpen t l s).rampPair = s.rampPair := by
  unfold ownLaneOpen; dsimp only; split <;> simp

theorem rampPair_ownObstructionAdd (t : Ticket) (q : SpanRequest) : (ownObstructionAdd t q s).rampPair = s.rampPair := by
  unfold ownObstructionAdd
  dsimp only
  split_ifs
  · rfl
  · rw [rampPair_fill, rampPair_refit, rampPair_setLane]
  · rw [rampPair_fill, rampPair_withdraw]

theorem rampPair_ownObstructionClear (t : Ticket) (q : SpanRequest) :
    (ownObstructionClear t q s).rampPair = s.rampPair := by
  unfold ownObstructionClear; dsimp only; split <;> simp

theorem rampPair_ownSetBallast (t : Ticket) (q : Int × Int) : (ownSetBallast t q s).rampPair = s.rampPair := by
  unfold ownSetBallast; simp

theorem rampPair_ownProfileWrite (prot : Bool) (t : Ticket) (q : ChunkRequest) :
    (ownProfileWrite prot t q s).rampPair = s.rampPair := by
  unfold ownProfileWrite
  split_ifs
  · rfl
  · rfl
  · split <;> rfl

theorem rampPair_ownQueryUnit (t : Ticket) (ref : Ref) : (ownQueryUnit t ref s).rampPair = s.rampPair :=
  rampPair_withUnit fun _ => rfl

end

variable {s u : State}

theorem rampPair_execBadKindRequest (h : execBadKindRequest s = .next u) : u.rampPair = s.rampPair := by
  unfold execBadKindRequest at h
  split at h
  · exact rampPair_notNow h
  · next f s' ht =>
    obtain ⟨rest, -, rfl⟩ := takeFrame_eq_some ht
    split at h
    · exact rampPair_finish (v := (s.taken f rest).refuse _ _) rfl h
    · exact rampPair_notNow h

theorem rampPair_execFrameSent (h : execFrameSent s = .next u) : u.rampPair = s.rampPair := by
  unfold execFrameSent at h
  split at h
  · exact rampPair_notNow h
  · exact rampPair_finish (rampPair_endTx s) h

theorem rampPair_execProfileWriteEnd {stored : List Byte} (h : execProfileWriteEnd stored s = .next u) :
    u.rampPair = s.rampPair := by
  unfold execProfileWriteEnd at h
  split at h
  · next w _ => exact rampPair_finish (v := s.endWrite w stored) rfl h
  · exact rampPair_notNow h

theorem rampPair_execWriteTimeout {partsDone : Nat} {mix : List Byte} (h : execWriteTimeout partsDone mix s = .next u) :
    u.rampPair = s.rampPair := by
  unfold execWriteTimeout at h
  split at h
  · next w _ => exact rampPair_finish (v := s.failWrite w partsDone mix) rfl h
  · exact rampPair_notNow h

theorem rampPair_execPlacementServed (h : execPlacementServed s = .next u) : u.rampPair = s.rampPair := by
  unfold execPlacementServed at h
  split at h
  · split at h
    · dsimp only at h
      split at h
      · exact rampPair_finish (by simp [rampPair_tellPlacement, rampPair_servePlacement]) h
      · exact rampPair_finish (by simp [rampPair_tellPlacement]) h
    · exact rampPair_notNow h
  · exact rampPair_notNow h

theorem rampPair_execRetryWalk (h : execRetryWalk s = .next u) : u.rampPair = s.rampPair := by
  unfold execRetryWalk at h
  split at h
  · split at h
    · exact rampPair_finish (rampPair_setAlc s _) h
    · exact rampPair_notNow h
  · exact rampPair_notNow h

theorem rampPair_execWalkVisit (h : execWalkVisit s = .next u) : u.rampPair = s.rampPair := by
  unfold execWalkVisit at h
  split at h
  · exact rampPair_notNow h
  · dsimp only at h
    split at h
    · exact rampPair_finish (by simp [rampPair_visit]) h
    · exact rampPair_finish (rampPair_setAlc s _) h

theorem rampPair_execRedirectSearch (h : execRedirectSearch s = .next u) : u.rampPair = s.rampPair := by
  unfold execRedirectSearch at h
  split at h
  · split at h
    · dsimp only at h
      split at h
      · exact rampPair_finish (by simp [rampPair_serveRedirect]) h
      · exact rampPair_finish (rampPair_setAlc s _) h
    · exact rampPair_notNow h
  · exact rampPair_notNow h

theorem rampPair_execAgeingExpiry (h : execAgeingExpiry s = .next u) : u.rampPair = s.rampPair := by
  unfold execAgeingExpiry at h
  split at h
  · refine rampPair_finish ?_ h
    have lapsed := rampPair_foldl rampPair_lapse (s.setAgeing (some s.agePeriodMs)).ageAll.lapsing
      (s.setAgeing (some s.agePeriodMs)).ageAll
    split
    · exact lapsed
    · exact (rampPair_triggerWalk _).trans lapsed
  · exact rampPair_notNow h

theorem rampPair_execCall {r : Ramp} (h : execCall r s = .next u) : u.rampPair = s.rampPair := by
  unfold execCall at h
  split at h
  · split at h
    · split at h
      · split at h
        · exact rampPair_finish (rampPair_makeCall s r _ _ _) h
        · exact rampPair_notNow h
      · exact rampPair_notNow h
    · exact rampPair_notNow h
  · exact rampPair_notNow h

theorem rampPair_execCallTimerExpiry {r : Ramp} (h : execCallTimerExpiry r s = .next u) : u.rampPair = s.rampPair := by
  unfold execCallTimerExpiry at h
  split at h
  · split at h
    · split at h
      · split at h
        · refine rampPair_finish ?_ h
          split
          · exact rampPair_firstNoShow s r _ _
          · exact rampPair_secondNoShow s r _
        · exact rampPair_notNow h
      · exact rampPair_notNow h
    · exact rampPair_notNow h
  · exact rampPair_notNow h

theorem rampPair_execSampleTimerExpiry {gradA gradB : BitVec 8} {incl : BitVec 10}
    (h : execSampleTimerExpiry gradA gradB incl s = .next u) : u.rampPair = s.rampPair := by
  unfold execSampleTimerExpiry at h
  split at h
  · exact rampPair_finish (by simp) h
  · exact rampPair_notNow h

/-- The interval timer that expires runs on, with its full period (R113). -/
theorem rampPair_execIntervalTimerExpiry {r : Ramp} (h : execIntervalTimerExpiry r s = .next u) :
    u.rampPair = s.rampPair := by
  unfold execIntervalTimerExpiry at h
  split at h
  · next ht =>
    refine rampPair_finish (rampPair_setRamp_keeping s ?_ ?_) h
    · rfl
    · rw [ht]; rfl
  · exact rampPair_notNow h

end Sys2Proof.Machine

namespace Sys2Proof.Machine

open Sys2Proof

/-! ## The four conditions of a ramp (R105 to R107, R125 to R132) -/

/-- A WEIGHING plate in the middle of a crossing. -/
def Plate.Crossing (p : Plate) : Prop :=
  p.state = .weighing ∧ p.gapTimer.isSome = true ∧ 1 ≤ p.axleCount ∧ p.axleCount ≤ 15

section

variable {x : RampPair}

theorem lawful_closed (session : Session) : RampPair.Lawful ⟨session, .closed, false, Plate.reset⟩ :=
  ⟨fun _ => rfl, nofun, nofun, by simp, fun _ => rfl, nofun, fun _ => rfl⟩

theorem lawful_idle : RampPair.Lawful ⟨.alongside, .opened, true, { Plate.reset with state := .idle }⟩ :=
  ⟨nofun, nofun, nofun, by simp, fun _ => rfl, nofun, fun h => absurd rfl h⟩

theorem lawful_crossing {p : Plate} (h : p.Crossing) : RampPair.Lawful ⟨.alongside, .opened, true, p⟩ :=
  ⟨nofun, fun _ => by simp [h.1], nofun, by simp, fun hw => absurd h.1 hw, fun _ => h.2, fun hn => absurd rfl hn⟩

theorem lawful_closing {p : Plate} (h : p.Crossing) : RampPair.Lawful ⟨.alongside, .closing, false, p⟩ :=
  ⟨nofun, nofun, fun _ => h.1, by simp, fun hw => absurd h.1 hw, fun _ => h.2, fun hn => absurd rfl hn⟩

theorem RampPair.Lawful.of_closed (h : x.Lawful) (hc : x.state = .closed) :
    x = ⟨x.session, .closed, false, Plate.reset⟩ := by
  obtain ⟨session, state, timed, p⟩ := x
  obtain ⟨hd, -, -, ht, hr, -, -⟩ := h
  obtain rfl : state = .closed := hc
  have hplate : p.state = .disarmed := hd rfl
  have hreset : p = { Plate.reset with state := p.state } := hr (by simp [hplate])
  have htimed : timed = false := by simpa using ht
  rw [hreset, hplate, htimed]
  rfl

theorem RampPair.Lawful.along (h : x.Lawful) (hc : x.state ≠ .closed) : x.session = .alongside := by
  obtain ⟨-, -, -, -, -, -, hs⟩ := h
  exact by_contra fun hn => hc (hs hn)

/-- An OPEN ramp's plate is IDLE, or a crossing is on it. -/
theorem RampPair.Lawful.of_opened (h : x.Lawful) (ho : x.state = .opened) :
    x = ⟨.alongside, .opened, true, { Plate.reset with state := .idle }⟩ ∨
      (x.plate.Crossing ∧ x = ⟨.alongside, .opened, true, x.plate⟩) := by
  have ha := h.along (by simp [ho])
  obtain ⟨session, state, timed, p⟩ := x
  obtain ⟨-, hd, -, ht, hr, hw, -⟩ := h
  obtain rfl : state = .opened := ho
  obtain rfl : session = .alongside := ha
  obtain rfl : timed = true := ht.2 rfl
  by_cases hp : p.state = .weighing
  · exact .inr ⟨⟨hp, hw hp⟩, rfl⟩
  · have hidle : p.state = .idle := by
      have hne : p.state ≠ .disarmed := hd rfl
      revert hp hne
      cases p.state <;> simp
    have hreset : p = { Plate.reset with state := p.state } := hr hp
    rw [hreset, hidle]
    exact .inl rfl

/-- A CLOSING ramp has a crossing on its plate. -/
theorem RampPair.Lawful.of_closing (h : x.Lawful) (hc : x.state = .closing) :
    x.plate.Crossing ∧ x = ⟨.alongside, .closing, false, x.plate⟩ := by
  have ha := h.along (by simp [hc])
  obtain ⟨session, state, timed, p⟩ := x
  obtain ⟨-, -, hw, ht, -, hp, -⟩ := h
  obtain rfl : state = .closing := hc
  obtain rfl : session = .alongside := ha
  have htimed : timed = false := by simpa using ht
  exact ⟨⟨hw rfl, hp (hw rfl)⟩, by rw [htimed]⟩

end

variable {s u : State}

/-! ## RampPlateLaw, command by command (R105 to R107, R125 to R132, R163 to R168) -/

theorem paired_finish {v : State} (h : RampPlateLaw v) (hu : finish v = .next u) : RampPlateLaw u := by
  cases hu; exact h.congr (rampPair_startTx v)

/-- A request's row keeps the law when its owner does, in a session that admits it. -/
theorem paired_handle {α : Type} {k : RequestKind} {parse : State → List Byte → Option α}
    {deckOf : State → α → Option Deck} {owner : Ticket → α → State → State} (hs : RampPlateLaw s)
    (ho : ∀ t req v, admits v.session k = true → RampPlateLaw v → RampPlateLaw (owner t req v))
    (h : handle k parse deckOf owner s = .next u) : RampPlateLaw u := by
  obtain rfl | ⟨f, rest, -, ⟨r, rfl⟩ | ⟨req, -, ha, rfl⟩⟩ := handle_next h
  · exact hs
  · exact hs.congr (by simp)
  · exact (ho f.ticket req (s.taken f rest) ha hs).congr (by simp)

/-- The law after an operation on one ramp. -/
theorem RampPlateLaw.of_ramp {r : Ramp} (hs : RampPlateLaw s) (h : (u.rampPair r).Lawful)
    (ho : ∀ q, q ≠ r → u.rampPair q = s.rampPair q) : RampPlateLaw u :=
  rampPlateLaw_iff.2 fun q => by
    by_cases hq : q = r
    · subst hq; exact h
    · rw [ho q hq]; exact rampPlateLaw_iff.1 hs q

theorem RampPlateLaw.lawful (hs : RampPlateLaw s) (r : Ramp) : (s.rampPair r).Lawful := hs r

/-- Outside ALONGSIDE both ramps are CLOSED, with their plates as at reset. -/
theorem RampPlateLaw.not_alongside (hs : RampPlateLaw s) (h : s.session ≠ .alongside) (r : Ramp) :
    s.rampPair r = ⟨s.session, .closed, false, Plate.reset⟩ := by
  refine (hs.lawful r).of_closed ?_
  obtain ⟨-, -, -, -, -, -, hc⟩ := hs r
  exact hc h

/-- Outside ALONGSIDE the session may change to any other. -/
theorem RampPlateLaw.setSession (hs : RampPlateLaw s) (h : s.session ≠ .alongside) (x : Session) :
    RampPlateLaw (s.setSession x) := rampPlateLaw_iff.2 fun r => by
  rw [rampPair_setSession, hs.not_alongside h]
  exact lawful_closed x

/-! ### RAMP_OPEN and RAMP_CLOSE -/

theorem admits_rampOpen {x : Session} (h : admits x .rampOpen = true) : x = .alongside := by
  revert h; cases x <;> decide

theorem paired_ownRampOpen (t : Ticket) (r : Ramp) (ha : admits s.session .rampOpen = true) (hs : RampPlateLaw s) :
    RampPlateLaw (ownRampOpen t r s) := by
  unfold ownRampOpen
  dsimp only
  split
  · next hc =>
    have hp : s.plate r = Plate.reset := congrArg RampPair.plate ((hs.lawful r).of_closed hc)
    refine hs.of_ramp (r := r) ?_ fun q hq => by
      simp [rampPair_setPlate, rampPair_setRamp, rampPair_setRampState, hq]
    simpa [rampPair_setPlate, rampPair_setRamp, rampPair_setRampState, setRampState_ramp, State.rampPair,
      admits_rampOpen ha, hp] using lawful_idle
  · exact hs

theorem rampPair_closeRamp (s : State) (r q : Ramp) :
    (s.closeRamp r).rampPair q =
      if q = r then { s.rampPair q with state := .closed, plate := { s.plate r with state := .disarmed } }
      else s.rampPair q := by
  unfold State.closeRamp
  dsimp only
  rw [rampPair_setPlate, rampPair_setRampState]
  split <;> simp

/-- A ramp as RAMP_CLOSE finds it OPEN and leaves it CLOSING, its timers stopped (R106). -/
def State.beginClose (r : Ramp) (s : State) : State :=
  (s.setRampState r .closing).setRamp r
    { (s.setRampState r .closing).ramp r with intervalTimer := none, callTimer := none }

/-- The CALLED units of a ramp, then its queues, released and handed over in one burst (R106). -/
def State.emptyRamp (s : State) (r : Ramp) (called queued : List Ref) : State :=
  (called ++ queued).foldl (handOverFrom (laneOf s))
    (queued.foldl (fun s ref => s.release ref) (called.foldl (fun s ref => s.closeCalled r ref) (s.beginClose r)))

theorem ownRampClose_opened {t : Ticket} {r : Ramp} (h : (s.ramp r).state = .opened) :
    ownRampClose t r s =
      let called := s.withStatus .called (s.ramp r).called
      let queued := (s.ramp r).prio ++ (s.ramp r).ord
      let v := s.emptyRamp r called queued
      let u := if (s.plate r).state = .idle then v.closeRamp r else v
      u.fill t (.rampClosed (u.ramp r).state (called ++ queued).length) := by
  unfold ownRampClose
  simp only [h, if_true]
  rfl

theorem rampPair_beginClose (s : State) (r q : Ramp) :
    (s.beginClose r).rampPair q =
      if q = r then { s.rampPair q with state := .closing, timed := false } else s.rampPair q := by
  unfold State.beginClose
  rw [rampPair_setRamp, rampPair_setRampState, setRampState_ramp]
  split <;> simp

/-- Releases and hand-overs leave ramps and plates alone. -/
theorem rampPair_emptyRamp (s : State) (r : Ramp) (called queued : List Ref) :
    (s.emptyRamp r called queued).rampPair = (s.beginClose r).rampPair := by
  have handed := rampPair_foldl (f := handOverFrom (laneOf s)) fun s ref => by unfold handOverFrom; split <;> rfl
  have released := rampPair_foldl fun s ref => rampPair_release s ref
  have closed := rampPair_foldl fun s ref => rampPair_closeCalled s r ref
  unfold State.emptyRamp
  rw [handed, released, closed]

theorem paired_ownRampClose (t : Ticket) (r : Ramp) (hs : RampPlateLaw s) : RampPlateLaw (ownRampClose t r s) := by
  by_cases ho : (s.ramp r).state = .opened
  · rw [ownRampClose_opened ho]
    dsimp only
    generalize s.withStatus .called (s.ramp r).called = called
    generalize (s.ramp r).prio ++ (s.ramp r).ord = queued
    have he := rampPair_emptyRamp s r called queued
    generalize s.emptyRamp r called queued = v at he ⊢
    have hv (q : Ramp) : v.rampPair q = _ := (congrFun he q).trans (rampPair_beginClose s r q)
    have hplate : v.plate r = s.plate r :=
      (congrArg RampPair.plate (hv r)).trans (by rw [if_pos rfl]; rfl)
    refine hs.of_ramp (r := r) ?_ fun q hq => by
      rw [rampPair_fill]; split <;> simp [rampPair_closeRamp, hv, hq]
    rw [rampPair_fill]
    rcases (hs.lawful r).of_opened ho with e | ⟨hc, e⟩
    · have hi : s.plate r = { Plate.reset with state := .idle } := congrArg RampPair.plate e
      rw [if_pos (by simp [hi]), rampPair_closeRamp, if_pos rfl, hv, if_pos rfl, e, hplate, hi]
      exact lawful_closed _
    · have hn : (s.plate r).state ≠ .idle := by rw [show (s.plate r).state = .weighing from hc.1]; nofun
      rw [if_neg hn, hv, if_pos rfl, e]
      exact lawful_closing hc
  · unfold ownRampClose
    simp only [ho, if_false]
    exact hs

/-! ### Crossings -/

/-- A crossing is on the plate (R126 to R128). -/
theorem RampPair.Lawful.weighing {x : RampPair} (h : x.Lawful) (hw : x.plate.state = .weighing) :
    x.plate.Crossing ∧
      (x = ⟨.alongside, .opened, true, x.plate⟩ ∨ x = ⟨.alongside, .closing, false, x.plate⟩) := by
  have hc : x.plate.Crossing := by
    obtain ⟨-, -, -, -, -, hp, -⟩ := h
    exact ⟨hw, hp hw⟩
  cases hst : x.state with
  | closed =>
    rw [h.of_closed hst] at hw
    cases hw
  | opened =>
    rcases h.of_opened hst with e | ⟨-, e⟩
    · rw [e] at hw; cases hw
    · exact ⟨hc, .inl e⟩
  | closing => exact ⟨hc, .inr (h.of_closing hst).2⟩

/-- The plate of a crossing is replaced by one that is still in a crossing. -/
theorem RampPlateLaw.setPlate_crossing {r : Ramp} {p : Plate} (hs : RampPlateLaw s)
    (hw : (s.plate r).state = .weighing) (hp : p.Crossing) : RampPlateLaw (s.setPlate r p) := by
  refine hs.of_ramp (r := r) ?_ fun q hq => by simp [rampPair_setPlate, hq]
  rw [rampPair_setPlate, if_pos rfl]
  rcases ((hs.lawful r).weighing hw).2 with e | e <;> rw [e]
  · exact lawful_crossing hp
  · exact lawful_closing hp

/-- An IDLE plate belongs to an OPEN ramp. -/
theorem RampPair.Lawful.idle {x : RampPair} (h : x.Lawful) (hi : x.plate.state = .idle) :
    x = ⟨.alongside, .opened, true, { Plate.reset with state := .idle }⟩ := by
  cases hst : x.state with
  | closed =>
    rw [h.of_closed hst] at hi
    cases hi
  | opened =>
    rcases h.of_opened hst with e | ⟨hc, -⟩
    · exact e
    · exact absurd (hi.symm.trans hc.1) nofun
  | closing => exact absurd (hi.symm.trans (h.of_closing hst).1.1) nofun

theorem crossing_opened (gap : Nat) (ref : Option Ref) : (Plate.opened gap ref).Crossing :=
  ⟨rfl, rfl, le_refl 1, by simp [Plate.opened]⟩

theorem crossing_counted (gap : Nat) {p : Plate} (h : p.Crossing) : (p.counted gap).Crossing := by
  obtain ⟨hw, -, -, -⟩ := h
  exact ⟨hw, rfl, by simp [Plate.counted, Config.axleCountMax], by simp [Plate.counted, Config.axleCountMax]⟩

theorem crossing_converted (load : Nat) {p : Plate} (h : p.Crossing) : (p.converted load).Crossing := h

theorem rampPair_openCrossing (s : State) (r q : Ramp) :
    (s.openCrossing r).rampPair q =
      if q = r then { s.rampPair q with plate := Plate.opened (s.crossingGapMs r) (s.ramp r).called.head? }
      else s.rampPair q := by
  unfold State.openCrossing
  dsimp only
  split
  · rw [rampPair_setRamp_keeping, rampPair_setStatus, rampPair_setPlate]
    all_goals simp
  · rw [rampPair_setSticky, rampPair_setPlate]

/-- AXLE_EDGE at an IDLE plate opens a crossing, at a WEIGHING one counts the edge (R125 to R128). -/
theorem paired_execAxleEdge {r : Ramp} (hs : RampPlateLaw s) (h : execAxleEdge r s = .next u) : RampPlateLaw u := by
  unfold execAxleEdge at h
  split at h
  · cases h; exact hs
  · next hi =>
    refine paired_finish (hs.of_ramp (r := r) ?_ fun q hq => by simp [rampPair_openCrossing, hq]) h
    rw [rampPair_openCrossing, if_pos rfl, (hs.lawful r).idle hi]
    exact lawful_crossing (crossing_opened _ _)
  · next hw => exact paired_finish (hs.setPlate_crossing hw (crossing_counted _ ((hs.lawful r).weighing hw).1)) h

/-- A conversion runs at a WEIGHING plate alone: any other holds its starting values (R124, R129). -/
theorem paired_execConversionComplete {r : Ramp} {code : BitVec 10} (hs : RampPlateLaw s)
    (h : execConversionComplete r code s = .next u) : RampPlateLaw u := by
  unfold execConversionComplete at h
  split at h
  · next hb =>
    have hw : (s.plate r).state = .weighing := by
      by_contra hn
      obtain ⟨-, -, -, -, hr, -, -⟩ := hs r
      rw [hr hn] at hb
      cases hb
    exact paired_finish (hs.setPlate_crossing hw (crossing_converted _ ((hs.lawful r).weighing hw).1)) h
  · cases h; exact hs

theorem rampPair_clearPlate (s : State) (r q : Ramp) :
    (s.clearPlate r).rampPair q =
      if q = r then
        match (s.ramp r).state with
        | .opened => { s.rampPair q with plate := { Plate.reset with state := .idle } }
        | .closing => { s.rampPair q with state := .closed, plate := Plate.reset }
        | .closed => { s.rampPair q with plate := Plate.reset }
      else s.rampPair q := by
  unfold State.clearPlate
  cases (s.ramp r).state <;> dsimp only <;>
    simp only [rampPair_closeRamp, rampPair_setPlate] <;> split <;> simp [Plate.reset]

/-- The crossing ends: an OPEN ramp's plate is IDLE again, a CLOSING ramp is CLOSED (R107, R132). -/
theorem RampPlateLaw.clearPlate {r : Ramp} (hs : RampPlateLaw s) (hw : (s.plate r).state = .weighing) :
    RampPlateLaw (s.clearPlate r) := by
  refine hs.of_ramp (r := r) ?_ fun q hq => by rw [rampPair_clearPlate, if_neg hq]
  rw [rampPair_clearPlate, if_pos rfl]
  rcases ((hs.lawful r).weighing hw).2 with e | e
  · rw [show (s.ramp r).state = .opened from congrArg RampPair.state e, e]
    exact lawful_idle
  · rw [show (s.ramp r).state = .closing from congrArg RampPair.state e, e]
    exact lawful_closed _

theorem paired_execGapTimerExpiry {r : Ramp} (hs : RampPlateLaw s) (h : execGapTimerExpiry r s = .next u) :
    RampPlateLaw u := by
  unfold execGapTimerExpiry at h
  dsimp only at h
  split at h
  · next hw =>
    have hc := hs.clearPlate hw.1
    split at h
    · split at h
      · exact paired_finish (hc.congr (by simp [rampPair_settle])) h
      · exact paired_finish (hc.congr (by simp)) h
    · exact paired_finish (hc.congr (by simp)) h
  · cases h; exact hs

/-! ### Sessions, loads and reset -/

/-- A change of both ramps gives the law when it gives each ramp's. -/
theorem RampPlateLaw.forRamps {f : Ramp → State → State} {x : RampPair → RampPair}
    (hx : ∀ r, (x (s.rampPair r)).Lawful)
    (hf : ∀ r (v : State) q, (f r v).rampPair q = if q = r then x (v.rampPair q) else v.rampPair q) :
    RampPlateLaw (s.forRamps f) := rampPlateLaw_iff.2 fun q => by
  unfold State.forRamps
  rw [hf, hf]
  cases q <;> simpa using hx _

/-- A ramp as VESSEL_OPEN leaves it. -/
def RampPair.fresh (x : RampPair) : RampPair := ⟨x.session, .closed, false, Plate.reset⟩

/-- A ramp as VESSEL_SECURE leaves it (R166). -/
def RampPair.secured (x : RampPair) : RampPair := ⟨x.session, .closed, false, { x.plate with state := .disarmed }⟩

/-- A ramp as VESSEL_RELEASE leaves it (R168). -/
def RampPair.released (x : RampPair) : RampPair := { x with state := .closed }

theorem rampPair_freshRamp (r : Ramp) (v : State) (q : Ramp) :
    ((v.freshRamp r).setPlate r Plate.reset).rampPair q = if q = r then (v.rampPair q).fresh else v.rampPair q := by
  unfold State.freshRamp
  rw [rampPair_setPlate, rampPair_setRamp, rampPair_setGate, rampPair_setRampState]
  split <;> rfl

theorem rampPair_secureRamp (r : Ramp) (v : State) (q : Ramp) :
    (v.secureRamp r).rampPair q = if q = r then (v.rampPair q).secured else v.rampPair q := by
  unfold State.secureRamp
  dsimp only
  rw [rampPair_setPlate, rampPair_setRamp, rampPair_setGate, rampPair_setRampState]
  split
  · next h => subst h; simp [setGate_ramp, setRampState_ramp, RampPair.secured, State.rampPair]
  · rfl

theorem rampPair_releaseRamp (r : Ramp) (v : State) (q : Ramp) :
    (v.releaseRamp r).rampPair q = if q = r then (v.rampPair q).released else v.rampPair q := by
  have h : (v.releaseRamp r).rampPair = ((v.setRampState r .closed).setGate r false).rampPair := by
    refine rampPair_setRamp_keeping _ ?_ ?_ <;> rfl
  rw [h, rampPair_setGate, rampPair_setRampState]
  rfl

theorem paired_ownVesselOpen (t : Ticket) (x : Unit) (s : State) : RampPlateLaw (ownVesselOpen t x s) := by
  unfold ownVesselOpen
  refine RampPlateLaw.congr (RampPlateLaw.forRamps (fun r => lawful_closed _) rampPair_freshRamp)
    ((rampPair_fill _ _ _).trans (rampPair_forDecks _ fun d v => by simp [State.freshDeck]))

theorem not_weighing_of_anyWeighing (h : ¬ s.anyWeighing = true) (r : Ramp) : (s.plate r).state ≠ .weighing := by
  have hab : (s.plate .a).state ≠ .weighing ∧ (s.plate .b).state ≠ .weighing := by
    simpa [State.anyWeighing, allRamps] using h
  cases r
  exacts [hab.1, hab.2]

/-- With neither plate WEIGHING a ramp is CLOSED, or OPEN with its plate IDLE, so that it can be secured (R164). -/
theorem RampPair.Lawful.secured {x : RampPair} (h : x.Lawful) (hw : x.plate.state ≠ .weighing) (y : Session) :
    ({ x with session := y }.secured).Lawful := by
  cases hst : x.state with
  | closed => rw [h.of_closed hst]; exact lawful_closed y
  | opened =>
    rcases h.of_opened hst with e | ⟨hc, -⟩
    · rw [e]; exact lawful_closed y
    · exact absurd hc.1 hw
  | closing => exact absurd (h.of_closing hst).1.1 hw

theorem paired_ownVesselSecure (t : Ticket) (x : Unit) (hs : RampPlateLaw s) : RampPlateLaw (ownVesselSecure t x s) := by
  unfold ownVesselSecure
  split_ifs with hw hb
  · exact hs
  · exact hs
  · have hn := not_weighing_of_anyWeighing (not_or.1 hw).2
    refine RampPlateLaw.congr (RampPlateLaw.forRamps (fun r => ?_) rampPair_secureRamp) (rampPair_fill _ _ _)
    rw [rampPair_setAgeing, rampPair_setSession, rampPair_foldl rampPair_shutOut]
    exact (hs.lawful r).secured (hn r) _

theorem paired_ownVesselReopen (t : Ticket) (x : Unit) (ha : admits s.session .vesselReopen = true)
    (hs : RampPlateLaw s) : RampPlateLaw (ownVesselReopen t x s) := by
  have hne : s.session ≠ .alongside := by simp [admits_vesselReopen ha]
  have unplaced := rampPair_foldl (fun v ref => rampPair_joinUnplaced (v.setStatus ref .unplaced) ref) s.shutOutRefs s
  unfold ownVesselReopen
  refine (hs.setSession hne .alongside).congr (funext fun r => ?_)
  dsimp only
  rw [rampPair_fill, rampPair_triggerWalk, rampPair_setAgeing, rampPair_setSession, rampPair_setSession, unplaced]

theorem paired_ownVesselRelease (t : Ticket) (x : Unit) (ha : admits s.session .vesselRelease = true)
    (hs : RampPlateLaw s) : RampPlateLaw (ownVesselRelease t x s) := by
  have hne : s.session ≠ .alongside := by simp [admits_vesselRelease ha]
  unfold ownVesselRelease
  refine RampPlateLaw.congr (RampPlateLaw.forRamps (fun r => ?_) rampPair_releaseRamp) (rampPair_fill _ _ _)
  rw [rampPair_forDecks _ fun d v => by simp [State.releaseDeck]]
  simp only [rampPair_setStb, rampPair_setLanes, rampPair_setCheckIn, rampPair_setUnits, rampPair_setSession]
  rw [hs.not_alongside hne]
  exact lawful_closed _

theorem paired_ownProfileReload (t : Ticket) (x : Unit) (ha : admits s.session .profileReload = true)
    (hs : RampPlateLaw s) : RampPlateLaw (ownProfileReload t x s) := by
  have hne : s.session ≠ .alongside := by rcases admits_profileReload ha with e | e <;> simp [e]
  unfold ownProfileReload
  split
  · exact hs
  · exact (hs.setSession hne .loading).congr (by simp)

/-- A load sets a ramp's figures and leaves its state (R123). -/
theorem rampPair_loadedWith (s : State) (x : LoadResult) (y : Session) :
    (s.loadedWith x y).rampPair = (s.setSession y).rampPair := by
  funext r
  have e : (s.loadedWith x y).rampPair r =
      ⟨y, ((s.loadedWith x y).ramp r).state, ((s.loadedWith x y).ramp r).intervalTimer.isSome, s.plate r⟩ := rfl
  rw [e, loadedWith_ramp]
  cases x.profile <;> rfl

theorem paired_execLoadEnd {gradA gradB : BitVec 8} {incl : BitVec 10} (hs : RampPlateLaw s)
    (h : execLoadEnd gradA gradB incl s = .next u) : RampPlateLaw u := by
  unfold execLoadEnd at h
  split at h
  · next hl =>
    have hne : s.session ≠ .alongside := by simp [hl]
    refine paired_finish ?_ h
    by_cases hp : (loadImage s.pst.mem s.freeCount).profile.isSome = true
    · rw [endLoad_of_profile s hp]
      exact (hs.setSession hne .noVessel).congr (by simp [rampPair_loadedWith])
    · rw [endLoad_of_no_profile s hp]
      exact (hs.setSession hne .noProfile).congr (by simp [rampPair_loadedWith])
  · cases h; exact hs

theorem paired_execHardwareReset {baud1 baud0 : Bool} {partsDone : Nat} {mix : List Byte}
    (h : execHardwareReset baud1 baud0 partsDone mix s = .next u) : RampPlateLaw u :=
  paired_finish (rampPlateLaw_iff.2 fun r => by cases r <;> exact lawful_closed .loading) h

/-! ### Every step -/

/-- The commands that open or close a ramp, begin or end a crossing, or change the session. -/
def movesRamps : Instr → Bool
  | .hardwareReset .. | .loadEnd .. | .vesselOpen | .vesselSecure | .vesselReopen | .vesselRelease | .rampOpen
  | .rampClose | .profileReload | .axleEdge .. | .conversionComplete .. | .gapTimerExpiry .. => true
  | _ => false

/-- Every other command leaves what the law reads. -/
theorem rampPair_exec {c : Instr} (hc : movesRamps c = false) (h : exec c s = .next u) : u.rampPair = s.rampPair := by
  cases c with
  | frameComplete bytes => cases h; exact rampPair_receiveBytes s bytes
  | framingError bytes => cases h; exact (rampPair_modLink _ _).trans (rampPair_receiveBytes s bytes)
  | badKindRequest => exact rampPair_execBadKindRequest h
  | book => exact rampPair_handle (fun t q v => rampPair_ownBook v t q) h
  | amend => exact rampPair_handle (fun t q v => rampPair_ownAmend v t q) h
  | cancel => exact rampPair_handle (fun t q v => rampPair_ownCancel v t q) h
  | checkIn => exact rampPair_handle (fun t q v => rampPair_ownCheckIn v t q) h
  | present => exact rampPair_handle (fun t q v => rampPair_ownPresent v t q) h
  | holdUnit => exact rampPair_handle (fun t q v => rampPair_ownHoldUnit v t q) h
  | releaseHold => exact rampPair_handle (fun t q v => rampPair_ownReleaseHold v t q) h
  | place => exact rampPair_handle (fun t q v => rampPair_ownPlace v t q) h
  | discharge => exact rampPair_handle (fun t q v => rampPair_ownDischarge v t q) h
  | setRamp => exact rampPair_handle (fun t q v => rampPair_ownSetRamp v t q) h
  | skip => exact rampPair_handle (fun t q v => rampPair_ownSkip v t q) h
  | laneClose => exact rampPair_handle (fun t q v => rampPair_ownLaneClose v t q) h
  | laneOpen => exact rampPair_handle (fun t q v => rampPair_ownLaneOpen v t q) h
  | obstructionAdd => exact rampPair_handle (fun t q v => rampPair_ownObstructionAdd v t q) h
  | obstructionClear => exact rampPair_handle (fun t q v => rampPair_ownObstructionClear v t q) h
  | setBallast => exact rampPair_handle (fun t q v => rampPair_ownSetBallast v t q) h
  | clearFlags => exact rampPair_handle (owner := ownClearFlags) (fun _ _ _ => rfl) h
  | profileWrite prot => exact rampPair_handle (fun t q v => rampPair_ownProfileWrite v prot t q) h
  | profileWriteEnd => exact rampPair_execProfileWriteEnd h
  | writeTimeout => exact rampPair_execWriteTimeout h
  | queryUnit => exact rampPair_handle (fun t q v => rampPair_ownQueryUnit v t q) h
  | queryLane => exact rampPair_handle (owner := ownQueryLane) (fun _ _ _ => rfl) h
  | queryQueue => exact rampPair_handle (owner := ownQueryQueue) (fun _ _ _ => rfl) h
  | queryStatus => exact rampPair_handle (owner := ownQueryStatus) (fun _ _ _ => rfl) h
  | placementServed => exact rampPair_execPlacementServed h
  | retryWalk => exact rampPair_execRetryWalk h
  | walkVisit => exact rampPair_execWalkVisit h
  | redirectSearch => exact rampPair_execRedirectSearch h
  | ageingExpiry => exact rampPair_execAgeingExpiry h
  | call => exact rampPair_execCall h
  | intervalTimerExpiry => exact rampPair_execIntervalTimerExpiry h
  | callTimerExpiry => exact rampPair_execCallTimerExpiry h
  | sampleTimerExpiry => exact rampPair_execSampleTimerExpiry h
  | frameSent => exact rampPair_execFrameSent h
  | frameDiscarded bytes => cases h; exact rampPair_receiveBytes s bytes
  | _ => cases hc

theorem paired_exec {c : Instr} (hs : RampPlateLaw s) (h : exec c s = .next u) : RampPlateLaw u := by
  by_cases hc : movesRamps c = false
  · exact hs.congr (rampPair_exec hc h)
  cases c with
  | hardwareReset => exact paired_execHardwareReset h
  | loadEnd => exact paired_execLoadEnd hs h
  | vesselOpen => exact paired_handle hs (fun t q v _ _ => paired_ownVesselOpen t q v) h
  | vesselSecure => exact paired_handle hs (fun t q _ _ hv => paired_ownVesselSecure t q hv) h
  | vesselReopen => exact paired_handle hs (fun t q _ ha hv => paired_ownVesselReopen t q ha hv) h
  | vesselRelease => exact paired_handle hs (fun t q _ ha hv => paired_ownVesselRelease t q ha hv) h
  | rampOpen => exact paired_handle hs (fun t r _ ha hv => paired_ownRampOpen t r ha hv) h
  | rampClose => exact paired_handle hs (fun t r _ _ hv => paired_ownRampClose t r hv) h
  | profileReload => exact paired_handle hs (fun t q _ ha hv => paired_ownProfileReload t q ha hv) h
  | axleEdge => exact paired_execAxleEdge hs h
  | conversionComplete => exact paired_execConversionComplete hs h
  | gapTimerExpiry => exact paired_execGapTimerExpiry hs h
  | _ => exact absurd rfl hc

/-- Settles O58: every command leaves what the law reads, or takes a ramp from one of its four conditions to another. -/
theorem rampsAndPlatesStayPaired : Obligations.RampsAndPlatesStayPaired := by
  unfold Obligations.RampsAndPlatesStayPaired
  intro s u hs h
  obtain rfl | ⟨c, q, hc⟩ := step_next h
  · exact hs
  · exact paired_exec (hs.congr (rampPair_setPending s q)) hc

end Sys2Proof.Machine

namespace Sys2Proof.Machine

open Sys2Proof

/-! ## RAMP_OPEN and the LANE_STATE refusals of the ramps (R105, R106) -/

theorem onlyChanges_setRampState (s : State) (r : Ramp) (x : RampState) :
    OnlyChanges [.link, .ramp r] s (s.setRampState r x) := by
  have hset := onlyChanges_setRamp s r { s.ramp r with state := x }
  unfold State.setRampState
  split
  · exact hset.mono (by simp)
  · exact .trans (hset.mono (by simp)) ((onlyChanges_modLink _ _).mono (by simp))

theorem onlyNews_setRampState (s : State) (r : Ramp) (x : RampState) : OnlyNews s (s.setRampState r x) := by
  unfold State.setRampState
  split
  · exact onlyNews_of_link rfl
  · exact .trans (onlyNews_of_link rfl) (onlyNews_setFlag _ _)

/-- A ramp's state is told by its pending flag, never by a notice (R123). -/
theorem notified_setRampState (s : State) (r : Ramp) (x : RampState) : Notified s (s.setRampState r x) [] := by
  unfold State.setRampState
  split <;> exact notified_nil rfl rfl

/-- What RAMP_OPEN gives the ramp in one record (R105). -/
def opening (s : State) (r : Ramp) : RampRun :=
  { s.ramp r with
    state := .opened, remaining := (s.ramp r).budget, credit := 0
    intervalTimer := some ((s.rampFixed r).intervalPeriod * 1000) }

/-- A CLOSED ramp that is opened: its new state, its timer and its plate, with the walk asked for behind it. -/
def State.openRamp (r : Ramp) (s : State) : State :=
  let s1 := (s.setRampState r .opened).setRamp r (opening s r)
  (s1.setPlate r { s1.plate r with state := .idle }).triggerWalk

theorem ownRampOpen_closed (t : Ticket) {r : Ramp} {s : State} (h : (s.ramp r).state = .closed) :
    ownRampOpen t r s = (s.openRamp r).fill t .done := by
  unfold ownRampOpen
  rw [if_pos h]
  simp only [setRampState_ramp]
  rfl

/-- What RAMP_OPEN of a CLOSED ramp gives (R105, R125). -/
theorem openRamp_outcome {s : State} {f : Frame} {rest : List Frame} {r : Ramp} (h : (s.ramp r).state = .closed) :
    let u := ((s.taken f rest).openRamp r).fill f.ticket .done
    Replied s u f rest .done ∧ Notified s u [] ∧ u.link.flags = flagged [.rampState r] s.link.flags ∧
      u.ramp r = opening s r ∧ u.plate r = { s.plate r with state := .idle } ∧ WalkAsked s u ∧
      u.alc.unplaced = s.alc.unplaced ∧ u.alc.walk = s.alc.walk ∧ OnlyChanges [.link, .ramp r, .plate r, .alc] s u := by
  have hnotified := notified_setRampState (s.taken f rest) r .opened
  have hnews := onlyNews_setRampState (s.taken f rest) r .opened
  have hflags := setRampState_flags (s.taken f rest) r .opened
  have hstate := onlyChanges_setRampState (s.taken f rest) r .opened
  set w := (s.taken f rest).setRampState r .opened with hw
  set p := (w.setRamp r (opening (s.taken f rest) r)).setPlate r
    { (w.setRamp r (opening (s.taken f rest) r)).plate r with state := .idle } with hp
  have hopened : (s.taken f rest).openRamp r = p.triggerWalk := rfl
  have halc : p.alc = s.alc := by simp [hp, hw]
  obtain ⟨hunplaced, hwalk⟩ := triggerWalk_lists p
  rw [hopened]
  refine ⟨?_, ?_, ?_, ?_, ?_, ?_, ?_, ?_, ?_⟩
  · exact replied_of_fill _ (hnews.trans (onlyNews_of_link (by simp [hp])))
  · simpa [Notified, fill_link, hp, State.taken] using hnotified
  · simpa [fill_link, hp, h, State.taken] using hflags
  · simp [hp]; rfl
  · simp [hp, hw]
  · exact (walkAsked_triggerWalk p).of_eq (by simpa using halc)
  · simpa [halc] using hunplaced
  · simpa [halc] using hwalk
  · refine onlyChanges_fill _ _ (by simp) (.trans (hstate.mono (by simp)) (.trans
      ((onlyChanges_setRamp _ _ _).mono (by simp)) (.trans ((onlyChanges_setPlate _ _ _).mono (by simp))
      ((onlyChanges_triggerWalk _).mono (by simp)))))

/-- Settles O24: a CLOSED ramp is opened, and each request finds the other states refused. -/
theorem rampOpenOpensAClosedRamp : Obligations.RampOpenOpensAClosedRamp := by
  unfold Obligations.RampOpenOpensAClosedRamp
  refine fun s f rest r hq => ⟨fun hh hs => ?_, fun hh hs => ?_, fun hh hs => ?_⟩
  · have hx : exec .rampOpen s = .next (ownRampOpen f.ticket r (s.taken f rest)).startTx := handle_of_handed hh hq rfl
    rw [ownRampOpen_closed (s := s.taken f rest) _ hs] at hx
    exact ⟨_, hx, openRamp_outcome hs⟩
  · have hx : exec .rampOpen s = .next (ownRampOpen f.ticket r (s.taken f rest)).startTx := handle_of_handed hh hq rfl
    have hs' : ((s.taken f rest).ramp r).state ≠ .closed := hs
    unfold ownRampOpen at hx
    rw [if_neg hs'] at hx
    exact ⟨_, hx, refused_outcome s f rest .laneState⟩
  · have hx : exec .rampClose s = .next (ownRampClose f.ticket r (s.taken f rest)).startTx := handle_of_handed hh hq rfl
    have hs' : ((s.taken f rest).ramp r).state ≠ .opened := hs
    unfold ownRampClose at hx
    simp only [hs', if_false] at hx
    exact ⟨_, hx, refused_outcome s f rest .laneState⟩

/-! ## SET_RAMP and the interval timer (R108, R113) -/

theorem clampNat_eq {lo hi : Nat} (h : lo ≤ hi) (v : Nat) : clampNat lo hi v = max lo (min hi v) := by
  unfold clampNat
  split
  · omega
  · split <;> omega

/-- Settles O26: the clamped values, and the restored budget. -/
theorem setRampClampsAndTheIntervalRestores : Obligations.SetRampClampsAndTheIntervalRestores := by
  unfold Obligations.SetRampClampsAndTheIntervalRestores
  refine ⟨fun s f rest q hh hq => ?_, fun s r => ⟨fun ht => ?_, fun ht => ?_⟩⟩
  · have hx : exec .setRamp s = .next (ownSetRamp f.ticket q (s.taken f rest)).startTx := handle_of_handed hh hq rfl
    have hn : clampNat 0 15 q.ratio = min 15 q.ratio := by rw [clampNat_eq (by omega)]; omega
    have hd : clampNat 1 4 q.depth = max 1 (min 4 q.depth) := clampNat_eq (by omega) _
    have hb : clampNat 50 5000 q.budget = max 50 (min 5000 q.budget) := clampNat_eq (by omega) _
    unfold ownSetRamp at hx
    simp only [hn, hd, hb] at hx
    exact ⟨_, hx, answered_of_link (by simp) ⟨by simp, onlyChanges_fill _ _ (by simp)
      ((onlyChanges_setRamp _ _ _).mono (by simp))⟩⟩
  · have hx : exec (.intervalTimerExpiry r) s = execIntervalTimerExpiry r s := rfl
    rw [hx]
    simp [execIntervalTimerExpiry, ht, notNow]
  · have hx : exec (.intervalTimerExpiry r) s = execIntervalTimerExpiry r s := rfl
    rw [hx]
    refine ⟨_, if_pos (Option.isSome_iff_ne_none.2 ht), by simp [State.intervalMs], onlyChanges_setRamp _ _ _⟩

/-! ## A second no-show (R116) -/

theorem exec_secondNoShow {s : State} {r : Ramp} {ref : Ref} {v : UnitRecord} {l : Lane} (hv : s.unit? ref = some v)
    (hc : v.status = .called) (hl : v.lane = some l) (hh : (s.ramp r).called.head? = some ref) (hn : v.noShow ≠ 0)
    (ht : (s.ramp r).callTimer ≠ none) : exec (.callTimerExpiry r) s = .next (s.secondNoShow r v).startTx := by
  have hx : exec (.callTimerExpiry r) s = execCallTimerExpiry r s := rfl
  have ht' : (s.ramp r).callTimer.isSome = true := Option.isSome_iff_ne_none.2 ht
  rw [hx]
  unfold execCallTimerExpiry
  simp only [ht', hh, Option.bind_some, hv, hl, hc, hn, if_true, if_false, finish]

/-- What follows once the head's reservation is released: it leaves the called list, its uncall is told and a walk is asked
for (R116, R120). -/
theorem uncallHead_then_walk {s w : State} {ref : Ref} {l : Lane} {r : Ramp}
    (hw : OnlyChanges [.units, .lane l, .stb] s w) (hh : (s.ramp r).called.head? = some ref) :
    let u := ((w.leaveCalled r ref).uncallNotice r .noShowHeld none ref).triggerWalk
    OnlyNews s u ∧ u.link.flags = s.link.flags ∧ Notified s u [.uncall r ref .noShowHeld none] ∧
      u.ramp r = { s.ramp r with called := (s.ramp r).called.tail, callTimer := headTimer u r } ∧ WalkAsked s u ∧
      u.alc.unplaced = s.alc.unplaced ∧ u.alc.walk = s.alc.walk ∧
      OnlyChanges [.link, .units, .lane l, .stb, .ramp r, .alc] s u := by
  have hramp : w.ramp r = s.ramp r := hw (.ramp r) (by simp)
  have halc : w.alc = s.alc := hw .alc (by simp)
  have hleft : (w.leaveCalled r ref).link = s.link :=
    (onlyChanges_leaveCalled w r ref .link (by simp)).trans (hw .link (by simp))
  set n := (w.leaveCalled r ref).uncallNotice r .noShowHeld none ref with hn
  have hnews : OnlyNews s n := (onlyNews_of_link hleft).trans (onlyNews_notify _ _)
  have hflags : n.link.flags = s.link.flags := (notify_flags _ _).trans (by rw [hleft])
  have hnotified := notified_notify (w.leaveCalled r ref) (.uncall r ref .noShowHeld none)
  obtain ⟨hunplaced, hwalk⟩ := triggerWalk_lists n
  refine ⟨hnews.trans (onlyNews_of_link (by simp)), by simpa using hflags, ?_, ?_, ?_, ?_, ?_, ?_⟩
  · unfold Notified at hnotified ⊢
    rw [hleft] at hnotified
    simpa [hn, State.uncallNotice] using hnotified
  · have hhead := headTimer_congr (r := r) (s := w.leaveCalled r ref) (u := n.triggerWalk) (by simp [hn])
      (fun q => by simp [hn]) (by simp [hn]) (by simp [hn])
    have hrest : (s.ramp r).called.erase ref = (s.ramp r).called.tail := by
      obtain ⟨xs, hxs⟩ := List.head?_eq_some_iff.1 hh
      simp [hxs]
    have hleave := leaveCalled_ramp w r ref
    rw [hramp, if_pos hh, hrest] at hleave
    rw [hhead]
    simpa [hn] using hleave
  · exact (walkAsked_triggerWalk n).of_eq (by simpa [hn] using halc)
  · exact hunplaced.trans (by simp [hn, halc])
  · exact hwalk.trans (by simp [hn, halc])
  · exact .trans (hw.mono (by simp)) (.trans ((onlyChanges_leaveCalled _ _ _).mono (by simp)) (.trans
      ((onlyChanges_notify _ _).mono (by simp)) ((onlyChanges_triggerWalk _).mono (by simp))))

/-- Settles O30: the release, and what follows it. -/
theorem secondNoShowHoldsTheUnit : Obligations.SecondNoShowHoldsTheUnit := by
  unfold Obligations.SecondNoShowHoldsTheUnit
  intro s r ref v l ht hh hv hc hl hr hn hprio hord
  have hx := exec_secondNoShow hv hc hl hh hn ht
  subst hr
  unfold State.secondNoShow at hx
  simp only [unit_ref hv] at hx
  obtain ⟨hlane, hsums, hrec, hframe⟩ := release_unqueued hv hl hprio hord
  have hset := onlyChanges_setStatus (s.release ref) ref .held
  have hheld := hrec.trans (unitBecomes_setStatus .held hrec.1)
  obtain ⟨hnews, hflags, hnotified, hcalled, hasked, hunplaced, hwalk, hall⟩ :=
    uncallHead_then_walk (.trans hframe (hset.mono (by simp))) hh
  exact ⟨_, hx, hnews, hflags, hnotified, hheld.of_eq fun q => by simp, hlane.of_eq (by simp), hsums.of_eq (by simp),
    hcalled, hasked, hunplaced, hwalk, hall⟩

end Sys2Proof.Machine

namespace Sys2Proof.Machine

open Sys2Proof

variable {s w u : State} {f : Frame} {rest : List Frame} {l : Lane} {r : Ramp} {refs fs : List Ref} {ref : Ref}
  {ns : List Notice} {v : UnitRecord} {reason : UncallReason}

/-! ## The two queues in order (R103) -/

/-- A ramp's queue of one priority. -/
def RampRun.queue (x : RampRun) (p : Bool) : List Ref := if p then x.prio else x.ord

/-- A unit's share of the queues depends on its priority alone. -/
theorem queueShare_congr (h : ∀ q, (w.unit? q).map (·.cls.priority) = (s.unit? q).map (·.cls.priority)) (p : Bool)
    (refs : List Ref) : queueShare w p refs = queueShare s p refs := by
  unfold queueShare
  simp only [h]

theorem Returned.share (h : Returned s w r refs ns) (p : Bool) (xs : List Ref) :
    queueShare w p xs = queueShare s p xs :=
  queueShare_congr (fun q => by rw [h.unit]; by_cases hq : q ∈ refs <;> cases s.unit? q <;> simp [hq, waitingAgain]) p xs

theorem queueShare_singleton (hv : s.unit? ref = some v) (p : Bool) :
    queueShare s p [ref] = if v.cls.priority = p then [ref] else [] := by
  by_cases hp : v.cls.priority = p <;> simp [queueShare, hv, hp]

theorem queueShare_append (s : State) (p : Bool) (xs ys : List Ref) :
    queueShare s p (xs ++ ys) = queueShare s p xs ++ queueShare s p ys := List.filter_append ..

theorem queue_joinQueue (s : State) (r : Ramp) (priority back : Bool) (ref : Ref) (p : Bool) :
    ((s.joinQueue r priority back ref).ramp r).queue p =
      if priority = p then (if back then (s.ramp r).queue p ++ [ref] else ref :: (s.ramp r).queue p)
      else (s.ramp r).queue p := by
  obtain ⟨hjoin, -⟩ := requeued_joinQueue s r priority back ref
  rw [hjoin]
  cases p <;> cases priority <;> simp [RampRun.queue]

/-- A unit that returns to WAITING joins the queue of its priority (R103). -/
theorem queue_returnToWaiting (hv : s.unit? ref = some v) (r : Ramp) (back p : Bool) :
    ((s.returnToWaiting r back ref).ramp r).queue p =
      if back then (s.ramp r).queue p ++ queueShare s p [ref] else queueShare s p [ref] ++ (s.ramp r).queue p := by
  have hleft : (((s.leaveCalled r ref).modUnit ref waitingAgain).ramp r).queue p = (s.ramp r).queue p := by
    rw [show ((s.leaveCalled r ref).modUnit ref waitingAgain).ramp r = _ from leaveCalled_ramp s r ref]
    rfl
  have hrun : s.returnToWaiting r back ref =
      ((s.leaveCalled r ref).modUnit ref waitingAgain).joinQueue r v.cls.priority back ref := by
    unfold State.returnToWaiting
    rw [hv]
    rfl
  rw [hrun, queue_joinQueue, hleft, queueShare_singleton hv]
  by_cases hp : v.cls.priority = p <;> cases back <;> simp [hp]

theorem lineHigh_returnToWaiting (s : State) (r : Ramp) (back : Bool) (ref : Ref) :
    ((s.returnToWaiting r back ref).ramp r).lineHigh = ((s.returnToWaiting r back ref).ramp r).gateHold := by
  obtain ⟨p, hramp, -⟩ := requeued_returnToWaiting s r back ref
  rw [hramp]

/-- Units that return one after another to the front stand there from the last to the first. -/
theorem queue_foldl_front (hs : UncallReady s r l refs) (p : Bool) :
    ((refs.foldl (fun s ref => s.returnToWaiting r false ref) s).ramp r).queue p =
      queueShare s p refs.reverse ++ (s.ramp r).queue p := by
  induction refs using List.reverseRecOn with
  | nil => rfl
  | append_singleton refs ref ih =>
    have hback := returned_foldl hs.init false
    obtain ⟨v, hv, -⟩ := Option.bind_eq_some_iff.1 (hs.lanes ref (by simp))
    have hv' := hback.unit ref
    rw [hv, Option.map_some] at hv'
    rw [List.foldl_append, List.foldl_cons, List.foldl_nil, queue_returnToWaiting hv', ih hs.init, hback.share,
      List.reverse_append, queueShare_append]
    simp

/-! ## Units that return to their queues (R114 to R120) -/

theorem ramp_uncallNotices (s : State) (r : Ramp) (x : UncallReason) (carried : Option Lane) (qs : List Ref) :
    (qs.foldl (fun s q => s.uncallNotice r x carried q) s).ramp r = s.ramp r := by
  induction qs generalizing s with
  | nil => rfl
  | cons q qs ih => exact (ih _).trans (by simp [State.uncallNotice])

/-- The returns from the last follower backward and the notices, in a lane that keeps the units. -/
theorem uncallToWaiting_kept (hs : UncallReady s r l (ref :: s.followers r ref l)) (hc : (s.lane l).state ≠ .closing)
    (back : Bool) (reason : UncallReason) :
    let fs := s.followers r ref l
    let u := (s.uncallToWaiting r l back reason ref).1
    Returned s u r (ref :: fs) (.uncall r ref reason (some l) :: fs.map fun q => .uncall r q .follower (some l)) ∧
      (u.ramp r).lineHigh = (u.ramp r).gateHold ∧
      ∀ p, (u.ramp r).queue p =
        queueShare s p (if back then fs else ref :: fs) ++ (s.ramp r).queue p ++
          queueShare s p (if back then [ref] else []) := by
  intro fs u
  have hperm : (ref :: fs).Perm (fs.reverse ++ [ref]) :=
    (((List.reverse_perm fs).append_right [ref]).trans (List.perm_append_singleton ref fs)).symm
  have hback := hs.perm hperm
  have hfollowed := returned_foldl hback.init false
  have hqueued := queue_foldl_front hback.init
  have hfirst := (hfollowed.snoc hback back).perm hperm.symm
  have htold := (hfirst.notify (.uncall r ref reason (some l))).uncallNotices .follower (some l) fs
  set t := fs.reverse.foldl (fun s q => s.returnToWaiting r false q) s with ht
  have hrun : u = fs.foldl (fun s q => s.uncallNotice r .follower (some l) q)
      ((t.returnToWaiting r back ref).notify (.uncall r ref reason (some l))) := by
    simp only [u, State.uncallToWaiting, hc, decide_false]
    rfl
  have hramp : u.ramp r = (t.returnToWaiting r back ref).ramp r := by
    rw [hrun, ramp_uncallNotices]
    simp
  refine ⟨hrun ▸ htold, by rw [hramp]; exact lineHigh_returnToWaiting _ _ _ _, fun p => ?_⟩
  obtain ⟨v, hv, -⟩ := Option.bind_eq_some_iff.1 (hs.lanes ref (.head _))
  have hv' := hfollowed.unit ref
  rw [hv, Option.map_some] at hv'
  rw [hramp, queue_returnToWaiting hv', hqueued, hfollowed.share, List.reverse_reverse]
  cases back with
  | true => simp
  | false =>
    simp only [Bool.false_eq_true, if_false, ← List.append_assoc, ← queueShare_append]
    simp [queueShare]

/-- What the returns leave, part by part. -/
theorem Returned.uncalled {back : Bool} (hv : s.unit? ref = some v)
    (hw : Returned s u r (ref :: fs) (.uncall r ref reason (some l) :: fs.map fun q => .uncall r q .follower (some l)))
    (hline : (u.ramp r).lineHigh = (u.ramp r).gateHold)
    (hqueue : ∀ p, (u.ramp r).queue p =
      queueShare s p (if back then fs else ref :: fs) ++ (s.ramp r).queue p ++
        queueShare s p (if back then [ref] else [])) : Uncalled s u r l v v.noShow back reason fs := by
  obtain rfl := unit_ref hv
  have hprio := hqueue true
  have hord := hqueue false
  simp only [RampRun.queue, Bool.false_eq_true, if_true, if_false] at hprio hord
  have hgate : (u.ramp r).gateHold = gateAfter (s.rampFixed r) (s.ramp r).gateHold
      ((u.ramp r).prio.length + (u.ramp r).ord.length) := by
    rw [hw.gate, ← hw.queues.count]
    rfl
  refine ⟨by rw [hw.unit, hv]; simp [waitingAgain], fun q y hq hy => ?_, fun q hq => by rw [hw.unit, hq]; rfl,
    ⟨?_, ?_⟩, hw.notified⟩
  · rw [hw.unit, hy]
    by_cases hfs : q ∈ fs <;> simp [hq, hfs, waitingAgain]
  · rw [← hprio, ← hord, ← hgate, hw.settings]
    unfold calledWithout RampRun.withListsOf
    simp only [hline, hw.list.list, hw.list.timer]
    rfl
  · rw [← hprio, ← hord, ← hgate]
    exact hw.flags

/-- The event as a whole: the records, queues and notices, the link's news, and the frame. -/
theorem uncallToWaiting_stays (hs : UncallReady s r l (ref :: s.followers r ref l)) (hc : (s.lane l).state ≠ .closing)
    (hv : s.unit? ref = some v) (back : Bool) (reason : UncallReason) :
    let u := (s.uncallToWaiting r l back reason ref).1
    OnlyNews s u ∧ Uncalled s u r l v v.noShow back reason (s.followers r ref l) ∧
      OnlyChanges [.link, .units, .ramp r] s u := by
  obtain ⟨hw, hline, hqueue⟩ := uncallToWaiting_kept hs hc back reason
  exact ⟨hw.news, hw.uncalled hv hline hqueue, hw.frame⟩

/-- Seen from before the no-show was counted. -/
theorem Uncalled.of_noShown {back : Bool}
    (h : Uncalled (noShown s v.decl.ref) u r l { v with noShow := 1 } 1 back reason fs) :
    Uncalled s u r l v 1 back reason fs := by
  have hshare (p : Bool) (xs : List Ref) : queueShare (noShown s v.decl.ref) p xs = queueShare s p xs :=
    queueShare_congr (fun q => by
      rw [unit_noShown]
      by_cases hq : q = v.decl.ref <;> cases s.unit? q <;> simp [hq]) p xs
  have hramp := h.ramp
  simp only [hshare] at hramp
  exact
    { h with
      others := fun q w hq hw => h.others q w hq (by rw [unit_noShown, hw]; simp [hq])
      unknown := fun q hq => h.unknown q (by rw [unit_noShown, hq]; rfl)
      ramp := hramp }

/-- Seen from before the request was taken and after it was answered. -/
theorem Uncalled.answered {n : Nat} {back : Bool} (h : Uncalled (s.taken f rest) u r l v n back reason fs) (t : Ticket)
    (x : Reply) : Uncalled s (u.fill t x) r l v n back reason fs := { h with }

/-- A call timer that is stopped does not expire. -/
theorem exec_callTimer_stopped (ht : (s.ramp r).callTimer = none) : exec (.callTimerExpiry r) s = .next s := by
  have hx : exec (.callTimerExpiry r) s = execCallTimerExpiry r s := rfl
  rw [hx, execCallTimerExpiry, ht]
  rfl

end Sys2Proof.Machine

namespace Sys2Proof.Machine

open Sys2Proof

/-- Settles O28: the units return from the last backward, and the lane keeps them. -/
theorem uncalledUnitsReturnToTheirQueues : Obligations.UncalledUnitsReturnToTheirQueues := by
  unfold Obligations.UncalledUnitsReturnToTheirQueues
  intro s ref v l hv hc hl hstate hlaw r followers
  have hready : UncallReady s r l (ref :: s.followers r ref l) := hlaw.uncallReady hv hc hl
  have hfollowers : s.followers r ref l = followers := followers_filter s r ref l
  obtain rfl := unit_ref hv
  refine ⟨fun f rest hh hq => ?_, fun hhead hn => ⟨exec_callTimer_stopped, fun ht => ?_⟩⟩
  · obtain ⟨hnews, hout, hframe⟩ := uncallToWaiting_stays (hready.taken f rest) hstate hv false .skipped
    rw [← hfollowers]
    exact ⟨_, exec_skip hv hc hl hh hq, replied_of_fill _ hnews, hout.answered _ _,
      onlyChanges_fill (f := f) (rest := rest) _ _ (by simp) hframe⟩
  · have hv' : (noShown s v.decl.ref).unit? v.decl.ref = some { v with noShow := 1 } := by rw [unit_noShown, hv]; simp
    have hready' : UncallReady (noShown s v.decl.ref) r l
        (v.decl.ref :: (noShown s v.decl.ref).followers r v.decl.ref l) := by
      rw [followers_noShown]; exact hready.noShown _
    obtain ⟨hnews, hout, hframe⟩ := uncallToWaiting_stays hready' hstate hv' true .noShow
    rw [followers_noShown, hfollowers] at hout
    exact ⟨_, exec_firstNoShow hv hc hl hhead hn ht, OnlyNews.trans (t := noShown s v.decl.ref) (onlyNews_of_link rfl) hnews,
      hout.of_noShown, .trans (t := noShown s v.decl.ref) ((onlyChanges_modUnit s _ _).mono (by simp)) hframe⟩

end Sys2Proof.Machine

namespace Sys2Proof.Machine

open Sys2Proof

variable {s u : State} {r : Ramp} {ref : Ref} {credit : Nat} {v : UnitRecord} {l : Lane}

/-! ## The choice of R111 -/

/-- A search of a queue finds the eligible unit nearest its front. -/
theorem find?_eligible_iff {xs : List Ref} : xs.find? (s.eligible r) = some ref ↔ FirstEligible s r xs ref := by
  unfold FirstEligible
  simp only [List.find?_eq_some_iff_append, eligible_iff, Bool.not_eq_eq_eq_not, Bool.not_true,
    ← Bool.not_eq_true]
  constructor
  · rintro ⟨href, ahead, behind, hxs, hahead⟩
    exact ⟨ahead, behind, hxs, hahead, href⟩
  · rintro ⟨ahead, behind, hxs, hahead, href⟩
    exact ⟨href, ahead, behind, hxs, hahead⟩

theorem find?_eligible_none {xs : List Ref} : xs.find? (s.eligible r) = none ↔ ¬ ∃ q ∈ xs, Eligible s r q := by
  simp [List.find?_eq_none, eligible_iff]

theorem find?_eligible_some {xs : List Ref} (h : ∃ q ∈ xs, Eligible s r q) :
    ∃ q, xs.find? (s.eligible r) = some q := by
  rw [← Option.isSome_iff_exists, ← Option.ne_none_iff_isSome]
  exact fun hnone => find?_eligible_none.1 hnone h

/-- The unit that R111 chooses is the one that the scheduler computes, with the credit after the call. -/
theorem callChoice_of_chosen (h : Chosen s r ref credit) : s.callChoice r = some (ref, credit) := by
  unfold State.callChoice
  dsimp only
  rcases h with ⟨hratio, hp, rfl⟩ | ⟨-, hp, ho, rfl⟩ | ⟨hratio, ho, hlow, hp, rfl⟩ | ⟨hratio, hp, hfull, ho, rfl⟩ |
    ⟨hratio, ho, hp, rfl⟩ | ⟨-, hp, ho, rfl⟩
  · rw [find?_eligible_iff.2 hp]
    cases (s.ramp r).ord.find? (s.eligible r) <;> simp [hratio]
  · rw [find?_eligible_none.2 hp, find?_eligible_iff.2 ho]
  · obtain ⟨o, ho⟩ := find?_eligible_some ho
    rw [find?_eligible_iff.2 hp, ho]
    simp [hratio, hlow]
  · obtain ⟨p, hp⟩ := find?_eligible_some hp
    rw [hp, find?_eligible_iff.2 ho]
    simp [hratio, hfull]
  · rw [find?_eligible_iff.2 hp, find?_eligible_none.2 ho]
    simp [hratio]
  · rw [find?_eligible_none.2 hp, find?_eligible_iff.2 ho]

theorem callChoice_none (h : ∀ q ∈ (s.ramp r).prio ++ (s.ramp r).ord, ¬ Eligible s r q) : s.callChoice r = none := by
  unfold State.callChoice
  dsimp only
  rw [find?_eligible_none.2 fun ⟨q, hq, he⟩ => h q (List.mem_append_left _ hq) he,
    find?_eligible_none.2 fun ⟨q, hq, he⟩ => h q (List.mem_append_right _ hq) he]

/-- The first four parts of the call condition (R110). -/
theorem mayCall_iff : s.mayCall r = true ↔ s.session = .alongside ∧ (s.ramp r).state = .opened ∧
    (s.ramp r).called.length < (s.ramp r).depth ∧ s.link.notices.length + 4 ≤ 16 := by
  have hslots : Config.callNoticeSlots ≤ s.freeNotices ↔ s.link.notices.length + 4 ≤ 16 := by
    unfold State.freeNotices
    have hfour : Config.callNoticeSlots = 4 := rfl
    have hall : Config.noticeSlots = 16 := rfl
    omega
  simp [State.mayCall, hslots, and_assoc]

/-! ## CALL, step by step (R109 to R112) -/

theorem exec_call_refused (h : s.mayCall r ≠ true) : exec (.call r) s = .next s := by
  have hx : exec (.call r) s = execCall r s := rfl
  rw [hx, execCall, if_neg h]
  rfl

theorem exec_call_none (h : s.callChoice r = none) : exec (.call r) s = .next s := by
  have hx : exec (.call r) s = execCall r s := rfl
  rw [hx, execCall, h]
  exact ite_self _

theorem exec_call_made (h : s.mayCall r = true) (hc : s.callChoice r = some (ref, credit)) (hv : s.unit? ref = some v)
    (hl : v.lane = some l) : exec (.call r) s = .next (s.makeCall r v l credit).startTx := by
  have hx : exec (.call r) s = execCall r s := rfl
  rw [hx, execCall, if_pos h]
  simp only [hc, hv, hl]
  rfl

/-! ## What a call leaves (R112, R114, R121) -/

theorem onlyChanges_leaveQueue (s : State) (r : Ramp) (ref : Ref) :
    OnlyChanges [.link, .ramp r] s (s.leaveQueue r ref) := by
  intro b hb
  cases b with
  | ramp q => exact leaveQueue_other s ref (by simpa using hb)
  | link => simp at hb
  | _ => simp [sameBlock]

theorem onlyChanges_timeHead (s : State) (r : Ramp) : OnlyChanges [.ramp r] s (s.timeHead r) := onlyChanges_setRamp s r _

/-- A notice that finds a slot free goes to the end of the queue (R176). -/
theorem notify_of_room {n : Notice} (h : s.link.notices.length < 16) :
    (s.notify n).link.notices = s.link.notices ++ [n] ∧ (s.notify n).link.sticky = s.link.sticky := by
  have hslots : s.link.notices.length < Config.noticeSlots := h
  have hn := notified_notify s n
  unfold Notified at hn
  simpa [queued, hslots] using hn

/-- A ramp's record with a unit called: it has left its queue for the end of the called list (R112). -/
def RampRun.withCall (x : RampRun) (ref : Ref) (weight credit : Nat) : RampRun :=
  { x with called := x.called ++ [ref], remaining := x.remaining - weight, credit := credit }

/-- The call up to its timer: the unit is CALLED, the ramp's record is written, the notice is told. -/
def State.callUnit (r : Ramp) (v : UnitRecord) (l : Lane) (credit : Nat) (s : State) : State :=
  let s1 := (s.leaveQueue r v.decl.ref).setStatus v.decl.ref .called
  (s1.setRamp r ((s1.ramp r).withCall v.decl.ref v.decl.weight credit)).notify (.call r v.decl.ref l (s.laneFixed l).deck)

/-- The call timer starts with the call of a unit that becomes the head (R114). -/
theorem makeCall_eq (s : State) (r : Ramp) (v : UnitRecord) (l : Lane) (credit : Nat) :
    s.makeCall r v l credit =
      if (s.ramp r).called = [] then (s.callUnit r v l credit).timeHead r else s.callUnit r v l credit := by
  have hcalled : (((s.leaveQueue r v.decl.ref).setStatus v.decl.ref .called).ramp r).called.isEmpty =
      decide ((s.ramp r).called = []) := by
    have hkept : (((s.leaveQueue r v.decl.ref).setStatus v.decl.ref .called).ramp r).called = (s.ramp r).called := by simp
    rw [hkept]
    cases (s.ramp r).called <;> simp
  unfold State.makeCall
  simp only [hcalled, decide_eq_true_eq]
  rfl

theorem callUnit_outcome (hv : s.unit? ref = some v) (hq : ref ∈ (s.ramp r).prio ∨ ref ∈ (s.ramp r).ord)
    (hroom : s.link.notices.length < 16) :
    let g := gateAfter (s.rampFixed r) (s.ramp r).gateHold
      (((s.ramp r).prio.erase ref).length + ((s.ramp r).ord.erase ref).length)
    let u := s.callUnit r v l credit
    OnlyNews s u ∧ UnitBecomes s u ref { v with status := .called } ∧
      u.link.notices = s.link.notices ++ [.call r ref l (s.laneFixed l).deck] ∧ u.link.sticky = s.link.sticky ∧
      u.link.flags = (if g = (s.ramp r).gateHold then s.link.flags else flagged [.gateHold r] s.link.flags) ∧
      u.ramp r =
        { s.ramp r with
          prio := (s.ramp r).prio.erase ref, ord := (s.ramp r).ord.erase ref, gateHold := g, lineHigh := g
          called := (s.ramp r).called ++ [ref], remaining := (s.ramp r).remaining - v.decl.weight, credit := credit } ∧
      OnlyChanges [.link, .units, .ramp r] s u := by
  obtain rfl := unit_ref hv
  intro g u
  obtain ⟨hramp, hflags⟩ := queueLeft_leaveQueue s r v.decl.ref hq
  obtain ⟨hnotices, hsticky⟩ := leaveQueue_notices s r v.decl.ref
  have hleft := leaveQueue_onlyNews s r v.decl.ref
  have hframe := onlyChanges_leaveQueue s r v.decl.ref
  have hrec := unitBecomes_setStatus (s := s.leaveQueue r v.decl.ref) .called (by simpa using hv)
  set t := (s.leaveQueue r v.decl.ref).setStatus v.decl.ref .called with ht
  have hlink : (t.setRamp r ((t.ramp r).withCall v.decl.ref v.decl.weight credit)).link =
      (s.leaveQueue r v.decl.ref).link := by simp [ht]
  have htold := notify_of_room (s := t.setRamp r ((t.ramp r).withCall v.decl.ref v.decl.weight credit))
    (n := .call r v.decl.ref l (s.laneFixed l).deck) (by rw [hlink, hnotices]; exact hroom)
  rw [hlink, hnotices, hsticky] at htold
  have hrun : u = (t.setRamp r ((t.ramp r).withCall v.decl.ref v.decl.weight credit)).notify
      (.call r v.decl.ref l (s.laneFixed l).deck) := rfl
  refine ⟨?_, ⟨?_, fun q hne => ?_⟩, htold.1, htold.2, ?_, ?_, ?_⟩
  · exact hleft.trans (.trans (onlyNews_of_link hlink) (onlyNews_notify _ _))
  · simpa [hrun] using hrec.1
  · simpa [hrun] using hrec.2 q hne
  · rw [hrun, notify_flags, hlink]
    exact hflags
  · have htramp : t.ramp r = (s.leaveQueue r v.decl.ref).ramp r := by simp [ht]
    have hcall : u.ramp r = (t.ramp r).withCall v.decl.ref v.decl.weight credit := by simp [hrun]
    rw [hcall, htramp, hramp]
    rfl
  · exact .trans (hframe.mono (by simp)) (.trans ((onlyChanges_setStatus _ _ _).mono (by simp)) (.trans
      ((onlyChanges_setRamp _ _ _).mono (by simp)) ((onlyChanges_notify _ _).mono (by simp))))

/-- Settles O27: the call condition, the choice, and what the call leaves. -/
theorem callTakesTheChosenUnit : Obligations.CallTakesTheChosenUnit := by
  unfold Obligations.CallTakesTheChosenUnit
  intro s r x ready
  refine ⟨fun h => exec_call_refused fun hm => h (mayCall_iff.1 hm), fun h => exec_call_none (callChoice_none h),
    fun ref credit v l hready hchosen hv hl => ?_⟩
  have hchoice := callChoice_of_chosen hchosen
  obtain ⟨hq, -⟩ := callChoice_spec hchoice
  have hroom : s.link.notices.length < 16 := by obtain ⟨-, -, -, hn⟩ := hready; omega
  obtain ⟨hnews, hrec, hnotices, hsticky, hflags, hramp, hframe⟩ :=
    callUnit_outcome (l := l) (credit := credit) hv hq hroom
  refine ⟨_, exec_call_made (mayCall_iff.2 hready) hchoice hv hl, ?_⟩
  rw [makeCall_eq]
  by_cases hfirst : (s.ramp r).called = []
  · rw [if_pos hfirst]
    refine ⟨hnews.trans (onlyNews_of_link (by simp)), hrec.of_eq (by simp), by simpa using hnotices, by simpa using hsticky,
      by simpa using hflags, ?_, hframe.trans ((onlyChanges_timeHead _ r).mono (by simp))⟩
    have htimer : headTimer ((s.callUnit r v l credit).timeHead r) r = headTimer (s.callUnit r v l credit) r :=
      headTimer_congr (by simp) (by simp) (by simp) (by simp)
    rw [timeHead_ramp, hramp, htimer, if_pos hfirst]
  · rw [if_neg hfirst]
    refine ⟨hnews, hrec, hnotices, hsticky, hflags, ?_, hframe⟩
    rw [hramp, if_neg hfirst]

end Sys2Proof.Machine

namespace Sys2Proof.Machine

open Sys2Proof

variable {s w u : State} {l : Lane} {r : Ramp} {called gone queue : List Ref} {ref : Ref} {ns : List Notice}

/-! ## A ramp whose units are released one after another, whatever their lanes (R106) -/

/-- What the reservation law says of units that a ramp gives up. -/
structure CloseReady (s : State) (r : Ramp) (gone : List Ref) : Prop where
  nodup : gone.Nodup
  reserved : ∀ ref ∈ gone, ∃ v l, s.unit? ref = some v ∧ v.lane = some l ∧ (s.laneFixed l).ramp = r ∧
    ref ∈ (s.lane l).reservations
  lanes : ∀ l, (s.lane l).reservations.Nodup
  prio : (s.ramp r).prio.Nodup
  ord : (s.ramp r).ord.Nodup
  called : (s.ramp r).called.Nodup
  gate : GateStands s r

theorem CloseReady.init (h : CloseReady s r (gone ++ queue)) : CloseReady s r gone :=
  { h with
    nodup := (List.nodup_append.1 h.nodup).1
    reserved := fun q hq => h.reserved q (List.mem_append_left _ hq) }

/-- The units that RAMP_CLOSE releases, as the reservation law has them (R26, R103, R104). -/
theorem ReservationLaw.closeReady (h : ReservationLaw s) (r : Ramp) :
    CloseReady s r (s.withStatus .called (s.ramp r).called ++ ((s.ramp r).prio ++ (s.ramp r).ord)) := by
  obtain ⟨-, -, hlanes, hramps, -⟩ := id h
  obtain ⟨hq, -, -, -, -, -, hon, hgate, -⟩ := hramps r
  obtain ⟨hprio, hord, -⟩ := List.nodup_append.1 hq
  have hstatus {q : Ref} (hm : q ∈ s.withStatus .called (s.ramp r).called) : s.statusOf q = some .called := by
    simpa using (List.mem_filter.1 hm).2
  refine ⟨?_, fun ref hr => ?_, fun l => (hlanes l).1, hprio, hord, h.called_nodup r, hon, hgate⟩
  · refine List.nodup_append.2 ⟨(h.called_nodup r).filter _, hq, ?_⟩
    rintro a hca _ hqa rfl
    obtain ⟨v, hv, hs⟩ := h.queued_waits (List.mem_append.1 hqa)
    have hcalled := hstatus hca
    simp [State.statusOf, hv, hs] at hcalled
  · rcases List.mem_append.1 hr with hc | hq
    · have hcalled := hstatus hc
      obtain ⟨v, hv, ⟨hs, l, hl, hramp⟩ | ⟨hs, -⟩⟩ := h.calledUnit (List.mem_filter.1 hc).1
      · exact ⟨v, l, hv, hl, hramp, h.called_reserved hv hs hl⟩
      · simp [State.statusOf, hv, hs] at hcalled
    · obtain ⟨v, hv, hs⟩ := h.queued_waits (List.mem_append.1 hq)
      obtain ⟨l, hl, hramp⟩ := h.queued (List.mem_append.1 hq)
      obtain ⟨l', hl', hm, -⟩ := h.waiting (unit_mem hv) hs
      have hsame : l' = l := by simpa [laneOf, hv, hl'] using hl
      subst hsame
      exact ⟨v, l', hv, hl', hramp, unit_ref hv ▸ hm⟩

/-- What the releases of units of one ramp leave of a state, with the notices told meanwhile; `called` are those that have
left the called list. -/
structure Emptied (s u : State) (r : Ramp) (called gone : List Ref) (ns : List Notice) : Prop where
  unit : ∀ q, u.unit? q = (s.unit? q).map fun v => if q ∈ gone then { v with lane := none } else v
  lanes : LanesReleased s u gone
  sums : SumsReleased s u gone
  ramp : RampCleared s u r called gone
  notified : Notified s u ns
  news : OnlyNews s u
  frame : OnlyChanges ([.link, .units, .stb, .ramp r] ++ anyLane) s u

theorem emptied_nil (hn : GateStands s r) : Emptied s s r [] [] [] where
  unit q := by simp
  lanes l := by simp
  sums := by simp [SumsReleased]
  ramp := rampCleared_nil hn
  notified := notified_nil rfl rfl
  news := onlyNews_refl s
  frame := .refl _ s

theorem Emptied.pst (h : Emptied s w r called gone ns) : w.pst = s.pst := h.frame .pst (by simp [anyLane])

theorem Emptied.notify (h : Emptied s w r called gone ns) (n : Notice) : Emptied s (w.notify n) r called gone (ns ++ [n]) where
  unit q := by simpa using h.unit q
  lanes l := by simpa using h.lanes l
  sums := by simpa [SumsReleased] using h.sums
  ramp := h.ramp.of_eq (by simp) (notify_flags w n) (fun _ _ => by simp) (by simp) (by simp)
  notified := h.notified.trans (notified_notify w n)
  news := h.news.trans (onlyNews_notify w n)
  frame := h.frame.trans ((onlyChanges_notify w n).mono (by simp))

theorem Emptied.leaveCalled (h : Emptied s w r called gone ns) (hc : (s.ramp r).called.Nodup) (ref : Ref) :
    Emptied s (w.leaveCalled r ref) r (called ++ [ref]) gone ns := by
  have hframe := onlyChanges_leaveCalled w r ref
  have hlink : (w.leaveCalled r ref).link = w.link := hframe .link (by simp)
  refine ⟨fun q => by simpa using h.unit q, fun l => by simpa using h.lanes l, by simpa [SumsReleased] using h.sums,
    h.ramp.snoc_called hc, ?_, h.news.trans (onlyNews_of_link hlink), h.frame.trans (hframe.mono (by simp))⟩
  unfold Notified
  rw [hlink]
  exact h.notified

/-- One more unit of the ramp is released. -/
theorem Emptied.release (hs : CloseReady s r (gone ++ [ref])) (h : Emptied s w r called gone ns) :
    Emptied s (w.release ref) r called (gone ++ [ref]) ns := by
  obtain ⟨v, l, hv, hl, hlr, hm⟩ := hs.reserved ref (by simp)
  have hg : ref ∉ gone := fun h => (List.nodup_append.1 hs.nodup).2.2 ref h ref (by simp) rfl
  have hwv : w.unit? ref = some v := by rw [h.unit, hv]; simp [hg]
  have hfixed : w.laneFixed l = s.laneFixed l := laneFixed_congr h.pst l
  have hrf : w.rampFixed r = s.rampFixed r := rampFixed_congr h.pst r
  have hlane : laneOf s ref = some l := by simp [laneOf, hv, hl]
  obtain ⟨hleft, hsums, hrec, hframe, hqueue, hstay⟩ :=
    release_reserved hwv hl ((congrArg LaneFixed.ramp hfixed).trans hlr)
  obtain ⟨hn, hst⟩ := release_notices w ref
  refine ⟨fun q => ?_, ?_, sumsReleased_snoc h.sums hsums hv hl hfixed, ?_, ?_, h.news.trans (release_onlyNews w ref), ?_⟩
  · by_cases hq : q = ref
    · rw [hq, hrec.1, hv]; simp
    · rw [hrec.2 q hq, h.unit]; simp [hq]
  · exact lanesReleased_snoc h.lanes hleft (fun k hk => hframe (.lane k) (by simpa using hk)) hlane hm hg (hs.lanes l)
  · by_cases hq : ref ∈ (s.ramp r).prio ∨ ref ∈ (s.ramp r).ord
    · have hwq : ref ∈ (w.ramp r).prio ∨ ref ∈ (w.ramp r).ord := by
        rw [h.ramp.prio, h.ramp.ord]
        exact hq.imp (fun h => by simp [still, h, hg]) fun h => by simp [still, h, hg]
      exact h.ramp.snoc_queued hs.gate hs.prio hs.ord hq (hqueue hwq) (by simp) (by simp) (by simp) hrf
    · obtain ⟨hp, ho⟩ := not_or.1 hq
      obtain ⟨hsame, hlink⟩ := hstay (by rw [h.ramp.prio]; simp [still, hp]) (by rw [h.ramp.ord]; simp [still, ho])
      exact (h.ramp.snoc_absent hp ho).of_eq hsame (by rw [hlink]) (by simp) (by simp) (by simp)
  · simpa using h.notified.trans (notified_nil hn hst)
  · have hany := mem_anyLane l
    exact h.frame.trans (hframe.mono (by simp [hany]))

/-- The CALLED units, from the front of the called list. -/
theorem emptied_called (hs : CloseReady s r called) :
    Emptied s (called.foldl (fun s ref => s.closeCalled r ref) s) r called called
      (called.map fun ref => .uncall r ref .rampClosed none) := by
  induction called using List.reverseRecOn with
  | nil => exact emptied_nil hs.gate
  | append_singleton called ref ih =>
    rw [List.foldl_append, List.map_append]
    exact ((((ih hs.init).leaveCalled hs.called ref).notify (.uncall r ref .rampClosed none)).release hs)

/-- The queues behind them. -/
theorem Emptied.queues (h : Emptied s w r called gone ns) (hs : CloseReady s r (gone ++ queue)) :
    Emptied s (queue.foldl (fun s ref => s.release ref) w) r called (gone ++ queue) ns := by
  induction queue using List.reverseRecOn with
  | nil => simpa using h
  | append_singleton queue ref ih =>
    rw [← List.append_assoc] at hs ⊢
    rw [List.foldl_append]
    exact (ih hs.init).release hs

/-! ## Units handed over each from its own lane (R80, R106) -/

/-- What a burst of hand-overs leaves of a state, each unit with its former lane. -/
structure HandedFrom (lanes : Ref → Option Lane) (s u : State) (refs : List Ref) : Prop where
  unit : ∀ q, u.unit? q = (s.unit? q).map fun v => if q ∈ refs then reallocatedRecord v else v
  alc : u.alc =
    { s.alc with
      service := s.alc.service ++ refs.filterMap fun ref => (lanes ref).map fun l => .placement ref (.reallocation l) }
  frame : OnlyChanges [.units, .alc] s u

theorem handedFrom_foldl (lanes : Ref → Option Lane) (s : State) {refs : List Ref}
    (h : ∀ ref ∈ refs, ∃ l, lanes ref = some l) : HandedFrom lanes s (refs.foldl (handOverFrom lanes) s) refs := by
  induction refs using List.reverseRecOn with
  | nil => exact ⟨fun q => by simp, by simp, .refl _ s⟩
  | append_singleton refs ref ih =>
    have hinit := ih fun q hq => h q (List.mem_append_left _ hq)
    obtain ⟨l, hl⟩ := h ref (by simp)
    rw [List.foldl_append]
    generalize refs.foldl (handOverFrom lanes) s = w at hinit
    have hone : HandedOver w (handOverFrom lanes w ref) l [ref] := by
      unfold handOverFrom
      rw [hl]
      exact handedOver_foldl w l [ref]
    refine ⟨fun q => ?_, ?_, hinit.frame.trans hone.frame⟩
    · change (handOverFrom lanes w ref).unit? q = _
      rw [hone.unit, hinit.unit]
      by_cases hq : q = ref
      · subst hq
        cases s.unit? q with
        | none => rfl
        | some v => by_cases hr : q ∈ refs <;> simp [hr, reallocatedRecord]
      · cases s.unit? q <;> simp [hq]
    · change (handOverFrom lanes w ref).alc = _
      simp [hone.alc, hinit.alc, hl]

end Sys2Proof.Machine

namespace Sys2Proof.Machine

open Sys2Proof

variable {s b w u : State} {f : Frame} {rest : List Frame} {r : Ramp} {called gone : List Ref} {state : RampState}
  {plate : Plate}

/-! ## The ramp enters CLOSING (R106) -/

theorem beginClose_ramp (s : State) (r : Ramp) : (s.beginClose r).ramp r =
    { s.ramp r with state := .closing, intervalTimer := none, callTimer := none } := by
  unfold State.beginClose
  simp [setRampState_ramp]

theorem onlyChanges_beginClose (s : State) (r : Ramp) : OnlyChanges [.link, .ramp r] s (s.beginClose r) :=
  .trans (onlyChanges_setRampState s r .closing) ((onlyChanges_setRamp _ r _).mono (by simp))

theorem beginClose_link (s : State) (r : Ramp) : (s.beginClose r).link = (s.setRampState r .closing).link := by
  simp [State.beginClose]

theorem beginClose_reads (s : State) (r : Ramp) :
    (∀ q, (s.beginClose r).unit? q = s.unit? q) ∧ (∀ q, (s.beginClose r).statusOf q = s.statusOf q) ∧
      (∀ l, (s.beginClose r).laneFixed l = s.laneFixed l) ∧ (s.beginClose r).rampFixed r = s.rampFixed r :=
  ⟨fun q => by simp [State.beginClose], fun q => by simp [State.beginClose], fun l => by simp [State.beginClose],
    by simp [State.beginClose]⟩

theorem beginClose_lane (s : State) (r : Ramp) (l : Lane) : (s.beginClose r).lane l = s.lane l :=
  onlyChanges_beginClose s r (.lane l) (by simp)

theorem laneOf_beginClose (s : State) (r : Ramp) (q : Ref) : laneOf (s.beginClose r) q = laneOf s q := by
  obtain ⟨hunit, -⟩ := beginClose_reads s r
  simp [laneOf, hunit]

/-- The lists and the gate hold are as they were. -/
theorem CloseReady.beginClose (h : CloseReady s r gone) : CloseReady (s.beginClose r) r gone := by
  obtain ⟨hunit, -, hfixed, hrf⟩ := beginClose_reads s r
  refine ⟨h.nodup, ?_, fun l => by rw [beginClose_lane]; exact h.lanes l, ?_, ?_, ?_, ?_⟩
  · simpa only [hunit, hfixed, beginClose_lane] using h.reserved
  · rw [beginClose_ramp]; exact h.prio
  · rw [beginClose_ramp]; exact h.ord
  · rw [beginClose_ramp]; exact h.called
  · unfold GateStands
    rw [beginClose_ramp, hrf]
    exact h.gate

/-! ## Lanes and sums seen from an earlier state -/

theorem LanesReleased.congr (h : LanesReleased b w gone) (hb : ∀ l, b.lane l = s.lane l) (ho : ∀ q, laneOf b q = laneOf s q)
    (hu : ∀ l, u.lane l = w.lane l) : LanesReleased s u gone := fun l => by
  have hl := h l
  simp only [hb, ho] at hl
  rw [hu]
  exact hl

theorem SumsReleased.congr (h : SumsReleased b w gone) (hb : b.stb = s.stb) (hd : ∀ q, b.unit? q = s.unit? q)
    (hf : ∀ l, b.laneFixed l = s.laneFixed l) (hu : u.stb = w.stb) : SumsReleased s u gone := by
  obtain ⟨hml, hmt, hload⟩ := promised_congr (w := b) (s := s) (fun q => by rw [hd]) (fun q => by simp [laneOf, hd]) hf
  unfold SumsReleased at h ⊢
  rw [hml, hmt, hload, hb] at h
  rwa [hu]

/-! ## Pending flags that are set again (R177) -/

theorem flagged_append (xs ys : List Subject) (flags : Vector Bool 9) :
    flagged (xs ++ ys) flags = flagged ys (flagged xs flags) := List.foldl_append

theorem getElem_flagged (xs : List Subject) (flags : Vector Bool 9) (i : Fin 9) :
    (flagged xs flags)[i] = (flags[i] || xs.any fun x => decide (x.index = i)) := by
  induction xs generalizing flags with
  | nil => simp [flagged]
  | cons x xs ih =>
    have hset : (flags.set x.index true)[i] = (flags[i] || decide (x.index = i)) := by
      by_cases hx : x.index = i
      · subst hx; simp
      · have hne : x.index.val ≠ i.val := fun e => hx (Fin.ext e)
        simp [hx, hne]
    change (flagged xs (flags.set x.index true))[i] = _
    rw [ih, hset, List.any_cons, Bool.or_assoc]

/-- A flag that is set stands when it is set again. -/
theorem flagged_again {x : Subject} {xs : List Subject} (h : x ∈ xs) (flags : Vector Bool 9) :
    flagged [x] (flagged xs flags) = flagged xs flags := by
  rw [← flagged_append]
  refine Vector.ext fun i hi => ?_
  have hall := getElem_flagged (xs ++ [x]) flags ⟨i, hi⟩
  have hsome := getElem_flagged xs flags ⟨i, hi⟩
  simp only [Fin.getElem_fin] at hall hsome
  rw [hall, hsome, List.any_append]
  by_cases hx : x.index = ⟨i, hi⟩
  · have hany : (xs.any fun y => decide (y.index = ⟨i, hi⟩)) = true := List.any_eq_true.2 ⟨x, h, by simpa using hx⟩
    simp [hany]
  · simp [hx]

/-! ## What RAMP_CLOSE leaves (R106, R125) -/

/-- The units of the called list that are CALLED, which RAMP_CLOSE releases first (R106). -/
def closingCalled (s : State) (r : Ramp) : List Ref := s.withStatus .called (s.ramp r).called

/-- What the closing of a ramp leaves of a state, the ramp being in state `state` and its plate `plate`. -/
structure RampClosing (s u : State) (r : Ramp) (state : RampState) (plate : Plate) (called gone : List Ref) : Prop where
  notified : Notified s u (called.map fun ref => .uncall r ref .rampClosed none)
  flags : u.link.flags =
    flagged (.rampState r ::
      if gateAfter (s.rampFixed r) (s.ramp r).gateHold 0 = (s.ramp r).gateHold then [] else [.gateHold r]) s.link.flags
  ramp : u.ramp r =
    { s.ramp r with
      state := state, intervalTimer := none, callTimer := none
      gateHold := gateAfter (s.rampFixed r) (s.ramp r).gateHold 0
      lineHigh := if (s.ramp r).prio ++ (s.ramp r).ord = [] then (s.ramp r).lineHigh
        else gateAfter (s.rampFixed r) (s.ramp r).gateHold 0
      prio := [], ord := [], called := (s.ramp r).called.filter fun ref => !called.contains ref }
  plate : u.plate r = plate
  unit : ∀ ref, u.unit? ref = (s.unit? ref).map fun v => if ref ∈ gone then reallocatedRecord v else v
  alc : u.alc = { s.alc with service := s.alc.service ++ burst s gone }
  lanes : LanesReleased s u gone
  sums : SumsReleased s u gone
  news : OnlyNews s u
  frame : OnlyChanges ([.link, .units, .stb, .alc, .ramp r, .plate r] ++ anyLane) s u

theorem still_eq_nil {xs : List Ref} (h : ∀ q ∈ xs, q ∈ gone) : still gone xs = [] :=
  List.filter_eq_nil_iff.2 fun q hq => by simp [h q hq]

/-- A queue that is emptied has left someone behind it just when someone stood in it. -/
theorem someLeft_of_emptied (hp : still gone (s.ramp r).prio = []) (ho : still gone (s.ramp r).ord = []) :
    SomeLeft s gone r ↔ (s.ramp r).prio ++ (s.ramp r).ord ≠ [] := by
  unfold SomeLeft
  rw [hp, ho, Ne, Ne, Ne, List.append_eq_nil_iff, not_and_or]

/-- The units that stay in the called list are CROSSING, so no call timer runs (R114). -/
theorem headTimer_of_emptied (hc : (u.ramp r).called = still (closingCalled s r) (s.ramp r).called)
    (hs : ∀ q, u.statusOf q = s.statusOf q) : headTimer u r = none := by
  unfold headTimer
  cases hh : (u.ramp r).called.head? with
  | none => rfl
  | some q =>
    have hm : q ∈ still (closingCalled s r) (s.ramp r).called := hc ▸ List.mem_of_mem_head? hh
    obtain ⟨hq, hstay⟩ := List.mem_filter.1 hm
    have hnot : s.statusOf q ≠ some .called := fun e => by
      have hcalled : q ∈ closingCalled s r := List.mem_filter.2 ⟨hq, by simpa using e⟩
      simp [hcalled] at hstay
    simp [hs, hnot]

theorem Emptied.statusOf {ns : List Notice} (h : Emptied s w r called gone ns) (q : Ref) : w.statusOf q = s.statusOf q := by
  unfold State.statusOf
  rw [h.unit]
  cases s.unit? q with
  | none => rfl
  | some v => by_cases hq : q ∈ gone <;> simp [hq]

/-- The ramp when its units have been released: both queues empty, no timer running. -/
theorem Emptied.closed_ramp {ns : List Notice} (h : Emptied (s.beginClose r) w r (closingCalled s r) gone ns)
    (hp : ∀ q ∈ (s.ramp r).prio, q ∈ gone) (ho : ∀ q ∈ (s.ramp r).ord, q ∈ gone) :
    w.ramp r =
      { s.ramp r with
        state := .closing, intervalTimer := none, callTimer := none
        gateHold := gateAfter (s.rampFixed r) (s.ramp r).gateHold 0
        lineHigh := if (s.ramp r).prio ++ (s.ramp r).ord = [] then (s.ramp r).lineHigh
          else gateAfter (s.rampFixed r) (s.ramp r).gateHold 0
        prio := [], ord := [], called := (s.ramp r).called.filter fun ref => !(closingCalled s r).contains ref } ∧
      w.link.flags = if gateAfter (s.rampFixed r) (s.ramp r).gateHold 0 = (s.ramp r).gateHold
        then (s.beginClose r).link.flags else flagged [.gateHold r] (s.beginClose r).link.flags := by
  obtain ⟨-, hstatus, -, hrf⟩ := beginClose_reads s r
  have hbegun := beginClose_ramp s r
  have hprio : still gone ((s.beginClose r).ramp r).prio = [] := by rw [hbegun]; exact still_eq_nil hp
  have hord : still gone ((s.beginClose r).ramp r).ord = [] := by rw [hbegun]; exact still_eq_nil ho
  have hgate : gateWithout (s.beginClose r) gone r = gateAfter (s.rampFixed r) (s.ramp r).gateHold 0 := by
    unfold gateWithout
    rw [hprio, hord, hrf, hbegun]
    rfl
  have hleft := someLeft_of_emptied hprio hord
  have hline : (w.ramp r).lineHigh = if (s.ramp r).prio ++ (s.ramp r).ord = [] then (s.ramp r).lineHigh
      else gateAfter (s.rampFixed r) (s.ramp r).gateHold 0 := by
    rw [hbegun] at hleft
    split
    · next hnil => rw [h.ramp.lineKept fun hl => hleft.1 hl hnil, hbegun]
    · next hsome => rw [h.ramp.line (hleft.2 hsome), hgate]
  have hlist : (w.ramp r).called = still (closingCalled s r) (s.ramp r).called := by rw [h.ramp.list.list, hbegun]
  have htimer : (w.ramp r).callTimer = none := by
    rw [h.ramp.list.timer, headTimer_of_emptied hlist fun q => (h.statusOf q).trans (hstatus q), hbegun]
    exact ite_self _
  refine ⟨?_, ?_⟩
  · rw [h.ramp.settings, hbegun]
    simp only [RampRun.withListsOf, h.ramp.prio, hprio, h.ramp.ord, hord, h.ramp.gate, hgate, hline, hlist, htimer]
    rfl
  · have hflags := h.ramp.flags
    rw [hgate, hbegun] at hflags
    exact hflags

/-- The release of the units and their burst leave the ramp CLOSING. -/
theorem emptyRamp_closing (hlaw : ReservationLaw s) (ho : (s.ramp r).state = .opened) :
    RampClosing s (s.emptyRamp r (closingCalled s r) ((s.ramp r).prio ++ (s.ramp r).ord)) r .closing (s.plate r)
      (closingCalled s r) (closingCalled s r ++ ((s.ramp r).prio ++ (s.ramp r).ord)) := by
  have hready := hlaw.closeReady r
  change CloseReady s r (closingCalled s r ++ ((s.ramp r).prio ++ (s.ramp r).ord)) at hready
  have hfrom (ref : Ref) (hm : ref ∈ closingCalled s r ++ ((s.ramp r).prio ++ (s.ramp r).ord)) :
      ∃ l, laneOf s ref = some l := by
    obtain ⟨v, l, hv, hl, -⟩ := hready.reserved ref hm
    exact ⟨l, by simp [laneOf, hv, hl]⟩
  have hout := (emptied_called hready.beginClose.init).queues hready.beginClose
  obtain ⟨hramp, hflags⟩ := hout.closed_ramp (fun q hq => by simp [hq]) (fun q hq => by simp [hq])
  obtain ⟨hunit, -, hfixed, -⟩ := beginClose_reads s r
  have hbegun := onlyChanges_beginClose s r
  have hlink := beginClose_link s r
  have hquiet := notified_setRampState s r .closing
  have hstate := setRampState_flags s r .closing
  rw [if_neg (by simp [ho]), ← hlink] at hstate
  unfold State.emptyRamp
  generalize ((s.ramp r).prio ++ (s.ramp r).ord).foldl (fun s ref => s.release ref)
    ((closingCalled s r).foldl (fun s ref => s.closeCalled r ref) (s.beginClose r)) = w at hout hramp hflags ⊢
  have hburst := handedFrom_foldl (laneOf s) w hfrom
  generalize (closingCalled s r ++ ((s.ramp r).prio ++ (s.ramp r).ord)).foldl (handOverFrom (laneOf s)) w = u at hburst ⊢
  have hulink : u.link = w.link := hburst.frame .link (by simp)
  refine ⟨?_, ?_, (hburst.frame (.ramp r) (by simp)).trans hramp, ?_, fun q => ?_, ?_, ?_, ?_, ?_, ?_⟩
  · have hbegin : Notified s (s.beginClose r) [] := by simpa [Notified, hlink] using hquiet
    simpa [Notified, hulink] using hbegin.trans hout.notified
  · rw [hulink, hflags, hstate]
    split <;> rfl
  · exact (hburst.frame (.plate r) (by simp)).trans ((hout.frame (.plate r) (by simp [anyLane])).trans
      (hbegun (.plate r) (by simp)))
  · rw [hburst.unit, hout.unit, hunit]
    cases s.unit? q with
    | none => rfl
    | some v => by_cases hq : q ∈ closingCalled s r ++ ((s.ramp r).prio ++ (s.ramp r).ord) <;> simp [hq, reallocatedRecord]
  · have halc : w.alc = s.alc := (hout.frame .alc (by simp [anyLane])).trans (hbegun .alc (by simp))
    rw [hburst.alc, halc]
    rfl
  · exact hout.lanes.congr (beginClose_lane s r) (laneOf_beginClose s r) fun l => hburst.frame (.lane l) (by simp)
  · exact hout.sums.congr (hbegun .stb (by simp)) hunit hfixed (hburst.frame .stb (by simp))
  · have hbegin : OnlyNews s (s.beginClose r) := (onlyNews_setRampState s r .closing).trans (onlyNews_of_link hlink)
    exact hbegin.trans (hout.news.trans (onlyNews_of_link hulink))
  · refine .trans (hbegun.mono (by simp)) (.trans (hout.frame.mono ?_) (hburst.frame.mono (by simp)))
    exact List.append_subset.2 ⟨by simp, List.subset_append_right _ _⟩

/-- With its plate IDLE the ramp is CLOSED at the same event. -/
theorem RampClosing.close (h : RampClosing s w r .closing (s.plate r) called gone) :
    RampClosing s (w.closeRamp r) r .closed { s.plate r with state := .disarmed } called gone := by
  have hset := onlyChanges_setRampState w r .closed
  have hplate := onlyChanges_setPlate (w.setRampState r .closed) r
    { (w.setRampState r .closed).plate r with state := .disarmed }
  have hlink : (w.closeRamp r).link = (w.setRampState r .closed).link := by simp [State.closeRamp]
  have hflags := setRampState_flags w r .closed
  rw [if_neg (by simp [h.ramp]), h.flags, flagged_again (by simp), ← hlink] at hflags
  have hquiet := h.notified.trans (notified_setRampState w r .closed)
  refine ⟨by simpa [Notified, hlink] using hquiet, hflags, ?_, ?_, fun q => ?_, ?_, ?_, ?_, ?_, ?_⟩
  · have hramp : (w.closeRamp r).ramp r = { w.ramp r with state := .closed } := by
      simp [State.closeRamp, setRampState_ramp]
    rw [hramp, h.ramp]
  · have hdisarmed : (w.closeRamp r).plate r = { w.plate r with state := .disarmed } := by simp [State.closeRamp]
    rw [hdisarmed, h.plate]
  · exact Eq.trans (by simp [State.closeRamp]) (h.unit q)
  · exact Eq.trans (by simp [State.closeRamp]) h.alc
  · exact h.lanes.congr (fun _ => rfl) (fun _ => rfl) fun l => by simp [State.closeRamp]
  · exact h.sums.congr rfl (fun _ => rfl) (fun _ => rfl) (by simp [State.closeRamp])
  · exact h.news.trans ((onlyNews_setRampState w r .closed).trans (onlyNews_of_link hlink))
  · exact .trans h.frame (.trans (hset.mono (by simp)) (hplate.mono (by simp)))

/-- The command as a whole: with an IDLE plate the ramp is CLOSED at the same event, otherwise it stays CLOSING. -/
theorem ownRampClose_outcome (t : Ticket) (hlaw : ReservationLaw s) (ho : (s.ramp r).state = .opened) :
    let state := if (s.plate r).state = .idle then RampState.closed else .closing
    let plate := if (s.plate r).state = .idle then { s.plate r with state := .disarmed } else s.plate r
    let gone := closingCalled s r ++ ((s.ramp r).prio ++ (s.ramp r).ord)
    ∃ v, ownRampClose t r s = v.fill t (.rampClosed state gone.length) ∧
      RampClosing s v r state plate (closingCalled s r) gone := by
  intro state plate gone
  have hempty := emptyRamp_closing hlaw ho
  rw [ownRampClose_opened ho]
  by_cases hidle : (s.plate r).state = .idle
  · have hclosed := hempty.close
    simp only [state, plate, hidle, if_true]
    refine ⟨_, ?_, hclosed⟩
    rw [← show _ = RampState.closed from congrArg RampRun.state hclosed.ramp]
    rfl
  · simp only [state, plate, hidle, if_false]
    refine ⟨_, ?_, hempty⟩
    rw [← show _ = RampState.closing from congrArg RampRun.state hempty.ramp]
    rfl

/-- Settles O25: the ramp is emptied, and with an IDLE plate it is CLOSED at once. -/
theorem rampCloseReleasesTheRamp : Obligations.RampCloseReleasesTheRamp := by
  unfold Obligations.RampCloseReleasesTheRamp
  intro s f rest r hh hq ho hlaw x called gone state g
  have hx : exec .rampClose s = .next (ownRampClose f.ticket r (s.taken f rest)).startTx := handle_of_handed hh hq rfl
  have hgone : gone = called ++ (x.prio ++ x.ord) := List.append_assoc _ _ _
  obtain ⟨v, hown, hv⟩ := ownRampClose_outcome (s := s.taken f rest) f.ticket hlaw ho
  rw [hown] at hx
  rw [hgone]
  exact ⟨_, hx, replied_of_fill _ hv.news, hv.notified, hv.flags, hv.ramp, hv.plate, hv.unit, hv.alc, hv.lanes, hv.sums,
    onlyChanges_fill (f := f) (rest := rest) _ _ (by simp) hv.frame⟩

end Sys2Proof.Machine

namespace Sys2Proof.Machine

open Sys2Proof

/-! ## AXLE_EDGE (R125, R126, R128) -/

/-- The edge counter stops at 15, and an edge is converted by an idle converter up to the twelfth, by the cases of R128. -/
theorem counted_eq (gap : Nat) (p : Plate) :
    let n := if p.axleCount < 15 then p.axleCount + 1 else 15
    let converts := p.busy = false ∧ n ≤ 12
    p.counted gap =
      { p with
        axleCount := n, busy := decide (p.busy = true ∨ converts)
        fault := decide (p.fault = true ∨ ¬ converts), gapTimer := some gap } := by
  intro n converts
  have hn : min 15 (p.axleCount + 1) = n := by
    simp only [n]
    split <;> omega
  have hconverts : (!p.busy && decide (n ≤ 12)) = decide converts := by simp [converts]
  have hcounted : p.counted gap =
      { p with
        axleCount := min 15 (p.axleCount + 1), busy := p.busy || (!p.busy && decide (min 15 (p.axleCount + 1) ≤ 12))
        fault := p.fault || !(!p.busy && decide (min 15 (p.axleCount + 1) ≤ 12)), gapTimer := some gap } := rfl
  rw [hcounted, hn, hconverts]
  simp

theorem exec_axleEdge_disarmed {s : State} {r : Ramp} (h : (s.plate r).state = .disarmed) :
    exec (.axleEdge r) s = .next s := by
  change execAxleEdge r s = _
  simp [execAxleEdge, h, notNow]

theorem exec_axleEdge_idle {s : State} {r : Ramp} (h : (s.plate r).state = .idle) :
    exec (.axleEdge r) s = .next (s.openCrossing r).startTx := by
  change execAxleEdge r s = _
  simp [execAxleEdge, h, finish]

theorem exec_axleEdge_weighing {s : State} {r : Ramp} (h : (s.plate r).state = .weighing) :
    exec (.axleEdge r) s = .next (s.setPlate r ((s.plate r).counted (s.crossingGapMs r))).startTx := by
  change execAxleEdge r s = _
  simp [execAxleEdge, h, finish]

/-- A crossing with a head on the called list is the head's (R126). -/
theorem openCrossing_of_head {s : State} {r : Ramp} {ref : Ref} (h : (s.ramp r).called.head? = some ref) :
    s.openCrossing r =
      ((s.setPlate r (Plate.opened (s.crossingGapMs r) (some ref))).setStatus ref .crossing).setRamp r
        { s.ramp r with callTimer := none } := by
  simp [State.openCrossing, h]

/-- A crossing with nobody called is unexpected (R126). -/
theorem openCrossing_of_nobody {s : State} {r : Ramp} (h : (s.ramp r).called = []) :
    s.openCrossing r = (s.setPlate r (Plate.opened (s.crossingGapMs r) none)).setSticky (.unexpected r) := by
  simp [State.openCrossing, h]

/-- Settles O35: the plate's state decides, and at an IDLE one the called list's head. -/
theorem axleEdgeOpensOrCounts : Obligations.AxleEdgeOpensOrCounts := by
  unfold Obligations.AxleEdgeOpensOrCounts
  intro s r p gap opened
  refine ⟨exec_axleEdge_disarmed, fun hi ref v hh hv => ?_, fun hi hn => ?_, fun hw => ?_⟩
  · have hx := exec_axleEdge_idle hi
    rw [openCrossing_of_head hh] at hx
    refine ⟨_, hx, ?_, by simp; rfl, by simp, ?_⟩
    · have hcrossing := unitBecomes_setStatus (s := s.setPlate r (Plate.opened (s.crossingGapMs r) (some ref))) .crossing hv
      exact hcrossing.of_eq fun _ => rfl
    · exact .trans ((onlyChanges_setPlate s r _).mono (by simp)) (.trans ((onlyChanges_setStatus _ _ _).mono (by simp))
        ((onlyChanges_setRamp _ _ _).mono (by simp)))
  · have hx := exec_axleEdge_idle hi
    rw [openCrossing_of_nobody hn] at hx
    refine ⟨_, hx, by simp; rfl, rfl, ?_⟩
    exact .trans ((onlyChanges_setPlate s r _).mono (by simp)) ((onlyChanges_modLink _ _).mono (by simp))
  · refine ⟨_, exec_axleEdge_weighing hw, ?_, onlyChanges_setPlate s r _⟩
    rw [State.plate_setPlate_same, counted_eq]
    rfl

end Sys2Proof.Machine

namespace Sys2Proof.Machine

open Sys2Proof

variable {s w x : State} {r : Ramp} {ref : Ref} {gone : Option Ref} {v : UnitRecord} {bs : List Block}

/-! ## The plate that a completed crossing leaves (R107, R114, R132) -/

/-- The pending flags when a crossing completes: a CLOSING ramp is CLOSED and says so (R107, R123). -/
def flagsVacated (s : State) (r : Ramp) : Vector Bool 9 :=
  if (s.ramp r).state = .closing then flagged [.rampState r] s.link.flags else s.link.flags

/-- What a completed crossing leaves of a ramp before its unit, if any, is settled: the plate cleared, the unit off the called
list. The call timer is left for the end of the event. -/
structure Vacated (s w : State) (r : Ramp) (gone : Option Ref) : Prop where
  ramp : w.ramp r = { rampCompleted w r (s.ramp r) gone with callTimer := (w.ramp r).callTimer }
  plate : w.plate r = plateCleared (s.ramp r).state
  flags : w.link.flags = flagsVacated s r
  news : OnlyNews s w
  quiet : Notified s w []
  frame : OnlyChanges [.link, .ramp r, .plate r] s w

theorem clearPlate_of_opened (h : (s.ramp r).state = .opened) :
    s.clearPlate r = (s.setPlate r Plate.reset).setPlate r { Plate.reset with state := .idle } := by
  simp [State.clearPlate, h]

theorem clearPlate_of_closing (h : (s.ramp r).state = .closing) :
    s.clearPlate r = (s.setPlate r Plate.reset).closeRamp r := by
  simp [State.clearPlate, h]

theorem clearPlate_of_closed (h : (s.ramp r).state = .closed) : s.clearPlate r = s.setPlate r Plate.reset := by
  simp [State.clearPlate, h]

/-- A plate that is cleared while the ramp stays as it is. -/
theorem vacated_setPlate (h : (s.ramp r).state ≠ .closing) (hw : OnlyChanges [.plate r] s w)
    (hp : w.plate r = plateCleared (s.ramp r).state) : Vacated s w r none := by
  have hlink : w.link = s.link := hw .link (by simp)
  have hramp : w.ramp r = s.ramp r := hw (.ramp r) (by simp)
  refine ⟨?_, hp, ?_, onlyNews_of_link hlink, notified_nil ?_ ?_, hw.mono (by simp)⟩
  · rw [hramp, rampCompleted, if_neg h]
  · rw [hlink, flagsVacated, if_neg h]
  · rw [hlink]
  · rw [hlink]

theorem vacated_clearPlate (s : State) (r : Ramp) : Vacated s (s.clearPlate r) r none := by
  have hreset := onlyChanges_setPlate s r Plate.reset
  cases h : (s.ramp r).state with
  | opened =>
    rw [clearPlate_of_opened h]
    exact vacated_setPlate (by simp [h]) (hreset.trans (onlyChanges_setPlate _ r _))
      (by simp [h, plateCleared, Plate.reset])
  | closed =>
    rw [clearPlate_of_closed h]
    exact vacated_setPlate (by simp [h]) hreset (by simp [h, plateCleared, Plate.reset])
  | closing =>
    rw [clearPlate_of_closing h]
    have hlink : ((s.setPlate r Plate.reset).closeRamp r).link =
        ((s.setPlate r Plate.reset).setRampState r .closed).link := by simp [State.closeRamp]
    have hflags := setRampState_flags (s.setPlate r Plate.reset) r .closed
    have hnews := onlyNews_setRampState (s.setPlate r Plate.reset) r .closed
    have hquiet := notified_setRampState (s.setPlate r Plate.reset) r .closed
    refine ⟨?_, ?_, ?_, ?_, ?_, ?_⟩
    · simp [State.closeRamp, setRampState_ramp, rampCompleted, h]
    · simp [State.closeRamp, plateCleared, h, Plate.reset]
    · simpa [hlink, flagsVacated, h] using hflags
    · exact hnews.trans (onlyNews_of_link hlink)
    · simpa [Notified, hlink] using hquiet
    · exact .trans (hreset.mono (by simp)) (.trans ((onlyChanges_setRampState _ _ _).mono (by simp))
        ((onlyChanges_setPlate _ _ _).mono (by simp)))

/-- The crossing unit leaves the called list. -/
theorem Vacated.leaveCalled (h : Vacated s w r none) (ref : Ref) : Vacated s (w.leaveCalled r ref) r (some ref) := by
  have hleft := onlyChanges_leaveCalled w r ref
  have hlink : (w.leaveCalled r ref).link = w.link := hleft .link (by simp)
  refine ⟨?_, (hleft (.plate r) (by simp)).trans h.plate, ?_, h.news.trans (onlyNews_of_link hlink), ?_,
    h.frame.trans (hleft.mono (by simp))⟩
  · rw [leaveCalled_ramp, h.ramp]
    rfl
  · rw [hlink, h.flags]
  · simpa [Notified, hlink] using h.quiet

theorem vacated_leaveCalled (s : State) (r : Ramp) (ref : Ref) :
    Vacated s ((s.clearPlate r).leaveCalled r ref) r (some ref) := (vacated_clearPlate s r).leaveCalled ref

/-- Once the unit is settled, the called list's new head is timed (R114). -/
theorem Vacated.timed (h : Vacated s w r gone) (hx : OnlyChanges bs w x) (hr : .ramp r ∉ bs) (hp : .plate r ∉ bs) :
    (x.timeHead r).plate r = plateCleared (s.ramp r).state ∧
      (x.timeHead r).ramp r = rampCompleted (x.timeHead r) r (s.ramp r) gone := by
  have hplate : x.plate r = w.plate r := hx (.plate r) hp
  have hramp : x.ramp r = w.ramp r := hx (.ramp r) hr
  have htimer : headTimer (x.timeHead r) r = headTimer x r := headTimer_congr (by simp) (by simp) (by simp) (by simp)
  refine ⟨hplate.trans h.plate, ?_⟩
  rw [timeHead_ramp, hramp, h.ramp]
  simp [rampCompleted, htimer]

/-- The parts that a completion changes, after those that the unit's settling does. -/
theorem Vacated.timedFrame (h : Vacated s w r gone) (hx : OnlyChanges bs w x) :
    OnlyChanges (bs ++ [.link, .ramp r, .plate r]) s (x.timeHead r) :=
  .trans (h.frame.mono (by simp)) (.trans (hx.mono (by simp)) ((onlyChanges_timeHead x r).mono (by simp)))

/-! ## GAP_TIMER_EXPIRY (R132, R133) -/

theorem exec_gapTimerExpiry_idle
    (h : (s.plate r).state ≠ .weighing ∨ (s.plate r).gapTimer = none ∨ (s.plate r).busy = true) :
    exec (.gapTimerExpiry r) s = .next s := by
  have hc : ¬ ((s.plate r).state = .weighing ∧ (s.plate r).gapTimer.isSome ∧ (s.plate r).busy = false) := by
    rintro ⟨hw, ht, hb⟩
    rcases h with h | h | h
    · exact h hw
    · simp [h] at ht
    · simp [h] at hb
  exact if_neg hc

theorem exec_gapTimerExpiry_unexpected (hw : (s.plate r).state = .weighing) (ht : (s.plate r).gapTimer ≠ none)
    (hb : (s.plate r).busy = false) (hu : (s.plate r).unit = none) :
    exec (.gapTimerExpiry r) s =
      .next (((s.clearPlate r).notify
        (.unexpectedCrossing r (s.plate r).axleCount (s.plate r).fault)).timeHead r).startTx := by
  change execGapTimerExpiry r s = _
  simp [execGapTimerExpiry, hw, hb, hu, Option.isSome_iff_ne_none, ht, finish]

theorem exec_gapTimerExpiry_of_unit (hw : (s.plate r).state = .weighing) (ht : (s.plate r).gapTimer ≠ none)
    (hb : (s.plate r).busy = false) (hu : (s.plate r).unit = some ref) (hv : s.unit? ref = some v) :
    exec (.gapTimerExpiry r) s =
      .next ((((s.clearPlate r).leaveCalled r ref).settle r (s.plate r) v).timeHead r).startTx := by
  change execGapTimerExpiry r s = _
  simp [execGapTimerExpiry, hw, hb, hu, Option.isSome_iff_ne_none, ht, finish, unitOf_clearPlate, hv]

/-- Settles O37: the plate is cleared, the notice queued and the head timed. -/
theorem unexpectedCrossingCompletes : Obligations.UnexpectedCrossingCompletes := by
  unfold Obligations.UnexpectedCrossingCompletes
  intro s r p closing
  refine ⟨exec_gapTimerExpiry_idle, fun hw ht hb hu => ⟨_, exec_gapTimerExpiry_unexpected hw ht hb hu, ?_⟩⟩
  have hleft := vacated_clearPlate s r
  have htold := onlyChanges_notify (s.clearPlate r) (.unexpectedCrossing r p.axleCount p.fault)
  obtain ⟨hplate, hramp⟩ := hleft.timed htold (by simp) (by simp)
  exact ⟨hleft.news.trans (onlyNews_notify _ _), hplate, hramp, hleft.quiet.trans (notified_notify _ _),
    (notify_flags _ _).trans hleft.flags, (hleft.timedFrame htold).mono (by simp)⟩

end Sys2Proof.Machine

namespace Sys2Proof.Machine

open Sys2Proof

variable {s u w x : State} {r : Ramp} {ref : Ref} {gone : Option Ref} {v : UnitRecord} {l : Lane} {bs : List Block}

/-! ## The crossing's result and the commit tests (R130, R134, R135) -/

theorem outOfWindow_iff {p : Plate} : s.outOfWindow r p v = true ↔ Mismatched s r p v := by
  simp [State.outOfWindow, Mismatched, inWindow, imp_iff_not_or]

theorem isResult_result {p : Plate} {mismatch : Bool} {m : Prop} (h : mismatch = true ↔ m) :
    IsResult p v m (p.result v mismatch) := by
  refine ⟨rfl, rfl, h, rfl, ?_⟩
  change p.axlesDiffer v = true ↔ _
  unfold Plate.axlesDiffer
  cases v.decl.axles <;> simp

theorem commitMoment_iff {x : Vessel} {ml mt ml' mt' : Int} : commitMoment x ml mt ml' mt' = true ↔
    (ml'.natAbs ≤ x.listLimit ∨ ml'.natAbs ≤ ml.natAbs) ∧
      (trimDistance x mt' = 0 ∨ trimDistance x mt' ≤ trimDistance x mt) := by
  simp [commitMoment]

theorem commitMoments_iff {used : Nat} : s.commitMoments v l used = true ↔ MomentsHold s v l used := commitMoment_iff

theorem commitPasses_iff {p : Plate} : s.commitPasses r p v l = true ↔ CommitTests s r p v l := by
  have hwindow : (!s.outOfWindow r p v || s.commitMoments v l (p.weightUsed v)) = true ↔
      (Mismatched s r p v → MomentsHold s v l (usedWeight p v)) := by
    rw [← outOfWindow_iff, ← commitMoments_iff, Bool.or_eq_true, Bool.not_eq_true', ← Bool.not_eq_true,
      ← imp_iff_not_or]
    rfl
  simp only [State.commitPasses, CommitTests, Bool.and_eq_true, decide_eq_true_eq, hwindow, and_assoc]
  rfl

/-! ## What the settling of the unit reads (R29, R56, R57) -/

/-- A commit offset is read from the profile, the lane and the lengths of its occupants. -/
theorem commitOffset_congr (hp : w.pst = s.pst) (hl : w.lane l = s.lane l) (hu : ∀ q, w.lengthOf q = s.lengthOf q)
    (length : Nat) : w.commitOffset l length = s.commitOffset l length := by
  have hv : w.vessel = s.vessel := vessel_congr (congrArg _ hp)
  simp only [State.commitOffset, State.startPoint, State.physicalEnd, hl, hv, hu]

/-- A completion that has only vacated its ramp is settled by the figures that stood before. -/
structure SettlesAlike (s w : State) : Prop where
  pst : w.pst = s.pst
  stb : w.stb = s.stb
  unit : ∀ q, w.unit? q = s.unit? q
  lane : ∀ l, w.lane l = s.lane l

theorem Vacated.settlesAlike (h : Vacated s w r gone) : SettlesAlike s w where
  pst := h.frame .pst (by simp)
  stb := h.frame .stb (by simp)
  unit := h.frame.unit_eq (by simp)
  lane l := h.frame (.lane l) (by simp)

theorem SettlesAlike.commitOffset (h : SettlesAlike s w) (l : Lane) (length : Nat) :
    w.commitOffset l length = s.commitOffset l length :=
  commitOffset_congr h.pst (h.lane l) (fun q => lengthOf_congr (h.unit q)) length

theorem SettlesAlike.mismatched (h : SettlesAlike s w) {p : Plate} : Mismatched w r p v ↔ Mismatched s r p v := by
  simp only [Mismatched, rampFixed_congr h.pst]

theorem SettlesAlike.commitTests (h : SettlesAlike s w) {p : Plate} :
    CommitTests w r p v l ↔ CommitTests s r p v l := by
  have hv : w.vessel = s.vessel := vessel_congr (congrArg _ h.pst)
  simp only [CommitTests, h.mismatched, MomentsHold, laneFixed_congr h.pst, deckFixed_congr (congrArg _ h.pst), h.stb,
    h.commitOffset, hv]

theorem SettlesAlike.laneLeft (h : SettlesAlike s w) (k : LaneLeft w u l ref) : LaneLeft s u l ref := by
  unfold LaneLeft at *
  rwa [h.lane] at k

theorem SettlesAlike.sumsLeft (h : SettlesAlike s w) {n : Nat} (k : SumsLeft w u l n) : SumsLeft s u l n := by
  simpa only [SumsLeft, laneFixed_congr h.pst, h.stb] using k

theorem SettlesAlike.unitBecomes (h : SettlesAlike s w) (k : UnitBecomes w u ref v) : UnitBecomes s u ref v :=
  ⟨k.1, fun q hq => (k.2 q hq).trans (h.unit q)⟩

/-! ## What becomes of the unit (R135 to R138) -/

theorem settle_of_passed {p : Plate} (hl : v.lane = some l) (h : CommitTests s r p v l) :
    s.settle r p v = s.commit r p v l := by
  simp [State.settle, hl, commitPasses_iff.2 h]

theorem settle_of_failed {p : Plate} (hl : v.lane = some l) (h : ¬ CommitTests s r p v l) :
    s.settle r p v =
      ((s.release v.decl.ref).handItem (p.search r v (some l) (s.outOfWindow r p v))).triggerWalk := by
  simp [State.settle, hl, mt commitPasses_iff.1 h]

theorem settle_of_laneless {p : Plate} (hl : v.lane = none) : s.settle r p v = s.handItem (p.search r v none false) := by
  simp [State.settle, hl]

/-! ## The hand-over to a redirect search (R137, R138) -/

theorem handItem_alc {a : Allocator} (h : s.alc = a) (y : Item) :
    (s.handItem y).alc = { a with service := a.service ++ [y] } := by
  rw [← h]
  rfl

/-- The walk item goes behind an item that is no walk, unless one waits already (R77). -/
theorem handItem_then_walk (s : State) {y : Item} (hy : y ≠ .walk) :
    (s.handItem y).triggerWalk.alc.service =
      if Item.walk ∈ s.alc.service then s.alc.service ++ [y] else s.alc.service ++ [y] ++ [.walk] := by
  have hasked := walkAsked_triggerWalk (s.handItem y)
  unfold WalkAsked at hasked
  simpa [State.handItem, hy.symm] using hasked

/-- A unit that stands in no queue, released and handed over to a search with a walk behind it (R137). -/
theorem release_then_search {y : Item} (hy : y ≠ .walk) (hv : s.unit? ref = some v) (hl : v.lane = some l)
    (hp : ref ∉ (s.ramp (s.laneFixed l).ramp).prio) (ho : ref ∉ (s.ramp (s.laneFixed l).ramp).ord) :
    let x := ((s.release ref).handItem y).triggerWalk
    LaneLeft s x l ref ∧ SumsLeft s x l v.decl.weight ∧ UnitBecomes s x ref { v with lane := none } ∧
      x.alc.service =
        (if Item.walk ∈ s.alc.service then s.alc.service ++ [y] else s.alc.service ++ [y] ++ [.walk]) ∧
      x.alc.unplaced = s.alc.unplaced ∧ x.alc.walk = s.alc.walk ∧ OnlyChanges [.units, .lane l, .stb, .alc] s x := by
  obtain ⟨hlane, hsums, hrec, hframe⟩ := release_unqueued hv hl hp ho
  have halc : (s.release ref).alc = s.alc := hframe .alc (by simp)
  have hasked : OnlyChanges [.alc] (s.release ref) ((s.release ref).handItem y).triggerWalk :=
    (onlyChanges_handItem _ y).trans (onlyChanges_triggerWalk _)
  have hservice := handItem_then_walk (s.release ref) hy
  obtain ⟨hunplaced, hwalk⟩ := triggerWalk_lists ((s.release ref).handItem y)
  rw [halc] at hservice
  rw [handItem_alc halc] at hunplaced hwalk
  exact ⟨hlane.of_eq (hasked (.lane l) (by simp)), hsums.of_eq (hasked .stb (by simp)),
    hrec.of_eq (hasked.unit_eq (by simp)), hservice, hunplaced, hwalk,
    .trans (hframe.mono (by simp)) (hasked.mono (by simp))⟩

/-- Where the settling leaves the link alone, the ramp's flag is all that is told. -/
theorem Vacated.noNews (h : Vacated s w r gone) (hx : OnlyChanges bs w x) (hl : .link ∉ bs) :
    OnlyNews s (x.timeHead r) ∧ NoNews { s with link.flags := flagsVacated s r } (x.timeHead r) := by
  have hlink : (x.timeHead r).link = w.link := Eq.trans rfl (hx .link hl)
  obtain ⟨hnotices, hsticky⟩ : w.link.notices = s.link.notices ∧ w.link.sticky = s.link.sticky := Prod.mk.inj h.quiet
  refine ⟨h.news.trans (onlyNews_of_link hlink), ?_⟩
  unfold NoNews
  rw [hlink]
  exact ⟨hnotices, h.flags, hsticky⟩

/-- Settles O39: the release with the search and the walk behind it, or the search alone. -/
theorem crossingIsHandedToARedirectSearch : Obligations.CrossingIsHandedToARedirectSearch := by
  unfold Obligations.CrossingIsHandedToARedirectSearch
  intro s r ref v p closing item flags hw ht hb hu hv
  have hx := exec_gapTimerExpiry_of_unit hw ht hb hu hv
  have hleft := vacated_leaveCalled s r ref
  obtain rfl := unit_ref hv
  generalize (s.clearPlate r).leaveCalled r v.decl.ref = w at hx hleft
  have hsame := hleft.settlesAlike
  have halc : w.alc = s.alc := hleft.frame .alc (by simp)
  refine ⟨fun l hl hr hp ho hfail => ?_, fun hl => ?_⟩
  · rw [settle_of_failed hl (mt hsame.commitTests.1 hfail)] at hx
    have hramp : w.ramp (w.laneFixed l).ramp = w.ramp r := by rw [laneFixed_congr hsame.pst, hr]
    have hqueues : (w.ramp r).prio = (s.ramp r).prio ∧ (w.ramp r).ord = (s.ramp r).ord := by
      rw [hleft.ramp]
      exact ⟨rfl, rfl⟩
    obtain ⟨hlane, hsums, hrec, hservice, hunplaced, hwalk, hframe⟩ :=
      release_then_search (y := p.search r v (some l) (w.outOfWindow r p v)) (by simp [Plate.search])
        ((hsame.unit _).trans hv) hl (by rwa [hramp, hqueues.1]) (by rwa [hramp, hqueues.2])
    obtain ⟨hnews, hquiet⟩ := hleft.noNews hframe (by simp)
    obtain ⟨hplate, hcalled⟩ := hleft.timed hframe (by simp) (by simp)
    rw [halc] at hservice hunplaced hwalk
    exact ⟨_, p.result v (w.outOfWindow r p v), hx, hnews, hquiet,
      isResult_result (outOfWindow_iff.trans hsame.mismatched), hsame.unitBecomes hrec, hsame.laneLeft hlane,
      hsame.sumsLeft hsums, hservice, hunplaced, hwalk, hplate, hcalled, (hleft.timedFrame hframe).mono (by simp)⟩
  · rw [settle_of_laneless hl] at hx
    have hframe := onlyChanges_handItem w (p.search r v none false)
    obtain ⟨hnews, hquiet⟩ := hleft.noNews hframe (by simp)
    obtain ⟨hplate, hcalled⟩ := hleft.timed hframe (by simp) (by simp)
    exact ⟨_, p.result v false, hx, hnews, hquiet, isResult_result (by simp), handItem_alc halc _, hplate, hcalled,
      (hleft.timedFrame hframe).mono (by simp)⟩

end Sys2Proof.Machine

namespace Sys2Proof.Machine

open Sys2Proof

variable {s u w x : State} {r : Ramp} {gone : Option Ref} {v : UnitRecord} {l : Lane}

/-! ## The commit to the reserved lane (R136) -/

/-- A lane as a commit leaves it: the unit has left the reservations and stands behind the occupants; a CLOSING lane without
another reservation is CLOSED (R26, R38). -/
def laneCommitted (x : LaneRun) (ref : Ref) (offset : Nat) : LaneRun :=
  { x with
    reservations := x.reservations.erase ref
    occupants := x.occupants ++ [{ ref := ref, offset := offset }]
    state := if x.state = .closing ∧ x.reservations.erase ref = [] then .closed else x.state }

/-- The sums as a commit leaves them: the promise taken back, the weight that was used entered at the offset (R41, R49). -/
def sumsCommitted (x : Stability) (f : LaneFixed) (weight used offset length : Nat) : Stability :=
  { x with
    mlC := x.mlC + used * f.y
    mtC := x.mtC + used * (f.xInner + f.dir.sign * ((offset + length / 2 : Nat) : Int))
    mlP := x.mlP - weight * f.y
    mtP := x.mtP - weight * f.xMid
    load := x.load.set f.deck (x.load[f.deck] - weight + used) }

/-- The unit's reservation in its lane and in the sums, taken back without touching the record or the queues. -/
def State.unreserve (v : UnitRecord) (l : Lane) (s : State) : State :=
  (s.leaveLane l v.decl.ref).subProvisional l v.decl.weight

theorem onlyChanges_unreserve (s : State) (v : UnitRecord) (l : Lane) : OnlyChanges [.lane l, .stb] s (s.unreserve v l) :=
  .trans ((onlyChanges_setLane s l _).mono (by simp)) ((onlyChanges_setStb _ _).mono (by simp))

theorem laneFixed_unreserve (s : State) (v : UnitRecord) (l k : Lane) :
    (s.unreserve v l).laneFixed k = s.laneFixed k := rfl

/-- Boarding after the reservation is taken back gives the lane and the sums of a commit. -/
theorem board_unreserved (s : State) (v : UnitRecord) (l : Lane) (offset used : Nat) :
    { (s.unreserve v l).lane l with
      occupants := ((s.unreserve v l).lane l).occupants ++ [{ ref := v.decl.ref, offset := offset }] } =
        laneCommitted (s.lane l) v.decl.ref offset ∧
      sumsWithAboard (s.unreserve v l) l used offset v.decl.length =
        sumsCommitted s.stb (s.laneFixed l) v.decl.weight used offset v.decl.length := by
  have hlane : LaneLeft s (s.unreserve v l) l v.decl.ref :=
    (laneLeft_leaveLane s l v.decl.ref).of_eq (by simp [State.unreserve])
  have hsums : SumsLeft s (s.unreserve v l) l v.decl.weight := by
    simpa [SumsLeft, State.unreserve] using sumsLeft_subProvisional (s.leaveLane l v.decl.ref) l v.decl.weight
  unfold LaneLeft at hlane
  unfold SumsLeft at hsums
  refine ⟨by rw [hlane]; rfl, ?_⟩
  simp [sumsWithAboard, sumsCommitted, laneFixed_unreserve, hsums]

/-- What a commit leaves of a unit that crossed at ramp `r` with the plate's figures `p`, but for the walk asked for. -/
structure Committed (s u : State) (r : Ramp) (p : Plate) (v : UnitRecord) (l : Lane) (x : CrossingResult) : Prop where
  news : OnlyNews s u
  record : UnitBecomes s u v.decl.ref (boardedAt l (s.commitOffset l v.decl.length) x false v)
  lane : u.lane l = laneCommitted (s.lane l) v.decl.ref (s.commitOffset l v.decl.length)
  sums : u.stb = sumsCommitted s.stb (s.laneFixed l) v.decl.weight (usedWeight p v) (s.commitOffset l v.decl.length)
    v.decl.length
  deck : Refilled s u (s.laneFixed l).deck
  told : Notified s u [.crossingResult r v.decl.ref .committed false (some l)
    (some (l, (s.laneFixed l).deck, s.commitOffset l v.decl.length)) x]

/-- The unit boarded and its crossing told, before a walk is asked for. -/
def State.commitTold (r : Ramp) (p : Plate) (v : UnitRecord) (l : Lane) (s : State) : State :=
  let x := p.result v (s.outOfWindow r p v)
  ((s.unreserve v l).board v l (s.commitOffset l v.decl.length) (p.weightUsed v) x false).notify
    (.crossingResult r v.decl.ref .committed false (some l)
      (some (l, (s.laneFixed l).deck, s.commitOffset l v.decl.length)) x)

theorem committed_commitTold {p : Plate} (hv : s.unit? v.decl.ref = some v) (l : Lane) :
    Committed s (s.commitTold r p v l) r p v l (p.result v (s.outOfWindow r p v)) ∧
      OnlyChanges [.link, .units, .lane l, .stb, .deck (s.laneFixed l).deck] s (s.commitTold r p v l) := by
  have hback := onlyChanges_unreserve s v l
  obtain ⟨hboard, hsums⟩ := board_unreserved s v l (s.commitOffset l v.decl.length) (p.weightUsed v)
  obtain ⟨hnews, hrec, hlane, hstb, hdeck, -, htold, hframe⟩ := board_then_notify (s := s.unreserve v l) hv l
    (s.commitOffset l v.decl.length) (p.weightUsed v) (p.result v (s.outOfWindow r p v)) false
    (.crossingResult r v.decl.ref .committed false (some l)
      (some (l, (s.laneFixed l).deck, s.commitOffset l v.decl.length)) (p.result v (s.outOfWindow r p v)))
  rw [laneFixed_unreserve] at hframe
  exact ⟨⟨hnews, hrec, hlane.trans hboard, hstb.trans hsums, hdeck, htold⟩, .trans (hback.mono (by simp))
    (hframe.mono (by simp))⟩

theorem commit_eq {p : Plate} : s.commit r p v l =
    if p.fault = false ∧ p.axleSum < v.decl.weight then (s.commitTold r p v l).triggerWalk else s.commitTold r p v l := by
  simp [State.commit, State.commitTold, State.unreserve]

/-- A walk is asked for just behind a unit that was weighed lighter than declared (R76, R136). -/
theorem commit_walk {p : Plate} (hv : s.unit? v.decl.ref = some v) (l : Lane) :
    OnlyChanges [.alc] (s.commitTold r p v l) (s.commit r p v l) ∧
      if p.fault = false ∧ p.axleSum < v.decl.weight
        then WalkAsked s (s.commit r p v l) ∧ (s.commit r p v l).alc.unplaced = s.alc.unplaced ∧
          (s.commit r p v l).alc.walk = s.alc.walk
        else (s.commit r p v l).alc = s.alc := by
  obtain ⟨-, hframe⟩ := committed_commitTold (r := r) (p := p) hv l
  have halc : (s.commitTold r p v l).alc = s.alc := hframe .alc (by simp)
  rw [commit_eq]
  split
  · obtain ⟨hunplaced, hwalk⟩ := triggerWalk_lists (s.commitTold r p v l)
    rw [halc] at hunplaced hwalk
    exact ⟨onlyChanges_triggerWalk _, (walkAsked_triggerWalk _).of_eq halc, hunplaced, hwalk⟩
  · exact ⟨.refl _ _, halc⟩

/-- A deck's fill is read from the profile, the occupants and their lengths. -/
theorem fillOf_congr (hp : w.pst = s.pst) (hl : ∀ l, w.lane l = s.lane l) (hu : ∀ q, w.unit? q = s.unit? q) (d : Deck) :
    w.fillOf d = s.fillOf d := by
  have hnumbers : w.laneNumbers = s.laneNumbers := by
    unfold State.laneNumbers State.laneCount State.profile
    rw [hp]
  simp only [State.fillOf, hnumbers, laneFixed_congr hp, hl, lengthOf_congr (hu _)]

/-- The walk and the timing of the called list's head leave the commit as it was made. -/
theorem Committed.later {p : Plate} {y : CrossingResult} (h : Committed s x r p v l y)
    (hu : OnlyChanges [.alc, .ramp r] x u) : Committed s u r p v l y := by
  have hlink : u.link = x.link := hu .link (by simp)
  have hfill (d : Deck) : u.fillOf d = x.fillOf d :=
    fillOf_congr (hu .pst (by simp)) (fun k => hu (.lane k) (by simp)) (hu.unit_eq (by simp)) d
  have hdeck : u.deck (s.laneFixed l).deck = x.deck (s.laneFixed l).deck := hu (.deck _) (by simp)
  refine ⟨h.news.trans (onlyNews_of_link hlink), h.record.of_eq (hu.unit_eq (by simp)),
    (hu (.lane l) (by simp)).trans h.lane, Eq.trans (hu .stb (by simp)) h.sums, ?_, ?_⟩
  · simpa only [Refilled, hfill, hdeck, hlink] using h.deck
  · simpa only [Notified, hlink] using h.told

/-- The deck that is refilled after its ramp was vacated: the deck's flag comes behind the ramp's (R43, R107). -/
theorem Vacated.refilled {d : Deck} (h : Vacated s w r gone) (k : Refilled w u d) :
    let y := warningAfter (s.deckFixed d) (s.deck d).warning (u.fillOf d)
    u.deck d = { fill := u.fillOf d, warning := y, lineLow := y } ∧
      u.link.flags =
        flagged ((if (s.ramp r).state = .closing then [.rampState r] else []) ++
          if y = (s.deck d).warning then [] else [.deck d]) s.link.flags := by
  have hdeck : w.deck d = s.deck d := h.frame (.deck d) (by simp)
  have hfixed : w.deckFixed d = s.deckFixed d := deckFixed_congr (congrArg _ h.settlesAlike.pst) d
  have hramp : flagsVacated s r =
      flagged (if (s.ramp r).state = .closing then [.rampState r] else []) s.link.flags := by
    unfold flagsVacated
    split <;> rfl
  simp only [Refilled, hdeck, hfixed, h.flags, hramp] at k
  obtain ⟨hrefilled, hflags⟩ := k
  refine ⟨hrefilled, ?_⟩
  rw [hflags, flagged_append]
  split <;> rfl

/-- Settles O38: the ramp is vacated, the unit is committed, and the called list's head is timed. -/
theorem crossingCommitsToItsLane : Obligations.CrossingCommitsToItsLane := by
  unfold Obligations.CrossingCommitsToItsLane
  intro s r ref v l p f offset used kept closing hw ht hb hu hv hl hpass
  have hx := exec_gapTimerExpiry_of_unit hw ht hb hu hv
  have hleft := vacated_leaveCalled s r ref
  obtain rfl := unit_ref hv
  generalize (s.clearPlate r).leaveCalled r v.decl.ref = w at hx hleft
  have hsame := hleft.settlesAlike
  rw [settle_of_passed hl (hsame.commitTests.2 hpass)] at hx
  have hv' : w.unit? v.decl.ref = some v := (hsame.unit _).trans hv
  obtain ⟨htold, hframe⟩ := committed_commitTold (r := r) (p := p) hv' l
  obtain ⟨hasked, hwalk⟩ := commit_walk (r := r) (p := p) hv' l
  have hcommit := htold.later (.trans (hasked.mono (by simp)) ((onlyChanges_timeHead _ r).mono (by simp)))
  have hmoved : OnlyChanges [.link, .units, .lane l, .stb, .deck (w.laneFixed l).deck, .alc] w (w.commit r p v l) :=
    .trans (hframe.mono (by simp)) (hasked.mono (by simp))
  obtain ⟨hplate, hcalled⟩ := hleft.timed hmoved (by simp) (by simp)
  have hall := hleft.timedFrame hmoved
  have halc : w.alc = s.alc := hleft.frame .alc (by simp)
  obtain ⟨hnews, hrec, hlane, hsums, hdeck, hnotice⟩ := hcommit
  rw [laneFixed_congr hsame.pst] at hsums hdeck hnotice hall
  rw [hsame.commitOffset] at hrec hlane hsums hnotice
  rw [hsame.lane] at hlane
  rw [hsame.stb] at hsums
  simp only [WalkAsked, halc] at hwalk
  exact ⟨_, p.result v (w.outOfWindow r p v), hx, hleft.news.trans hnews,
    isResult_result (outOfWindow_iff.trans hsame.mismatched), hsame.unitBecomes hrec, hlane, hsums,
    hleft.refilled hdeck, hplate, hcalled, hleft.quiet.trans hnotice, hwalk, hall.mono (by simp [f])⟩

end Sys2Proof.Machine

namespace Sys2Proof.Machine

open Sys2Proof

variable {s t u : State} {r : Ramp} {x y : Subject} {f k : Sticky} {P P' : Subject → Prop} {Q Q' : Sticky → Prop}

/-! ## Flags that an event raises (R177, R179) -/

/-- A subject is the one at its place in the arbiter's order (R178). -/
theorem subject_at_index (x : Subject) : Subject.all[x.index.val]? = some x := by
  cases x with
  | deck d => revert d; decide
  | heel => rfl
  | rampState r => cases r <;> rfl
  | gateHold r => cases r <;> rfl

theorem subject_index_inj : x.index.val = y.index.val ↔ x = y := by
  refine ⟨fun h => Option.some.inj ?_, fun h => h ▸ rfl⟩
  rw [← subject_at_index x, h, subject_at_index]

theorem isPending_setFlag (s : State) : (s.setFlag x).isPending y = true ↔ s.isPending y = true ∨ y = x := by
  change (s.link.flags.set x.index true)[y.index] = true ↔ s.link.flags[y.index] = true ∨ y = x
  rw [eq_comm (a := y), ← subject_index_inj]
  simp only [Fin.getElem_fin, Vector.getElem_set]
  split <;> simp [*]

/-- The sticky flags in the order of their bits (13.4). -/
def Sticky.all : List Sticky :=
  [.noticeLost, .unexpected .a, .unexpected .b, .restrictRose .a, .restrictRose .b, .restrictFell .a, .restrictFell .b,
    .heelHoldRose]

theorem Sticky.mem_all (f : Sticky) : f ∈ Sticky.all := by
  cases f with
  | noticeLost | heelHoldRose => decide
  | unexpected r | restrictRose r | restrictFell r => cases r <;> decide

/-- Each sticky flag has a bit of its own in the sticky flag byte (13.4). -/
theorem stickyBit_and_ne_zero (f k : Sticky) : stickyBit f &&& stickyBit k ≠ 0 ↔ k = f := by
  have hall : ∀ f ∈ Sticky.all, ∀ k ∈ Sticky.all, stickyBit f &&& stickyBit k ≠ 0 ↔ k = f := by decide
  exact hall f f.mem_all k k.mem_all

theorem isSticky_setSticky (s : State) : (s.setSticky f).isSticky k = true ↔ s.isSticky k = true ∨ k = f := by
  have hbyte (a b : Byte) : a ||| b ≠ 0 ↔ a ≠ 0 ∨ b ≠ 0 := (not_congr BitVec.or_eq_zero_iff).trans not_and_or
  have hor : (s.link.sticky ||| stickyBit f) &&& stickyBit k =
      (s.link.sticky &&& stickyBit k) ||| (stickyBit f &&& stickyBit k) := BitVec.and_or_distrib_right
  change ((s.link.sticky ||| stickyBit f) &&& stickyBit k != 0) = true ↔ (s.link.sticky &&& stickyBit k != 0) = true ∨ _
  rw [bne_iff_ne, bne_iff_ne, hor, hbyte, stickyBit_and_ne_zero]

/-- What an event leaves of the link that raises the pending flags of `P` and the sticky flags of `Q`, and no others. -/
structure Raises (s u : State) (P : Subject → Prop) (Q : Sticky → Prop) : Prop where
  pending (x : Subject) : u.isPending x = true ↔ s.isPending x = true ∨ P x
  sticky (f : Sticky) : u.isSticky f = true ↔ s.isSticky f = true ∨ Q f
  notices : u.link.notices = s.link.notices
  news : OnlyNews s u

theorem Raises.refl (s : State) : Raises s s (fun _ => False) fun _ => False where
  pending _ := (or_iff_left id).symm
  sticky _ := (or_iff_left id).symm
  notices := rfl
  news := onlyNews_refl s

/-- Nothing but the link is read. -/
theorem Raises.of_link (h : Raises t u P Q) (hl : t.link = s.link) : Raises s u P Q := by
  obtain ⟨hpending, hsticky, hnotices, hnews⟩ := h
  simp only [State.isPending, State.isSticky, OnlyNews, hl] at hpending hsticky hnotices hnews
  exact ⟨hpending, hsticky, hnotices, hnews⟩

theorem raises_setFlag (s : State) (x : Subject) : Raises s (s.setFlag x) (· = x) fun _ => False where
  pending _ := isPending_setFlag s
  sticky _ := (or_iff_left id).symm
  notices := rfl
  news := onlyNews_setFlag s x

theorem raises_setSticky (s : State) (f : Sticky) : Raises s (s.setSticky f) (fun _ => False) (· = f) where
  pending _ := (or_iff_left id).symm
  sticky _ := isSticky_setSticky s
  notices := rfl
  news := onlyNews_setSticky s f

theorem Raises.trans (h : Raises s t P Q) (k : Raises t u P' Q') :
    Raises s u (fun x => P x ∨ P' x) fun f => Q f ∨ Q' f where
  pending x := by rw [k.pending, h.pending, or_assoc]
  sticky f := by rw [k.sticky, h.sticky, or_assoc]
  notices := k.notices.trans h.notices
  news := h.news.trans k.news

theorem Raises.congr (h : Raises s u P Q) (hp : ∀ x, P x ↔ P' x) (hq : ∀ f, Q f ↔ Q' f) : Raises s u P' Q' where
  pending x := by rw [h.pending, hp]
  sticky f := by rw [h.sticky, hq]
  notices := h.notices
  news := h.news

theorem raises_setSticky_setFlag (s : State) (f : Sticky) (x : Subject) :
    Raises s ((s.setSticky f).setFlag x) (· = x) (· = f) :=
  ((raises_setSticky s f).trans (raises_setFlag _ x)).congr (by simp) (by simp)

theorem Raises.pending_eq (h : Raises s u P Q) (hx : ¬ P x) : u.isPending x = s.isPending x :=
  Bool.eq_iff_iff.2 (by simp [h.pending, hx])

theorem Raises.sticky_eq (h : Raises s u P Q) (hf : ¬ Q f) : u.isSticky f = s.isSticky f :=
  Bool.eq_iff_iff.2 (by simp [h.sticky, hf])

/-! ## The gradient comparators (R143 to R145) -/

theorem comparatorMoves_comparatorAfter (z : RampFixed) (before : ComparatorState) (g : Nat) :
    ComparatorMoves z before g (comparatorAfter z before g) := by
  cases before <;> simp [ComparatorMoves, comparatorAfter]

/-- A sample decides a comparator's state (R144). -/
theorem comparatorAfter_ne_unsampled (z : RampFixed) (before : ComparatorState) (g : Nat) :
    comparatorAfter z before g ≠ .unsampled := by
  cases before <;> simp only [comparatorAfter] <;> split <;> simp

/-- The pending flag that a change of a comparator's state sets (R144, R145). -/
def comparatorPending (r : Ramp) (before after : ComparatorState) (x : Subject) : Prop :=
  x = .rampState r ∧ after ≠ before

/-- The sticky flag that a change of a comparator's state sets (R145). -/
def comparatorSticky (r : Ramp) (before after : ComparatorState) (f : Sticky) : Prop :=
  (f = .restrictRose r ∧ before = .clear ∧ after = .restricted) ∨
    (f = .restrictFell r ∧ before = .restricted ∧ after = .clear)

/-- One comparator's part of a sample, from `s` to `u`. -/
structure GradientTaken (s u : State) (r : Ramp) (g : Nat) : Prop where
  gradient : (u.comp r).gradient = g
  moves : ComparatorMoves (s.rampFixed r) (s.comp r).state g (u.comp r).state
  raises : Raises s u (comparatorPending r (s.comp r).state (u.comp r).state)
    (comparatorSticky r (s.comp r).state (u.comp r).state)
  frame : OnlyChanges [.link, .comp r] s u

theorem comp_sampleGradient (s : State) (r : Ramp) (g : Nat) : (s.sampleGradient r g).comp r =
    { state := comparatorAfter (s.rampFixed r) (s.comp r).state g, gradient := g } := by
  unfold State.sampleGradient
  dsimp only
  split <;> exact s.comp_setComp_same r _

theorem onlyChanges_sampleGradient (s : State) (r : Ramp) (g : Nat) :
    OnlyChanges [.link, .comp r] s (s.sampleGradient r g) := fun b hb => by
  cases b with
  | link => simp at hb
  | comp q =>
    have hq : q ≠ r := by simpa using hb
    change (s.sampleGradient r g).comp q = s.comp q
    unfold State.sampleGradient
    dsimp only
    split <;> exact s.comp_setComp_other _ hq
  | _ => simp [sameBlock]

/-- Outside the rows of R144 and R145 the state is what it was. -/
theorem comparator_unchanged {before after : ComparatorState} (hb : before ≠ .unsampled) (ha : after ≠ .unsampled)
    (hrise : before = .clear → after ≠ .restricted) (hfall : before = .restricted → after ≠ .clear) :
    after = before := by
  cases before <;> cases after <;> simp_all

/-- The first decision, a rise, a fall, no change: the rows of R144 and R145. -/
theorem raises_sampleGradient (s : State) (r : Ramp) (g : Nat) :
    let before := (s.comp r).state
    let after := comparatorAfter (s.rampFixed r) before g
    Raises s (s.sampleGradient r g) (comparatorPending r before after) (comparatorSticky r before after) := by
  intro before after
  have hne : after ≠ .unsampled := comparatorAfter_ne_unsampled _ _ g
  unfold State.sampleGradient
  dsimp only
  split
  case h_1 hb =>
    exact ((raises_setFlag _ _).of_link (by rfl)).congr (by simp [before, comparatorPending, hb, hne])
      (by simp [before, comparatorSticky, hb])
  case h_2 hb ha | h_3 hb ha =>
    exact ((raises_setSticky_setFlag _ _ _).of_link (by rfl)).congr (by simp [before, after, comparatorPending, hb, ha])
      (by simp [before, after, comparatorSticky, hb, ha])
  case h_4 hfirst hrise hfall =>
    have hsame : after = before := comparator_unchanged hfirst hne hrise hfall
    exact ((Raises.refl _).of_link (by rfl)).congr (by simp [comparatorPending, hsame])
      (by simp +contextual [comparatorSticky, hsame])

theorem gradientTaken_sampleGradient (s : State) (r : Ramp) (g : Nat) : GradientTaken s (s.sampleGradient r g) r g := by
  have hcomp := comp_sampleGradient s r g
  refine ⟨by rw [hcomp], ?_, ?_, onlyChanges_sampleGradient s r g⟩
  · rw [hcomp]; exact comparatorMoves_comparatorAfter _ _ g
  · rw [hcomp]; exact raises_sampleGradient s r g

/-! ## The Heel Monitor (R147, R148) -/

theorem historyAfter_eq {history : List Int} (code : Int) (h : history.length ≤ 4) : historyAfter history code =
    if history.length < 4 then history ++ [code] else history.tail ++ [code] := by
  unfold historyAfter
  simp only [Config.heelHistory, List.length_append, List.length_singleton]
  split_ifs with hfull hroom hroom
  · omega
  · exact List.tail_append_of_ne_nil fun hnil => by simp [hnil] at hroom
  · rfl
  · omega

theorem heelOf_historyAfter {history : List Int} (code : Int) (span : Nat) (h : history.length ≤ 4) :
    let z := historyAfter history code
    heelOf span z = ((z.sum.tdiv z.length) * span).tdiv 512 := by
  have hne : (historyAfter history code).isEmpty = false := by
    rw [historyAfter_eq code h]
    split <;> simp
  simp [heelOf, hne]

/-- The two halves of R148's table: from released, and from asserted. -/
theorem heelHoldAfter_table (z : Vessel) (before : Bool) (heel : Int) :
    (before = false → (heelHoldAfter z before heel = true ↔ z.heelOn ≤ heel.natAbs)) ∧
      (before = true → (heelHoldAfter z before heel = false ↔ heel.natAbs ≤ z.heelOffAdjusted)) := by
  cases before <;> simp [heelHoldAfter]

theorem hlm_setHeelHold (s : State) (h : Bool) :
    (s.setHeelHold h).hlm = { s.hlm with hold := h, lineHigh := h } := by
  unfold State.setHeelHold
  dsimp only
  split_ifs <;> rfl

/-- The pending flag of R148 for a change of the heel hold. -/
def heelPending (before after : Bool) (x : Subject) : Prop := x = .heel ∧ after ≠ before

/-- The sticky flag of R148 for a rise of the heel hold. -/
def heelSticky (before after : Bool) (f : Sticky) : Prop := f = .heelHoldRose ∧ before = false ∧ after = true

theorem raises_setHeelHold (s : State) (h : Bool) :
    Raises s (s.setHeelHold h) (heelPending s.hlm.hold h) (heelSticky s.hlm.hold h) := by
  unfold State.setHeelHold
  dsimp only
  split_ifs with hsame hrise
  · exact ((Raises.refl _).of_link (by rfl)).congr (by simp [heelPending, hsame]) (by simp [heelSticky, hsame])
  · have hbefore : s.hlm.hold = false := by simpa [hrise] using hsame
    exact (((raises_setFlag _ _).trans (raises_setSticky _ _)).of_link (by rfl)).congr
      (by simp [heelPending, hbefore, hrise]) (by simp [heelSticky, hbefore, hrise])
  · exact ((raises_setFlag _ _).of_link (by rfl)).congr (by simp [heelPending, Ne.symm hsame]) (by simp [heelSticky, hrise])

/-- The Heel Monitor's part of a sample, from `s` to `u`. -/
structure HeelTaken (s u : State) (code : Int) : Prop where
  history : u.hlm.history =
    if s.hlm.history.length < 4 then s.hlm.history ++ [code] else s.hlm.history.tail ++ [code]
  heel : u.hlm.heel = ((u.hlm.history.sum.tdiv u.hlm.history.length) * s.vessel.heelSpan).tdiv 512
  hold : (s.hlm.hold = false → (u.hlm.hold = true ↔ s.vessel.heelOn ≤ u.hlm.heel.natAbs)) ∧
    (s.hlm.hold = true → (u.hlm.hold = false ↔ u.hlm.heel.natAbs ≤ s.vessel.heelOffAdjusted))
  line : u.hlm.lineHigh = u.hlm.hold
  raises : Raises s u (heelPending s.hlm.hold u.hlm.hold) (heelSticky s.hlm.hold u.hlm.hold)
  timer : u.hlm.sampleTimer = s.hlm.sampleTimer
  frame : OnlyChanges [.link, .hlm] s u

theorem onlyChanges_readHeel (s : State) (code : BitVec 10) : OnlyChanges [.link, .hlm] s (s.readHeel code) :=
  fun b hb => by
  cases b with
  | link | hlm => simp at hb
  | _ => simp [sameBlock]

theorem heelTaken_readHeel (code : BitVec 10) (h : s.hlm.history.length ≤ 4) :
    HeelTaken s (s.readHeel code) code.toInt := by
  have hheel := heelOf_historyAfter code.toInt s.vessel.heelSpan h
  have hframe := onlyChanges_readHeel s code
  unfold State.readHeel at hframe ⊢
  constructor
  case frame => exact hframe
  all_goals rw [hlm_setHeelHold]
  case history => exact historyAfter_eq _ h
  case heel => exact hheel
  case hold => exact heelHoldAfter_table _ _ _
  case raises => exact (raises_setHeelHold _ _).of_link rfl
  case timer => rfl

/-! ## A sample (R142) -/

/-- The three monitors take their readings one after another, and none reads what another has written. -/
theorem sampled_of_taken {w : State} {gradA gradB : BitVec 8} {incl : BitVec 10} (ha : GradientTaken s t .a gradA.toNat)
    (hb : GradientTaken t w .b gradB.toNat) (hh : HeelTaken w u incl.toInt) : Sampled s u gradA gradB incl := by
  have hcompA : t.comp .a = u.comp .a :=
    .symm (.trans (hh.frame (.comp .a) (by simp)) (hb.frame (.comp .a) (by simp)))
  have hcompB : w.comp .b = u.comp .b := .symm (hh.frame (.comp .b) (by simp))
  have hbeforeB : t.comp .b = s.comp .b := ha.frame (.comp .b) (by simp)
  have hlm : w.hlm = s.hlm := .trans (hb.frame .hlm (by simp)) (ha.frame .hlm (by simp))
  have hpst : t.pst = s.pst := ha.frame .pst (by simp)
  have hpst' : w.pst = s.pst := .trans (hb.frame .pst (by simp)) hpst
  have hraises := (ha.raises.trans hb.raises).trans hh.raises
  obtain ⟨hgradA, hmovesA, -, -⟩ := ha
  obtain ⟨hgradB, hmovesB, -, -⟩ := hb
  obtain ⟨hhistory, hheel, hhold, hline, -, -, -⟩ := hh
  rw [hcompA] at hgradA hmovesA
  rw [hcompB] at hgradB hmovesB
  rw [hbeforeB, rampFixed_congr hpst] at hmovesB
  rw [hlm] at hhistory
  simp only [hlm, vessel_congr (congrArg _ hpst')] at hheel hhold
  simp only [hcompA, hcompB, hbeforeB, hlm] at hraises
  refine ⟨⟨hgradA, hgradB⟩, ⟨hmovesA, hmovesB⟩, hhistory, hheel, hhold, hline, ⟨fun d => ?_, fun r => ?_, ?_, fun r => ?_⟩,
    ⟨?_, ?_, fun r => ⟨?_, ?_, ?_⟩⟩, hraises.notices⟩
  · exact hraises.pending_eq (by simp [comparatorPending, heelPending])
  · exact hraises.pending_eq (by simp [comparatorPending, heelPending])
  · simpa [comparatorPending, heelPending] using hraises.pending .heel
  · have hflag := hraises.pending (.rampState r)
    cases r <;> simpa [comparatorPending, heelPending] using hflag
  · exact hraises.sticky_eq (by simp [comparatorSticky, heelSticky])
  · simpa [comparatorSticky, heelSticky] using hraises.sticky .heelHoldRose
  · exact hraises.sticky_eq (by simp [comparatorSticky, heelSticky])
  · have hflag := hraises.sticky (.restrictRose r)
    cases r <;> simpa [comparatorSticky, heelSticky] using hflag
  · have hflag := hraises.sticky (.restrictFell r)
    cases r <;> simpa [comparatorSticky, heelSticky] using hflag

theorem sampled_takeSample (gradA gradB : BitVec 8) (incl : BitVec 10) (h : s.hlm.history.length ≤ 4) :
    let u := s.takeSample gradA gradB incl
    Sampled s u gradA gradB incl ∧ u.hlm.sampleTimer = s.hlm.sampleTimer ∧ OnlyNews s u ∧
      OnlyChanges [.link, .comp .a, .comp .b, .hlm] s u := by
  have ha := gradientTaken_sampleGradient s .a gradA.toNat
  have hb := gradientTaken_sampleGradient (s.sampleGradient .a gradA.toNat) .b gradB.toNat
  have hh := heelTaken_readHeel (s := (s.sampleGradient .a gradA.toNat).sampleGradient .b gradB.toNat) incl (by simpa using h)
  refine ⟨sampled_of_taken ha hb hh, ?_, ?_, ?_⟩
  · exact hh.timer.trans (by simp)
  · exact (ha.raises.news.trans hb.raises.news).trans hh.raises.news
  · exact ((ha.frame.mono (by simp)).trans (hb.frame.mono (by simp))).trans (hh.frame.mono (by simp))

theorem onlyChanges_startSampling (s : State) : OnlyChanges [.hlm] s s.startSampling := fun b hb => by
  cases b with
  | hlm => simp at hb
  | _ => rfl

theorem exec_sampleTimerExpiry_stopped (gradA gradB : BitVec 8) (incl : BitVec 10) (h : s.hlm.sampleTimer = none) :
    exec (.sampleTimerExpiry gradA gradB incl) s = .next s := by
  change execSampleTimerExpiry gradA gradB incl s = _
  simp [execSampleTimerExpiry, h, notNow]

theorem exec_sampleTimerExpiry_running (gradA gradB : BitVec 8) (incl : BitVec 10) (h : s.hlm.sampleTimer ≠ none) :
    exec (.sampleTimerExpiry gradA gradB incl) s = .next (s.startSampling.takeSample gradA gradB incl).startTx := by
  change execSampleTimerExpiry gradA gradB incl s = _
  simp [execSampleTimerExpiry, Option.isSome_iff_ne_none.2 h, finish]

/-- Settles O40: the timer restarts, and then each monitor takes its reading. -/
theorem sampleIsTaken : Obligations.SampleIsTaken := by
  unfold Obligations.SampleIsTaken
  intro s gradA gradB incl
  refine ⟨exec_sampleTimerExpiry_stopped gradA gradB incl, fun ht hlen => ?_⟩
  obtain ⟨hsampled, htimer, hnews, hframe⟩ := sampled_takeSample (s := s.startSampling) gradA gradB incl hlen
  exact ⟨_, exec_sampleTimerExpiry_running gradA gradB incl ht, { hsampled with }, htimer, hnews,
    ((onlyChanges_startSampling s).mono (by simp)).trans hframe⟩

end Sys2Proof.Machine

namespace Sys2Proof.Machine

open Sys2Proof

variable {s : State} {f : Frame} {rest : List Frame}

/-! ## The checks of PLACE (R153, R154) -/

theorem placeFits_iff {q : PlaceRequest} : s.placeFits q = true ↔ PlaceFits s q := by
  unfold State.placeFits PlaceFits
  cases s.innerNeighbour q.lane q.offset <;> cases s.outerNeighbour q.lane q.offset <;> simp [meets, and_assoc]

theorem placeOrdered_iff {q : PlaceRequest} : s.placeOrdered q = true ↔ PlaceOrdered s q := by
  unfold State.placeOrdered PlaceOrdered
  cases s.innerNeighbour q.lane q.offset <;> cases s.outerNeighbour q.lane q.offset <;> simp

/-- A lane has four states, so one that is neither OPEN nor CLOSED is CLOSING or WITHDRAWN (R37). -/
theorem laneState_shut_iff (x : LaneState) : (x ≠ .opened ∧ x ≠ .closed) ↔ (x = .closing ∨ x = .withdrawn) := by
  cases x <;> simp

/-- The checks of R153 as conditions on the state. -/
theorem placeRefusal_eq (s : State) (q : PlaceRequest) [Decidable (PlaceFits s q)] [Decidable (PlaceOrdered s q)] :
    s.placeRefusal q =
      if s.unit? q.ref ≠ none then some .duplicate
      else if 512 ≤ s.units.length then some .tableFull
      else if (s.lane q.lane).state = .closing ∨ (s.lane q.lane).state = .withdrawn then some .laneState
      else if (s.lane q.lane).reservations ≠ [] then some .blocked
      else if ¬ PlaceFits s q then some .overlaps
      else if ¬ PlaceOrdered s q then some .blocked
      else if ((s.deckFixed (s.laneFixed q.lane).deck).cap : Int) < s.stb.load[(s.laneFixed q.lane).deck] + q.weight then
        some .limit
      else none := by
  have hfull : s.tableFull = true ↔ 512 ≤ s.units.length := decide_eq_true_iff
  simp only [State.placeRefusal, Option.isSome_iff_ne_none, hfull, laneState_shut_iff, ← placeFits_iff,
    ← placeOrdered_iff, Bool.not_eq_true]

theorem exec_place_refused {q : PlaceRequest} {r : Result} (hh : Handed .place none s f rest)
    (hq : readPlace s f.payload = some q) (hr : s.placeRefusal q = some r) :
    exec .place s = .next ((s.taken f rest).refuse f.ticket r).startTx := by
  have hx : exec .place s = .next (ownPlace f.ticket q (s.taken f rest)).startTx := handle_of_handed hh hq rfl
  have hr' : (s.taken f rest).placeRefusal q = some r := hr
  simpa only [ownPlace, hr'] using hx

theorem exec_place_accepted {q : PlaceRequest} (hh : Handed .place none s f rest)
    (hq : readPlace s f.payload = some q) (hr : s.placeRefusal q = none) :
    let u := (s.taken f rest).placeUnit q
    exec .place s =
      .next (u.fill f.ticket (.placed q.ref q.lane (s.laneFixed q.lane).deck q.offset u.stb.ml u.stb.mt)).startTx := by
  have hx : exec .place s = .next (ownPlace f.ticket q (s.taken f rest)).startTx := handle_of_handed hh hq rfl
  have hr' : (s.taken f rest).placeRefusal q = none := hr
  simp only [ownPlace, hr'] at hx
  exact hx

/-! ## The unit that PLACE enters (R155, R156) -/

/-- The unit in the table, in its lane and in the sums, before the deck is refilled. -/
def State.enterPlaced (q : PlaceRequest) (s : State) : State :=
  ((s.addUnit (s.placedRecord q)).setLane q.lane
    { s.lane q.lane with
      occupants := insertOccupant { ref := q.ref, offset := q.offset } (s.lane q.lane).occupants }).addCommitted
    q.lane q.weight q.offset q.length

theorem placeUnit_eq_refill (s : State) (q : PlaceRequest) :
    s.placeUnit q = (s.enterPlaced q).refill (s.laneFixed q.lane).deck := rfl

theorem onlyChanges_placeUnit (s : State) (q : PlaceRequest) :
    OnlyChanges [.link, .units, .lane q.lane, .stb, .deck (s.laneFixed q.lane).deck] s (s.placeUnit q) := by
  rw [placeUnit_eq_refill]
  have hunits := onlyChanges_setUnits s (insertUnit (s.placedRecord q) s.units)
  exact .trans (hunits.mono (by simp)) (.trans ((onlyChanges_setLane _ q.lane _).mono (by simp))
    (.trans ((onlyChanges_setStb _ _).mono (by simp)) ((onlyChanges_refill _ _).mono (by simp))))

/-- A unit that is placed tells nothing but its deck's flag. -/
theorem placeUnit_news (s : State) (q : PlaceRequest) :
    OnlyNews s (s.placeUnit q) ∧ Notified s (s.placeUnit q) [] := by
  rw [placeUnit_eq_refill]
  exact refill_news (s.enterPlaced q) _

theorem unitBecomes_placeUnit {q : PlaceRequest} (hn : s.unit? q.ref = none) :
    UnitBecomes s (s.placeUnit q) q.ref (s.placedRecord q) := by
  have hadd : UnitBecomes s (s.addUnit (s.placedRecord q)) q.ref (s.placedRecord q) :=
    ⟨unitOf_addUnit_self s (s.placedRecord q) hn, fun r hr => unitOf_addUnit_other s (s.placedRecord q) hr⟩
  exact hadd.of_eq fun r => by simp [placeUnit_eq_refill, State.enterPlaced]

theorem placeUnit_lane (s : State) (q : PlaceRequest) :
    (s.placeUnit q).lane q.lane =
      { s.lane q.lane with
        occupants := insertOccupant { ref := q.ref, offset := q.offset } (s.lane q.lane).occupants } := by
  simp [placeUnit_eq_refill, State.enterPlaced]

theorem placeUnit_stb (s : State) (q : PlaceRequest) :
    (s.placeUnit q).stb = sumsWithAboard s q.lane q.weight q.offset q.length := by
  have hstb : (s.placeUnit q).stb = (s.enterPlaced q).stb := by simp [placeUnit_eq_refill]
  exact hstb

theorem refilled_placeUnit (s : State) (q : PlaceRequest) :
    Refilled s (s.placeUnit q) (s.laneFixed q.lane).deck := by
  rw [placeUnit_eq_refill]
  exact refilled_refill (s.enterPlaced q) _

/-- Settles O16: the checks in their order, and the effects of a unit that passes them. -/
theorem placeChecksAndEntersTheUnit : Obligations.PlaceChecksAndEntersTheUnit := by
  unfold Obligations.PlaceChecksAndEntersTheUnit
  classical
  constructor
  · intro s f rest q hh hq held full shut promised heavy refuses
    have hrefuse (r : Result) (hr : s.placeRefusal q = some r) : refuses r :=
      ⟨_, exec_place_refused hh hq hr, refused_outcome s f rest r⟩
    rw [placeRefusal_eq] at hrefuse
    refine ⟨fun hheld => hrefuse _ ?_, fun hheld hfull => hrefuse _ ?_, fun hheld hfull hshut => hrefuse _ ?_,
      fun hheld hfull hshut hres => hrefuse _ ?_, fun hheld hfull hshut hres hfits => hrefuse _ ?_,
      fun hheld hfull hshut hres hfits hord => hrefuse _ ?_, fun hheld hfull hshut hres hfits hord hheavy => hrefuse _ ?_⟩
    · rw [if_pos hheld]
    · rw [if_neg hheld, if_pos hfull]
    · rw [if_neg hheld, if_neg hfull, if_pos hshut]
    · rw [if_neg hheld, if_neg hfull, if_neg hshut, if_pos hres]
    · rw [if_neg hheld, if_neg hfull, if_neg hshut, if_neg hres, if_pos hfits]
    · rw [if_neg hheld, if_neg hfull, if_neg hshut, if_neg hres, if_neg (not_not.2 hfits), if_pos hord]
    · rw [if_neg hheld, if_neg hfull, if_neg hshut, if_neg hres, if_neg (not_not.2 hfits), if_neg (not_not.2 hord),
        if_pos hheavy]
  · intro s f rest q hh hq hrise hnew hroom hopen hfree hfits hordered hload
    have hopen' : ¬ ((s.lane q.lane).state = .closing ∨ (s.lane q.lane).state = .withdrawn) := by
      rcases hopen with h | h <;> simp [h]
    have hpass : s.placeRefusal q = none := by
      rw [placeRefusal_eq, if_neg (not_not.2 hnew), if_neg (not_le.2 hroom), if_neg hopen', if_neg (not_not.2 hfree),
        if_neg (not_not.2 hfits), if_neg (not_not.2 hordered), if_neg (not_lt.2 hload)]
    obtain ⟨hnews, htold⟩ := placeUnit_news (s.taken f rest) q
    obtain ⟨-, hoffsets, -⟩ := hfits
    have hlane := placeUnit_lane (s.taken f rest) q
    rw [insertOccupant_eq (x := { ref := q.ref, offset := q.offset }) (os := ((s.taken f rest).lane q.lane).occupants)
      hrise hoffsets] at hlane
    exact ⟨_, exec_place_accepted hh hq hpass, replied_of_fill _ hnews, htold,
      unitBecomes_placeUnit (s := s.taken f rest) hnew, hlane, placeUnit_stb _ q, refilled_placeUnit _ q,
      onlyChanges_fill _ _ (by simp) (onlyChanges_placeUnit (s.taken f rest) q)⟩

end Sys2Proof.Machine

namespace Sys2Proof.Machine

open Sys2Proof

variable {s u : State} {f : Frame} {rest : List Frame} {v : UnitRecord} {l : Lane}

/-! ## The checks of DISCHARGE (R158) -/

theorem dischargeRefusal_blocked
    (h : (s.lane l).occupants.getLast?.map (·.ref) ≠ some v.decl.ref ∨ (s.lane l).reservations ≠ []) :
    s.dischargeRefusal v l = some .blocked := by
  rcases h with houter | hpromised
  · simp [State.dischargeRefusal, houter]
  · simp [State.dischargeRefusal, hpromised]

theorem dischargeRefusal_unblocked (ho : (s.lane l).occupants.getLast?.map (·.ref) = some v.decl.ref)
    (hp : (s.lane l).reservations = []) :
    s.dischargeRefusal v l =
      if s.hlm.hold = true ∧ s.vessel.heavyThreshold ≤ v.decl.weight then some .heelHold else none := by
  simp [State.dischargeRefusal, ho, hp, State.heavy]

theorem exec_discharge_found {ref : Ref} {offset : Nat} (hh : Handed .discharge (deckOfRef s ref) s f rest)
    (hq : readRef s f.payload = some ref) (hu : s.unit? ref = some v) (ha : v.status = .aboard) (hl : v.lane = some l)
    (ho : v.offset = some offset) :
    let u := (s.taken f rest).dischargeUnit v l offset
    exec .discharge s =
      .next (match s.dischargeRefusal v l with
        | some r => (s.taken f rest).refuse f.ticket r
        | none => u.triggerWalk.fill f.ticket
            (.discharged ref l (s.laneFixed l).deck (u.physicalEnd l) u.stb.ml u.stb.mt)).startTx := by
  have hx : exec .discharge s = .next (ownDischarge f.ticket ref (s.taken f rest)).startTx := handle_of_handed hh hq rfl
  unfold ownDischarge at hx
  rw [withUnit_found (s := s.taken f rest) _ _ hu (by simp)] at hx
  simp only [ha, hl, ho, triggerWalk_fill] at hx
  exact hx

/-! ## The unit that DISCHARGE takes off (R159) -/

/-- The unit out of the sums and its lane's list, before the deck is refilled and the record retired. -/
def State.takeOff (v : UnitRecord) (l : Lane) (offset : Nat) (s : State) : State :=
  (s.subCommitted l v.weightUsed offset v.decl.length).setLane l
    { s.lane l with occupants := (s.lane l).occupants.dropLast }

theorem dischargeUnit_eq_retire (s : State) (v : UnitRecord) (l : Lane) (offset : Nat) :
    s.dischargeUnit v l offset = ((s.takeOff v l offset).refill (s.laneFixed l).deck).retire v.decl.ref := rfl

theorem onlyChanges_takeOff (s : State) (v : UnitRecord) (l : Lane) (offset : Nat) :
    OnlyChanges [.lane l, .stb] s (s.takeOff v l offset) :=
  .trans ((onlyChanges_setStb s _).mono (by simp)) ((onlyChanges_setLane _ l _).mono (by simp))

theorem takeOff_lane (s : State) (v : UnitRecord) (l : Lane) (offset : Nat) :
    (s.takeOff v l offset).lane l = { s.lane l with occupants := (s.lane l).occupants.dropLast } := by
  simp [State.takeOff]

theorem takeOff_lane_other (s : State) (v : UnitRecord) {l k : Lane} (offset : Nat) (h : k ≠ l) :
    (s.takeOff v l offset).lane k = s.lane k :=
  onlyChanges_takeOff s v l offset (.lane k) (by simp [h])

/-- The outermost occupant that is taken off its lane stands in no occupant list (R25). -/
theorem takeOff_unlisted (hs : ReservationLaw s) {offset : Nat} (hu : s.unit? v.decl.ref = some v)
    (hl : v.lane = some l) (hlast : (s.lane l).occupants.getLast?.map (·.ref) = some v.decl.ref) :
    ∀ k, ∀ o ∈ ((s.takeOff v l offset).lane k).occupants, o.ref ≠ v.decl.ref := by
  intro k o ho
  by_cases hk : k = l
  · subst hk
    rw [takeOff_lane] at ho
    exact ref_ne_of_mem_dropLast (hs.occupants_nodup k) hlast ho
  · rw [takeOff_lane_other s v offset hk] at ho
    intro href
    obtain ⟨w, hw, hwl, -⟩ := hs.occupant ho
    rw [href, hu] at hw
    obtain rfl := Option.some.inj hw
    exact hk (Option.some.inj (hwl.symm.trans hl))

/-- A deck's fill is read from the profile, the occupants and the lengths of those alone (R42). -/
theorem Stacked.fillOf_eq (h : Stacked s u) (d : Deck) : u.fillOf d = s.fillOf d := by
  have hprofile : u.profile = s.profile := by unfold State.profile; rw [h.shadow]
  have hused (l : Lane) : (u.lane l).occupants.map (fun o => u.lengthOf o.ref) =
      (s.lane l).occupants.map fun o => s.lengthOf o.ref := by
    rw [h.occupants l]
    exact List.map_congr_left (h.lengths l)
  have hnumbers : u.laneNumbers = s.laneNumbers := by unfold State.laneNumbers State.laneCount; rw [hprofile]
  have hfixed (l : Lane) : u.laneFixed l = s.laneFixed l := by unfold State.laneFixed; rw [hprofile]
  simp only [State.fillOf, hnumbers, hfixed, hused]

/-- A deck that was refilled stays so while occupants and their lengths, the deck and the flags stay as they are. -/
theorem Refilled.of_stacked {t : State} {d : Deck} (h : Refilled s t d) (ho : Stacked t u) (hd : u.deck d = t.deck d)
    (hf : u.link.flags = t.link.flags) : Refilled s u d := by
  unfold Refilled at h ⊢
  rw [ho.fillOf_eq, hd, hf]
  exact h

theorem refilled_dischargeUnit (hs : ReservationLaw s) {offset : Nat} (hu : s.unit? v.decl.ref = some v)
    (hl : v.lane = some l) (hlast : (s.lane l).occupants.getLast?.map (·.ref) = some v.decl.ref) :
    Refilled s (s.dischargeUnit v l offset) (s.laneFixed l).deck := by
  rw [dischargeUnit_eq_retire]
  have hdeck : Refilled s ((s.takeOff v l offset).refill (s.laneFixed l).deck) (s.laneFixed l).deck :=
    refilled_refill (s.takeOff v l offset) _
  refine hdeck.of_stacked (steady_retire _ fun k o ho => ?_).toStacked rfl rfl
  exact takeOff_unlisted hs hu hl hlast k o (by simpa using ho)

theorem onlyChanges_dischargeUnit (s : State) (v : UnitRecord) (l : Lane) (offset : Nat) :
    OnlyChanges [.link, .units, .checkIn, .lane l, .stb, .deck (s.laneFixed l).deck] s (s.dischargeUnit v l offset) := by
  rw [dischargeUnit_eq_retire]
  exact .trans ((onlyChanges_takeOff s v l offset).mono (by simp)) (.trans ((onlyChanges_refill _ _).mono (by simp))
    ((onlyChanges_retire _ _).mono (by simp)))

/-- A unit that is taken off tells nothing but its deck's flag. -/
theorem dischargeUnit_news (s : State) (v : UnitRecord) (l : Lane) (offset : Nat) :
    OnlyNews s (s.dischargeUnit v l offset) ∧ Notified s (s.dischargeUnit v l offset) [] :=
  refill_news (s.takeOff v l offset) _

theorem retired_dischargeUnit (s : State) (v : UnitRecord) (l : Lane) (offset : Nat) :
    Retired s (s.dischargeUnit v l offset) v.decl.ref := by
  obtain ⟨hnone, hother, hlist⟩ := retired_retire ((s.takeOff v l offset).refill (s.laneFixed l).deck) v.decl.ref
  refine ⟨hnone, fun r hr => (hother r hr).trans ?_, hlist.trans ?_⟩ <;> simp [State.takeOff]

theorem dischargeUnit_lane (s : State) (v : UnitRecord) (l : Lane) (offset : Nat) :
    (s.dischargeUnit v l offset).lane l = { s.lane l with occupants := (s.lane l).occupants.dropLast } := by
  simp [dischargeUnit_eq_retire, State.takeOff]

theorem dischargeUnit_stb (s : State) (v : UnitRecord) (l : Lane) (offset : Nat) :
    (s.dischargeUnit v l offset).stb = sumsWithoutAboard s l v.weightUsed offset v.decl.length := by
  simp [dischargeUnit_eq_retire, State.takeOff, subCommitted_stb]

/-- What is left of a unit that was taken off, with the walk asked for and the request answered (R77, R159). -/
theorem discharged_outcome (hs : ReservationLaw s) {offset : Nat} (hu : s.unit? v.decl.ref = some v)
    (hl : v.lane = some l) (hlast : (s.lane l).occupants.getLast?.map (·.ref) = some v.decl.ref) (r : Reply) :
    let u := ((s.taken f rest).dischargeUnit v l offset).triggerWalk.fill f.ticket r
    Replied s u f rest r ∧ Notified s u [] ∧ Retired s u v.decl.ref ∧
      u.lane l = { s.lane l with occupants := (s.lane l).occupants.dropLast } ∧
      u.stb = sumsWithoutAboard s l v.weightUsed offset v.decl.length ∧ Refilled s u (s.laneFixed l).deck ∧
      WalkAsked s u ∧ u.alc.unplaced = s.alc.unplaced ∧ u.alc.walk = s.alc.walk ∧
      OnlyChanges [.link, .units, .checkIn, .lane l, .stb, .deck (s.laneFixed l).deck, .alc] s u := by
  obtain ⟨hnews, htold⟩ := dischargeUnit_news (s.taken f rest) v l offset
  obtain ⟨hunplaced, hwalk⟩ := triggerWalk_lists ((s.taken f rest).dischargeUnit v l offset)
  have hframe := onlyChanges_dischargeUnit (s.taken f rest) v l offset
  have halc : ((s.taken f rest).dischargeUnit v l offset).alc = s.alc := hframe .alc (by simp)
  rw [halc] at hunplaced hwalk
  have hasked := onlyChanges_triggerWalk ((s.taken f rest).dischargeUnit v l offset)
  have hlink : ((s.taken f rest).dischargeUnit v l offset).triggerWalk.link = _ := hasked .link (by simp)
  have hquiet := htold.trans (notified_nil (congrArg Link.notices hlink) (congrArg Link.sticky hlink))
  obtain ⟨hnone, hother, hlist⟩ := retired_dischargeUnit (s.taken f rest) v l offset
  have hdeck := (refilled_dischargeUnit (s := s.taken f rest) (offset := offset) hs hu hl hlast).of_stacked
    (steady_triggerWalk _).toStacked (hasked (.deck _) (by simp)) (congrArg Link.flags hlink)
  have hfound := hasked.unit_eq (by simp)
  exact ⟨replied_of_fill r (hnews.trans (onlyNews_of_link hlink)), hquiet,
    ⟨(hfound _).trans hnone, fun q hq => (hfound q).trans (hother q hq), Eq.trans (hasked .checkIn (by simp)) hlist⟩,
    (hasked (.lane l) (by simp)).trans (dischargeUnit_lane (s.taken f rest) v l offset),
    Eq.trans (hasked .stb (by simp)) (dischargeUnit_stb (s.taken f rest) v l offset), hdeck,
    (walkAsked_triggerWalk _).of_eq halc, hunplaced, hwalk,
    onlyChanges_fill _ _ (by simp) (.trans (hframe.mono (by simp)) (hasked.mono (by simp)))⟩

/-- Settles O17: the checks in their order, and the effects of a unit that passes them. -/
theorem dischargeTakesTheOutermostUnit : Obligations.DischargeTakesTheOutermostUnit := by
  unfold Obligations.DischargeTakesTheOutermostUnit
  intro s f rest ref v l offset hh hq hu ha hl ho outermost promised heeling refuses
  have hx := exec_discharge_found hh hq hu ha hl ho
  obtain rfl := unit_ref hu
  have hrefuse (r : Result) (hr : s.dischargeRefusal v l = some r) : refuses r := by
    rw [hr] at hx
    exact ⟨_, hx, refused_outcome s f rest r⟩
  refine ⟨fun h => hrefuse _ (dischargeRefusal_blocked h), fun houter hfree hheel => hrefuse _ ?_,
    fun houter hfree hheel hlaw => ?_⟩
  · rw [dischargeRefusal_unblocked houter (not_not.1 hfree), if_pos hheel]
  · rw [dischargeRefusal_unblocked houter (not_not.1 hfree), if_neg hheel] at hx
    have hend : ((s.taken f rest).dischargeUnit v l offset).triggerWalk.physicalEnd l =
        ((s.taken f rest).dischargeUnit v l offset).physicalEnd l := by simp [State.physicalEnd]
    have hstb : ((s.taken f rest).dischargeUnit v l offset).triggerWalk.stb =
        ((s.taken f rest).dischargeUnit v l offset).stb := by simp
    simp only [← hend, ← hstb] at hx
    exact ⟨_, hx, discharged_outcome hlaw hu hl houter _⟩

end Sys2Proof.Machine

namespace Sys2Proof.Machine

open Sys2Proof

variable {s : State}

/-! ## Requests that wait for their frame (R162, R171) -/

/-- The handler can take no frame of a kind, `none` standing for an unknown one: the buffer is empty, the session is LOADING,
no slot is free, or the front frame is of another kind. -/
def Waits (s : State) (kind : Option RequestKind) : Prop :=
  s.link.rxBuffer = [] ∨ s.session = .loading ∨ 8 ≤ s.link.reserved.length + s.link.filled.length ∨
    ∃ f rest, s.link.rxBuffer = f :: rest ∧ RequestKind.ofCode f.kind ≠ kind

/-- A frame that the handler takes meanwhile is of another kind. -/
theorem Waits.kind_ne {kind : Option RequestKind} {f : Frame} {t : State} (h : Waits s kind)
    (ht : s.takeFrame = some (f, t)) : RequestKind.ofCode f.kind ≠ kind := by
  obtain ⟨rest, ⟨hfront, hslot, hsession⟩, -⟩ := takeFrame_eq_some ht
  obtain hempty | hloading | hfull | ⟨g, rest', hbuffer, hkind⟩ := h
  · rw [hfront] at hempty; cases hempty
  · exact absurd hloading hsession
  · omega
  · obtain ⟨rfl, -⟩ := List.cons.inj (hfront.symm.trans hbuffer)
    exact hkind

theorem handle_of_waits {α : Type} {k : RequestKind} {parse : State → List Byte → Option α}
    {deckOf : State → α → Option Deck} {owner : Ticket → α → State → State} (h : Waits s (some k)) :
    handle k parse deckOf owner s = .next s := by
  unfold handle
  split
  · rfl
  · next f t ht => exact if_neg (h.kind_ne ht)

theorem execBadKindRequest_of_waits (h : Waits s none) : execBadKindRequest s = .next s := by
  unfold execBadKindRequest
  split
  · rfl
  · next f t ht => exact if_neg (h.kind_ne ht)

/-- Settles O4: every request's row is the handler for its kind, and the handler waits. -/
theorem requestsWaitForTheirFrame : Obligations.RequestsWaitForTheirFrame := by
  unfold Obligations.RequestsWaitForTheirFrame
  refine ⟨fun c k s hc h => ?_, fun s h => execBadKindRequest_of_waits h⟩
  cases c <;> cases hc <;> exact handle_of_waits h

end Sys2Proof.Machine

namespace Sys2Proof.Machine

open Sys2Proof

/-! ## The part after reset (R24, R40, R123, R124, R150, R161) -/

section Reset

variable (rate : Nat) (mem : List Host.Cell) (q : List Instr) (n : Nat)

@[simp] theorem resetWith_lane (l : Lane) : (State.resetWith rate mem q n).lane l = LaneRun.reset := by
  simp [State.resetWith, State.lane]

@[simp] theorem resetWith_deck (d : Deck) : (State.resetWith rate mem q n).deck d = DeckRun.reset := by
  simp [State.resetWith, State.deck]

@[simp] theorem resetWith_ramp (r : Ramp) : (State.resetWith rate mem q n).ramp r = RampRun.reset := by
  cases r <;> rfl

@[simp] theorem resetWith_plate (r : Ramp) : (State.resetWith rate mem q n).plate r = Plate.reset := by
  cases r <;> rfl

@[simp] theorem resetWith_comp (r : Ramp) : (State.resetWith rate mem q n).comp r = Comparator.reset := by
  cases r <;> rfl

@[simp] theorem resetWith_isPending (x : Subject) : (State.resetWith rate mem q n).isPending x = false := by
  simp [State.resetWith, State.isPending, Link.reset]

/-- The transmitter has nothing to begin (R178). -/
theorem startTx_resetWith : (State.resetWith rate mem q n).startTx = State.resetWith rate mem q n := by
  have hnone : Subject.all.find? (State.resetWith rate mem q n).isPending = none :=
    List.find?_eq_none.2 fun x _ => by simp
  unfold State.startTx
  rw [hnone]
  rfl

end Reset

/-! ## The machine after reset meets the laws (R161) -/

theorem unitTableLaw_reset : UnitTableLaw State.reset := ⟨Nat.zero_le _, .nil⟩

/-- No record, and every list empty. -/
theorem reservationLaw_reset : ReservationLaw State.reset := by
  refine ⟨.nil, by decide, fun l => ?_, fun r => ?_, by decide, .nil, .nil, by decide, .slnil, .nil, by decide, by decide,
    by decide⟩
  · simp [State.reset, LaneRun.reset]
  · cases r <;> decide

theorem laneOrderLaw_reset : LaneOrderLaw State.reset :=
  (lanesOrdered_of_empty (fun l => by simp [State.reset, LaneRun.reset]) fun r => by
    simp [State.reset, RampRun.reset]).order

theorem slotLaw_reset : SlotLaw State.reset := ⟨.refl _, Nat.zero_le _, fun _ => rfl, nofun⟩

theorem rampPlateLaw_reset : RampPlateLaw State.reset :=
  rampPlateLaw_iff.2 fun r => by cases r <;> exact lawful_closed .loading

theorem clockLaw_reset : ClockLaw State.reset := by
  refine ⟨?_, ?_, ?_⟩ <;> simp [State.reset, State.resetWith, HeelMonitor.reset, ProfileStore.reset]

theorem budgetLaw_reset : BudgetLaw State.reset :=
  ⟨fun r => by unfold State.reset; rw [resetWith_ramp]; exact budgeted_reset, nofun⟩

theorem lineLaw_reset : LineLaw State.reset :=
  ⟨fun d => by simp [State.reset, DeckRun.reset], fun r => by simp [State.reset, RampRun.reset], rfl⟩

theorem boundLaw_reset : BoundLaw State.reset :=
  ⟨fun l => by simp [State.reset, LaneRun.reset], Nat.zero_le _, Nat.zero_le _, Nat.zero_le _, nofun, nofun⟩

/-- Settles O60: each law is met by empty tables and stopped clocks. -/
theorem resetMeetsTheLaws : Obligations.ResetMeetsTheLaws :=
  ⟨reset_memory_wf, unitTableLaw_reset, reservationLaw_reset, laneOrderLaw_reset, (balanced_resetWith _ _ _ _).sumsLaw,
    cargo_resetWith _ _ _ _, slotLaw_reset, rampPlateLaw_reset, clockLaw_reset, budgetLaw_reset, lineLaw_reset,
    boundLaw_reset⟩

end Sys2Proof.Machine

namespace Sys2Proof.Machine

open Sys2Proof

/-! ## A write that stops (R185, R186) -/

/-- A byte each of whose bits is the old one or the new one (R186). -/
def BitsOf (old new b : Byte) : Prop := ∀ i : Nat, b.getLsbD i = old.getLsbD i ∨ b.getLsbD i = new.getLsbD i

theorem bitsOf_tornByte (mix old new : Byte) : BitsOf old new (tornByte mix old new) := fun i => by
  unfold tornByte
  by_cases hi : i < 8
  · cases hm : mix[i] <;> simp [hi, hm]
  · exact .inl (by simp [BitVec.getLsbD_of_ge _ i (not_lt.1 hi)])

/-- A memory between two: at the addresses of a chunk each bit is the old one or the chunk's, elsewhere the bytes are the old
ones. -/
structure Between (old : List Host.Cell) (addr : Nat) (bs : List Byte) (m : List Host.Cell) : Prop where
  wf : Memory.wf m = true
  outside : ∀ a, a < addr ∨ addr + bs.length ≤ a → memGet m a = memGet old a
  inside : ∀ a, addr ≤ a → a < addr + bs.length → BitsOf (memGet old a) (bs.getD (a - addr) 0) (memGet m a)

variable {old m : List Host.Cell} {addr : Nat} {bs xs : List Byte}

theorem between_refl (h : Memory.wf old = true) : Between old addr bs old where
  wf := h
  outside _ _ := rfl
  inside _ _ _ _ := .inl rfl

/-- Bytes stored within the chunk's addresses, each made of what is there and of the chunk's byte. -/
theorem Between.memPuts (h : Between old addr bs m) (ht : addr + bs.length ≤ Config.memSize) {k : Nat}
    (hk : k + xs.length ≤ bs.length)
    (hx : ∀ i < xs.length, BitsOf (memGet m (addr + k + i)) (bs.getD (k + i) 0) (xs.getD i 0)) :
    Between old addr bs (memPuts (addr + k) xs m) := by
  have hget := memGet_memPuts (addr := addr + k) xs h.wf (by omega)
  refine ⟨memPuts_wf xs h.wf (by omega), fun a ha => ?_, fun a hlo hhi => ?_⟩
  · rw [hget, if_neg (by omega)]
    exact h.outside a ha
  · rw [hget]
    split
    · next hin =>
      intro i
      have hbit := hx (a - (addr + k)) (by omega) i
      rw [show addr + k + (a - (addr + k)) = a by omega, show k + (a - (addr + k)) = a - addr by omega] at hbit
      rcases hbit with hkept | hnew
      · rw [hkept]; exact h.inside a hlo hhi i
      · exact .inr hnew
    · exact h.inside a hlo hhi

/-- A part of a chunk: its bytes from place `k` on, at their own addresses. -/
def PartOf (addr : Nat) (bs : List Byte) (p : Nat × List Byte) : Prop :=
  ∃ k, p.1 = addr + k ∧ k + p.2.length ≤ bs.length ∧ ∀ i < p.2.length, p.2.getD i 0 = bs.getD (k + i) 0

/-- A chunk that ends within the memory is sent in parts of itself (R185). -/
theorem partOf_pageParts {fuel k : Nat} (ht : addr + bs.length ≤ Config.memSize) (hk : k ≤ bs.length) :
    ∀ p ∈ pageParts fuel (addr + k) (bs.drop k), PartOf addr bs p := by
  induction fuel generalizing k with
  | zero => exact fun _ h => absurd h List.not_mem_nil
  | succ fuel ih =>
    intro p hp
    unfold pageParts at hp
    split at hp
    · cases hp
    · next hne =>
      have hlt : k < bs.length := by
        by_contra hge
        exact hne (by simp; omega)
      dsimp only at hp
      generalize Config.pageBytes - (addr + k) % Config.pageBytes = room at hp
      rcases List.mem_cons.1 hp with rfl | hp
      · refine ⟨k, Nat.mod_eq_of_lt (by omega), ?_, fun i hi => ?_⟩
        · simp only [List.length_take, List.length_drop]; omega
        · have hi' : i < room := by simp only [List.length_take] at hi; omega
          simp [List.getD_eq_getElem?_getD, hi']
      · rw [Nat.add_assoc, List.drop_drop] at hp
        by_cases hroom : k + room ≤ bs.length
        · exact ih hroom p hp
        · rw [List.drop_eq_nil_of_le (by omega)] at hp
          cases fuel <;> simp [pageParts] at hp

/-- Parts stored whole. -/
theorem Between.storeParts (h : Between old addr bs m) (ht : addr + bs.length ≤ Config.memSize)
    {ps : List (Nat × List Byte)} (hp : ∀ p ∈ ps, PartOf addr bs p) : Between old addr bs (storeParts ps m) := by
  unfold Machine.storeParts
  induction ps generalizing m with
  | nil => exact h
  | cons p ps ih =>
    obtain ⟨k, haddr, hlen, hbytes⟩ := hp p (.head _)
    refine ih ?_ fun q hq => hp q (.tail _ hq)
    dsimp only
    rw [haddr]
    exact h.memPuts ht hlen fun i hi _ => .inr (by rw [hbytes i hi])

theorem getD_tornBytes (new mix : List Byte) {i : Nat} (hi : i < new.length) :
    (tornBytes m addr new mix).getD i 0 = tornByte (mix.getD i 0) (memGet m (addr + i)) (new.getD i 0) := by
  simp [tornBytes, List.getD_eq_getElem?_getD, hi]

/-- Some parts stored whole, and the next one torn (R186). -/
theorem Between.storePartly (h : Between old addr bs m) (ht : addr + bs.length ≤ Config.memSize)
    {ps : List (Nat × List Byte)} (hp : ∀ p ∈ ps, PartOf addr bs p) (done : Nat) (mix : List Byte) :
    Between old addr bs (storePartly done mix ps m) := by
  have hwhole := h.storeParts (ps := ps.take done) ht fun p hm => hp p (List.mem_of_mem_take hm)
  unfold Machine.storePartly
  dsimp only
  split
  · exact hwhole
  · next p more hdrop =>
    obtain ⟨k, haddr, hlen, hbytes⟩ := hp p (List.mem_of_mem_drop (hdrop ▸ List.mem_cons_self))
    rw [haddr]
    refine hwhole.memPuts ht (by simpa using hlen) fun i hi => ?_
    have hi' : i < p.2.length := by simpa using hi
    rw [getD_tornBytes _ _ hi', hbytes i hi']
    exact bitsOf_tornByte _ _ _

/-- A hardware reset leaves the chunk of a write in flight between the old bytes and the new (R186). -/
theorem between_memAtReset {p : ProfileStore} {w : MemWrite} (hw : p.write = some w) (hm : Memory.wf p.mem = true)
    (ht : w.address + w.bytes.length ≤ Config.memSize) (done : Nat) (mix : List Byte) :
    Between p.mem w.address w.bytes (p.memAtReset done mix) := by
  unfold ProfileStore.memAtReset
  rw [hw]
  exact (between_refl hm).storePartly ht (partOf_pageParts (k := 0) ht (Nat.zero_le _)) done mix

/-! ## HARDWARE_RESET (R161, R186) -/

theorem strapRate_eq (b1 b0 : Bool) :
    strapRate b1 b0 = if b1 then (if b0 then 921600 else 460800) else if b0 then 230400 else 115200 := by
  cases b1 <;> cases b0 <;> rfl

theorem exec_hardwareReset (s : State) (b1 b0 : Bool) (done : Nat) (mix : List Byte) :
    exec (.hardwareReset b1 b0 done mix) s =
      .next (State.resetWith (strapRate b1 b0) (s.pst.memAtReset done mix) s.pending s.freeCount) :=
  congrArg Host.Outcome.next (startTx_resetWith _ _ _ _)

/-- Settles O45: the reset state, over a memory whose chunk in flight is torn. -/
theorem hardwareResetStartsAfresh : Obligations.HardwareResetStartsAfresh := by
  unfold Obligations.HardwareResetStartsAfresh
  intro s b1 b0 done mix
  have hmem {w : MemWrite} (hw : s.pst.write = some w) (ht : w.address + w.bytes.length ≤ 16777216) (hm : MemoryLaw s) :=
    between_memAtReset hw hm ht done mix
  refine ⟨_, exec_hardwareReset s b1 b0 done mix, rfl, rfl, rfl, rfl, resetWith_lane _ _ _ _,
    fun d => ⟨resetWith_deck _ _ _ _ d, load_reset d⟩, rfl, rfl, rfl, rfl, rfl, rfl, rfl, resetWith_ramp _ _ _ _,
    resetWith_plate _ _ _ _, resetWith_comp _ _ _ _, rfl, rfl, strapRate_eq b1 b0, rfl, rfl, rfl, rfl, rfl,
    resetWith_isPending _ _ _ _, rfl, rfl, rfl, fun hw => ?_, fun w hw _ _ ht hm a => ?_⟩
  · change s.pst.memAtReset done mix = s.pst.mem
    unfold ProfileStore.memAtReset
    rw [hw]
  · exact ⟨(hmem hw ht hm).outside a, (hmem hw ht hm).inside a⟩

end Sys2Proof.Machine

namespace Sys2Proof.Machine

open Sys2Proof

variable {s t u v w : State} {r : Ramp} {x : Subject} {P P' : Subject → Prop}

/-! ## Pending flags alone (R177) -/

/-- What an event leaves of the link that raises the pending flags of `P` and tells nothing else. -/
structure Pends (s u : State) (P : Subject → Prop) : Prop where
  raises : Raises s u P fun _ => False
  sticky : u.link.sticky = s.link.sticky

theorem Pends.refl (s : State) : Pends s s fun _ => False := ⟨.refl s, rfl⟩

theorem Pends.trans (h : Pends s t P) (k : Pends t u P') : Pends s u fun x => P x ∨ P' x :=
  ⟨(h.raises.trans k.raises).congr (fun _ => .rfl) fun _ => or_self_iff, k.sticky.trans h.sticky⟩

theorem Pends.congr (h : Pends s u P) (hp : ∀ x, P x ↔ P' x) : Pends s u P' :=
  ⟨h.raises.congr hp fun _ => .rfl, h.sticky⟩

theorem Pends.of_link (h : Pends t u P) (hl : t.link = s.link) : Pends s u P :=
  ⟨h.raises.of_link hl, h.sticky.trans (congrArg Link.sticky hl)⟩

theorem Pends.link_eq (h : Pends s t P) (hl : u.link = t.link) : Pends s u P :=
  (h.trans ((Pends.refl u).of_link hl)).congr fun _ => or_iff_left id

/-- What an owner's answer leaves that raised pending flags alone. -/
theorem Pends.answered {f : Frame} {rest : List Frame} (h : Pends (s.taken f rest) v P) (r : Reply) :
    Replied s (v.fill f.ticket r) f rest r ∧ Notified s (v.fill f.ticket r) [] :=
  ⟨replied_of_fill r h.raises.news, notified_nil h.raises.notices h.sticky⟩

theorem Pends.notified (h : Pends s u P) : Notified s u [] := notified_nil h.raises.notices h.sticky

theorem Pends.pending (h : Pends s u P) (x : Subject) : u.isPending x = true ↔ s.isPending x = true ∨ P x :=
  h.raises.pending x

/-- A flag set unless a condition holds. -/
theorem pends_unless {c : Prop} [Decidable c] (hl : v.link = s.link) (x : Subject) :
    Pends s (if c then v else v.setFlag x) fun y => y = x ∧ ¬ c := by
  split
  · next hc => exact ((Pends.refl s).link_eq hl).congr fun y => by simp [hc]
  · next hc => exact (Pends.of_link ⟨raises_setFlag v x, rfl⟩ hl).congr fun y => by simp [hc]

theorem pends_setRampState (s : State) (r : Ramp) (y : RampState) :
    Pends s (s.setRampState r y) fun x => x = .rampState r ∧ ¬ (s.ramp r).state = y :=
  pends_unless (by rfl) _

theorem pends_setGate (s : State) (r : Ramp) (g : Bool) :
    Pends s (s.setGate r g) fun x => x = .gateHold r ∧ ¬ (s.ramp r).gateHold = g :=
  pends_unless (by rfl) _

theorem pends_setWarning (s : State) (d : Deck) (b : Bool) :
    Pends s (s.setWarning d b) fun x => x = .deck d ∧ ¬ (s.deck d).warning = b :=
  pends_unless (by rfl) _

/-! ## Ramps that a session change shuts (R123, R163, R166, R168) -/

theorem onlyChanges_setGate (s : State) (r : Ramp) (g : Bool) : OnlyChanges [.link, .ramp r] s (s.setGate r g) := by
  have hset := onlyChanges_setRamp s r { s.ramp r with gateHold := g, lineHigh := g }
  unfold State.setGate
  dsimp only
  split
  · exact hset.mono (by simp)
  · exact .trans (hset.mono (by simp)) ((onlyChanges_modLink _ _).mono (by simp))

/-- The pending flags of a ramp that is shut: it was not CLOSED, or its gate hold was asserted. -/
def shutNews (s : State) (r : Ramp) (x : Subject) : Prop :=
  (x = .rampState r ∧ (s.ramp r).state ≠ .closed) ∨ (x = .gateHold r ∧ (s.ramp r).gateHold = true)

/-- One ramp has been shut, and stands as `x` with its plate as `y`. -/
structure RampShut (s u : State) (r : Ramp) (x : RampRun) (y : Plate) : Prop where
  ramp : u.ramp r = x
  plate : u.plate r = y
  pends : Pends s u (shutNews s r)
  frame : OnlyChanges [.link, .ramp r, .plate r] s u

/-- The ramp enters CLOSED and its gate hold is released. -/
theorem rampShut_close (s : State) (r : Ramp) :
    RampShut s ((s.setRampState r .closed).setGate r false) r
      { s.ramp r with state := .closed, gateHold := false, lineHigh := false } (s.plate r) where
  ramp := by rw [setGate_ramp, setRampState_ramp]
  plate := by simp
  pends := ((pends_setRampState s r .closed).trans (pends_setGate _ r false)).congr fun x => by
    simp [shutNews, setRampState_ramp]
  frame := .trans ((onlyChanges_setRampState s r .closed).mono (by simp)) ((onlyChanges_setGate _ r false).mono (by simp))

variable {x₀ : RampRun} {y₀ : Plate}

theorem RampShut.setRamp (h : RampShut s u r x₀ y₀) (x : RampRun) : RampShut s (u.setRamp r x) r x y₀ where
  ramp := u.ramp_setRamp_same r x
  plate := h.plate
  pends := h.pends.link_eq rfl
  frame := h.frame.trans ((onlyChanges_setRamp u r x).mono (by simp))

theorem RampShut.setPlate (h : RampShut s u r x₀ y₀) (y : Plate) : RampShut s (u.setPlate r y) r x₀ y where
  ramp := h.ramp
  plate := u.plate_setPlate_same r y
  pends := h.pends.link_eq rfl
  frame := h.frame.trans ((onlyChanges_setPlate u r y).mono (by simp))

/-- A ramp after VESSEL_OPEN, by its RAMPS record (R123, R163). -/
def openedRamp (f : RampFixed) : RampRun :=
  { RampRun.reset with ratio := f.ratio, depth := f.depth, budget := f.budget, remaining := f.budget }

theorem rampShut_freshRamp (s : State) (r : Ramp) :
    RampShut s ((s.freshRamp r).setPlate r Plate.reset) r (openedRamp (s.rampFixed r)) Plate.reset :=
  ((rampShut_close s r).setRamp _).setPlate _

/-- A ramp after VESSEL_SECURE, but for the queues that its units have left before (R166). -/
def securedRamp (x : RampRun) : RampRun :=
  { x with state := .closed, intervalTimer := none, callTimer := none, gateHold := false, lineHigh := false }

theorem rampShut_secureRamp (s : State) (r : Ramp) :
    RampShut s (s.secureRamp r) r (securedRamp (s.ramp r)) { s.plate r with state := .disarmed } := by
  have hclose := rampShut_close s r
  have h := (hclose.setRamp (securedRamp (s.ramp r))).setPlate { s.plate r with state := .disarmed }
  unfold State.secureRamp
  simpa [hclose.ramp, securedRamp] using h

/-- A ramp after VESSEL_RELEASE (R168). -/
def releasedRamp (x : RampRun) : RampRun :=
  { x with state := .closed, gateHold := false, lineHigh := false, prio := [], ord := [], called := [] }

theorem rampShut_releaseRamp (s : State) (r : Ramp) :
    RampShut s (s.releaseRamp r) r (releasedRamp (s.ramp r)) (s.plate r) := by
  have hclose := rampShut_close s r
  have h := hclose.setRamp (releasedRamp (s.ramp r))
  unfold State.releaseRamp
  dsimp only
  rw [hclose.ramp]
  exact h

/-- Both ramps have been shut. -/
structure RampsShut (s u : State) (x : Ramp → RampRun) (y : Ramp → Plate) : Prop where
  ramp : ∀ r, u.ramp r = x r
  plate : ∀ r, u.plate r = y r
  pends : Pends s u fun z => ∃ r, shutNews s r z
  frame : OnlyChanges [.link, .ramp .a, .ramp .b, .plate .a, .plate .b] s u

/-- What shuts one ramp, and reads of the others nothing, shuts both. -/
theorem rampsShut_forRamps {f : Ramp → State → State} {X : RampFixed → RampRun → RampRun} {Y : Plate → Plate}
    (hf : ∀ (s : State) (r : Ramp), RampShut s (f r s) r (X (s.rampFixed r) (s.ramp r)) (Y (s.plate r))) (s : State) :
    RampsShut s (s.forRamps f) (fun r => X (s.rampFixed r) (s.ramp r)) fun r => Y (s.plate r) := by
  have ha := hf s .a
  have hb := hf (f .a s) .b
  have hramp : (f .a s).ramp .b = s.ramp .b := ha.frame (.ramp .b) (by simp)
  have hplate : (f .a s).plate .b = s.plate .b := ha.frame (.plate .b) (by simp)
  have hfixed : (f .a s).rampFixed .b = s.rampFixed .b := rampFixed_congr (ha.frame .pst (by simp)) .b
  rw [hramp, hplate, hfixed] at hb
  refine ⟨fun r => ?_, fun r => ?_, (ha.pends.trans hb.pends).congr fun z => ?_,
    .trans (ha.frame.mono (by simp)) (hb.frame.mono (by simp))⟩
  · cases r with
    | a => exact (hb.frame (.ramp .a) (by simp)).trans ha.ramp
    | b => exact hb.ramp
  · cases r with
    | a => exact (hb.frame (.plate .a) (by simp)).trans ha.plate
    | b => exact hb.plate
  · have hnews : shutNews (f .a s) .b z ↔ shutNews s .b z := by unfold shutNews; rw [hramp]
    rw [hnews]
    exact ⟨fun h => h.elim (fun h => ⟨_, h⟩) fun h => ⟨_, h⟩, fun ⟨r, h⟩ => by cases r; exacts [.inl h, .inr h]⟩

/-! ## Decks that a session change clears (R43, R163, R168) -/

/-- Some decks have been emptied, each with its warning state as `b` gives. -/
structure DecksCleared (s u : State) (ds : List Deck) (b : Deck → Bool) : Prop where
  deck : ∀ d ∈ ds, u.deck d = { fill := 0, warning := b d, lineLow := b d }
  pends : Pends s u fun x => ∃ d ∈ ds, x = .deck d ∧ b d ≠ (s.deck d).warning
  frame : OnlyChanges (.link :: ds.map Block.deck) s u

theorem decksCleared_one (s : State) (d : Deck) (b : Deck → Bool) :
    DecksCleared s ((s.setDeck d { s.deck d with fill := 0 }).setWarning d (b d)) [d] b where
  deck e he := by
    obtain rfl := List.mem_singleton.1 he
    rw [setWarning_deck, State.deck_setDeck_same]
  pends := by
    have h := pends_setWarning (s.setDeck d { s.deck d with fill := 0 }) d (b d)
    exact (Pends.of_link (s := s) h rfl).congr fun x => by simp [eq_comm (a := b d)]
  frame := .trans ((onlyChanges_setDeck s d _).mono (by simp)) ((onlyChanges_setWarning _ d _).mono (by simp))

theorem DecksCleared.snoc {ds : List Deck} {d : Deck} {b b' : Deck → Bool} (h : DecksCleared s t ds b)
    (k : DecksCleared t u [d] b') (hd : d ∉ ds) (hb : b' d = b d) : DecksCleared s u (ds ++ [d]) b where
  deck e he := by
    by_cases hed : e = d
    · subst hed
      rw [k.deck e (by simp), hb]
    · have hmem : e ∈ ds := by simpa [hed] using he
      exact (k.frame (.deck e) (by simp [hed])).trans (h.deck e hmem)
  pends := (h.pends.trans k.pends).congr fun x => by
    have hsame : t.deck d = s.deck d := h.frame (.deck d) (by simp [hd])
    simp [hb, hsame, or_and_right, exists_or]
  frame := .trans (h.frame.mono (by simp)) (k.frame.mono (by simp))

/-- What clears one deck, and reads of the others nothing, clears all four. -/
theorem decksCleared_forDecks {f : Deck → State → State} {W : DeckFixed → Bool → Bool}
    (hf : ∀ (s : State) (d : Deck), DecksCleared s (f d s) [d] fun d => W (s.deckFixed d) (s.deck d).warning) (s : State) :
    DecksCleared s (s.forDecks f) allDecks fun d => W (s.deckFixed d) (s.deck d).warning := by
  unfold State.forDecks
  have hnodup : allDecks.Nodup := by decide
  generalize allDecks = ds at hnodup
  induction ds using List.reverseRecOn with
  | nil => exact ⟨nofun, (Pends.refl s).congr fun x => by simp, .refl _ s⟩
  | append_singleton ds d ih =>
    obtain ⟨hds, -, hnew⟩ := List.nodup_append.1 hnodup
    have hd : d ∉ ds := fun h => hnew d h d (by simp) rfl
    have hinit := ih hds
    rw [List.foldl_append]
    refine hinit.snoc (hf _ d) hd ?_
    have hdeck := hinit.frame (.deck d) (by simp [hd])
    have hfixed := deckFixed_congr (congrArg ProfileStore.shadow (hinit.frame .pst (by simp))) d
    dsimp only [sameBlock] at hdeck ⊢
    rw [hdeck, hfixed]

theorem decksCleared_freshDeck (s : State) (d : Deck) :
    DecksCleared s (s.freshDeck d) [d] fun d => warningAfter (s.deckFixed d) (s.deck d).warning 0 := by
  have h := decksCleared_one s d fun d => warningAfter (s.deckFixed d) (s.deck d).warning 0
  unfold State.freshDeck State.examineWarning
  simpa using h

theorem decksCleared_releaseDeck (s : State) (d : Deck) : DecksCleared s (s.releaseDeck d) [d] fun _ => false :=
  decksCleared_one s d fun _ => false

end Sys2Proof.Machine

namespace Sys2Proof.Machine

open Sys2Proof

variable {s t u v w : State} {f : Frame} {rest : List Frame} {r : Ramp} {d : Deck}

/-! ## A ship that is cleared (R163, R168) -/

theorem perRamp_ext {α : Type} {p q : PerRamp α} (h : ∀ r, p.get r = q.get r) : p = q := by
  obtain ⟨a, b⟩ := p
  obtain ⟨a', b'⟩ := q
  obtain rfl : a = a' := h .a
  obtain rfl : b = b' := h .b
  rfl

theorem mem_allDecks (d : Deck) : d ∈ allDecks := by revert d; decide

/-- The parts of the state that a clearing may touch. -/
def shipBlocks : List Block := [.link, .ramp .a, .ramp .b, .plate .a, .plate .b] ++ allDecks.map Block.deck

theorem ramps_subset_shipBlocks : [Block.link, .ramp .a, .ramp .b, .plate .a, .plate .b] ⊆ shipBlocks :=
  List.subset_append_left _ _

theorem decks_subset_shipBlocks : .link :: allDecks.map Block.deck ⊆ shipBlocks := by decide

/-- Both ramps have been shut and the decks emptied. -/
structure ShipCleared (s u : State) (x : Ramp → RampRun) (y : Ramp → Plate) (b : Deck → Bool) : Prop where
  ramp : ∀ r, u.ramp r = x r
  plate : ∀ r, u.plate r = y r
  deck : ∀ d, u.deck d = { fill := 0, warning := b d, lineLow := b d }
  pends : Pends s u fun z => (∃ r, shutNews s r z) ∨ ∃ d, z = .deck d ∧ b d ≠ (s.deck d).warning
  frame : OnlyChanges shipBlocks s u

variable {x : Ramp → RampRun} {y : Ramp → Plate} {b : Deck → Bool}

/-- The decks after the ramps, as VESSEL_OPEN clears them. -/
theorem RampsShut.decks {W : DeckFixed → Bool → Bool} (h : RampsShut s t x y)
    (k : DecksCleared t u allDecks fun d => W (t.deckFixed d) (t.deck d).warning) :
    ShipCleared s u x y fun d => W (s.deckFixed d) (s.deck d).warning := by
  have hdeck (d : Deck) : t.deck d = s.deck d := h.frame (.deck d) (by simp)
  have hfixed := deckFixed_congr (congrArg ProfileStore.shadow (h.frame .pst (by simp)))
  simp only [hdeck, hfixed] at k
  refine ⟨fun r => (k.frame (.ramp r) (by simp)).trans (h.ramp r),
    fun r => (k.frame (.plate r) (by simp)).trans (h.plate r),
    fun d => k.deck d (mem_allDecks d), (h.pends.trans k.pends).congr fun z => ?_,
    .trans (h.frame.mono ramps_subset_shipBlocks) (k.frame.mono decks_subset_shipBlocks)⟩
  simp [hdeck, mem_allDecks]

/-- The ramps after the decks, as VESSEL_RELEASE clears them. -/
theorem DecksCleared.ramps {X : RampFixed → RampRun → RampRun} {Y : Plate → Plate} (h : DecksCleared s t allDecks b)
    (k : RampsShut t u (fun r => X (t.rampFixed r) (t.ramp r)) fun r => Y (t.plate r)) :
    ShipCleared s u (fun r => X (s.rampFixed r) (s.ramp r)) (fun r => Y (s.plate r)) b := by
  have hramp (r : Ramp) : t.ramp r = s.ramp r := h.frame (.ramp r) (by simp)
  have hplate (r : Ramp) : t.plate r = s.plate r := h.frame (.plate r) (by simp)
  have hfixed := rampFixed_congr (h.frame .pst (by simp))
  simp only [hramp, hplate, hfixed] at k
  refine ⟨k.ramp, k.plate, fun d => (k.frame (.deck d) (by simp)).trans (h.deck d (mem_allDecks d)),
    (h.pends.trans k.pends).congr fun z => ?_,
    .trans (h.frame.mono decks_subset_shipBlocks) (k.frame.mono ramps_subset_shipBlocks)⟩
  simp [shutNews, hramp, mem_allDecks, or_comm]

section Cleared

variable (h : ShipCleared s u x y b)
include h

theorem ShipCleared.pending_deck (d : Deck) :
    u.isPending (.deck d) = true ↔ s.isPending (.deck d) = true ∨ b d ≠ (s.deck d).warning := by
  rw [h.pends.pending]; simp [shutNews]

theorem ShipCleared.pending_ramp (r : Ramp) :
    u.isPending (.rampState r) = true ↔ s.isPending (.rampState r) = true ∨ (s.ramp r).state ≠ .closed := by
  rw [h.pends.pending]; simp [shutNews]

theorem ShipCleared.pending_gate (r : Ramp) :
    u.isPending (.gateHold r) = true ↔ s.isPending (.gateHold r) = true ∨ (s.ramp r).gateHold = true := by
  rw [h.pends.pending]; simp [shutNews]

theorem ShipCleared.pending_heel : u.isPending .heel = s.isPending .heel :=
  h.pends.raises.pending_eq (by simp [shutNews])

theorem ShipCleared.same (c : Block) (hc : c ∉ shipBlocks := by simp [shipBlocks]) : sameBlock s u c := h.frame c hc

theorem ShipCleared.comps : u.comps = s.comps :=
  perRamp_ext fun r => h.same (.comp r)

end Cleared

/-- The lanes as VESSEL_OPEN and VESSEL_RELEASE empty them, a clearing of ramps and decks apart (R24, R163). -/
theorem ShipCleared.lane_emptied (h : ShipCleared s u x y b) (hs : s.lanes = Vector.replicate 96 LaneRun.reset) (l : Lane) :
    u.lane l = { state := .opened, obstructions := [], occupants := [], reservations := [] } :=
  Eq.trans (h.same (.lane l)) (by simp [State.lane, hs, LaneRun.reset])

/-! ## VESSEL_OPEN (R163) -/

/-- The session begun and the tables cleared, before the ramps and the decks. -/
def State.sessionBegun (s : State) : State :=
  (((((s.setSession .alongside).setCheckIn []).setAgeing (some s.agePeriodMs)).setLanes
    (Vector.replicate 96 LaneRun.reset)).setStb Stability.reset).setAlc Allocator.reset

/-- A vessel call begun, but for the answer. -/
def State.vesselOpened (s : State) : State :=
  (s.sessionBegun.forRamps fun r s => (s.freshRamp r).setPlate r Plate.reset).forDecks State.freshDeck

theorem ownVesselOpen_eq (t : Ticket) (q : Unit) (s : State) : ownVesselOpen t q s =
    s.vesselOpened.fill t (.vesselOpened (s.vesselOpened.countUnits fun u => decide (u.status = .booked))) := rfl

theorem shipCleared_vesselOpened (s : State) :
    ShipCleared s.sessionBegun s.vesselOpened (fun r => openedRamp (s.rampFixed r)) (fun _ => Plate.reset)
      fun d => warningAfter (s.deckFixed d) (s.deck d).warning 0 := by
  exact (rampsShut_forRamps (X := fun f _ => openedRamp f) (Y := fun _ => Plate.reset) rampShut_freshRamp _).decks
    (W := fun f b => warningAfter f b 0)
    (decksCleared_forDecks (W := fun f b => warningAfter f b 0) decksCleared_freshDeck _)

/-- Settles O46: the tables are cleared, then the ramps shut and the decks emptied, each with its flags. -/
theorem vesselOpenClearsTheShip : Obligations.VesselOpenClearsTheShip := by
  unfold Obligations.VesselOpenClearsTheShip
  intro s f rest hh hp
  have hx : exec .vesselOpen s = .next (ownVesselOpen f.ticket () (s.taken f rest)).startTx := handle_of_handed hh hp rfl
  have h := shipCleared_vesselOpened (s.taken f rest)
  rw [ownVesselOpen_eq] at hx
  generalize (s.taken f rest).vesselOpened = w at h hx
  have hpends : Pends (s.taken f rest) w _ := h.pends.of_link rfl
  have hunits : w.units = s.units := h.same .units
  have hstb : w.stb = Stability.reset := h.same .stb
  unfold State.countUnits at hx
  rw [hunits] at hx
  refine ⟨_, hx, (hpends.answered _).1, (hpends.answered _).2, h.same .session, h.same .checkIn,
    h.same .ageing, h.lane_emptied rfl, congrArg Stability.mlC hstb, congrArg Stability.mtC hstb,
    congrArg Stability.mlP hstb, congrArg Stability.mtP hstb, congrArg Stability.bl hstb, congrArg Stability.bt hstb,
    fun d => ⟨?_, h.deck d, h.pending_deck d⟩, h.same .alc,
    fun r => ⟨h.ramp r, h.plate r, h.pending_ramp r, h.pending_gate r⟩, h.pending_heel, hunits, h.comps, h.same .hlm,
    h.same .pst, h.same .freeCount⟩
  exact (congrArg (fun x => x.load[d]) hstb).trans (load_reset d)

/-! ## VESSEL_REOPEN (R167) -/

/-- Records that a fold over references changes, each once and for all. -/
theorem unit_foldl {g : State → Ref → State} {c : UnitRecord → UnitRecord} (hc : ∀ v, c (c v) = c v)
    (hg : ∀ s ref q, (g s ref).unit? q = (s.unit? q).map fun v => if q = ref then c v else v) (refs : List Ref) (s : State)
    (q : Ref) : (refs.foldl g s).unit? q = (s.unit? q).map fun v => if q ∈ refs then c v else v := by
  induction refs generalizing s with
  | nil => simp
  | cons ref refs ih =>
    rw [List.foldl_cons, ih, hg, Option.map_map]
    refine Option.map_congr fun v _ => ?_
    by_cases hq : q = ref <;> by_cases hr : q ∈ refs <;> simp_all

/-- A SHUT_OUT unit returns to the end of the unplaced list (R167). -/
def State.unplaceAgain (s : State) (ref : Ref) : State := (s.setStatus ref .unplaced).joinUnplaced ref

theorem unit_unplaceAgain (s : State) (refs : List Ref) (q : Ref) : (refs.foldl State.unplaceAgain s).unit? q =
    (s.unit? q).map fun v => if q ∈ refs then { v with status := .unplaced } else v :=
  unit_foldl (g := State.unplaceAgain) (c := fun v => { v with status := .unplaced }) (fun _ => rfl)
    (fun s ref q => unitOf_modUnit s ref q _ fun _ => rfl) refs s q

theorem alc_unplaceAgain (s : State) (refs : List Ref) :
    (refs.foldl State.unplaceAgain s).alc = { s.alc with unplaced := s.alc.unplaced ++ refs } := by
  induction refs generalizing s with
  | nil => simp
  | cons ref refs ih =>
    rw [List.foldl_cons, ih]
    simp [State.unplaceAgain, State.joinUnplaced]

theorem OnlyChanges.foldl {α : Type} {bs : List Block} {g : State → α → State} (hg : ∀ s a, OnlyChanges bs s (g s a))
    (xs : List α) (s : State) : OnlyChanges bs s (xs.foldl g s) := by
  induction xs generalizing s with
  | nil => exact .refl _ s
  | cons a xs ih => exact (hg s a).trans (ih _)

theorem onlyChanges_unplaceAgain (s : State) (ref : Ref) : OnlyChanges [.units, .alc] s (s.unplaceAgain ref) :=
  .trans ((onlyChanges_setStatus s ref .unplaced).mono (by simp)) ((onlyChanges_setAlc _ _).mono (by simp))

theorem onlyChanges_setSession (s : State) (x : Session) : OnlyChanges [.session] s (s.setSession x) := fun b hb => by
  cases b with
  | session => simp at hb
  | _ => rfl

/-- A vessel call resumed, but for the retry walk and the answer. -/
def State.sessionResumed (s : State) : State :=
  ((s.shutOutRefs.foldl State.unplaceAgain s).setSession .alongside).setAgeing (some s.agePeriodMs)

theorem ownVesselReopen_eq (t : Ticket) (q : Unit) (s : State) : ownVesselReopen t q s =
    s.sessionResumed.triggerWalk.fill t (.vesselReopened s.shutOutRefs.length) := rfl

/-- The SHUT_OUT units have returned to the end of the unplaced list, the ageing timer runs and a walk is asked for. -/
structure SessionResumed (s u : State) : Prop where
  session : u.session = .alongside
  ageing : u.ageing = some (s.vessel.agePeriod * 1000)
  unit : ∀ ref, u.unit? ref =
    (s.unit? ref).map fun v => if ref ∈ s.shutOutRefs then { v with status := .unplaced } else v
  unplaced : u.alc.unplaced = s.alc.unplaced ++ s.shutOutRefs
  asked : WalkAsked s u
  walk : u.alc.walk = s.alc.walk
  frame : OnlyChanges [.session, .units, .ageing, .alc] s u

theorem onlyChanges_sessionResumed (s : State) : OnlyChanges [.session, .units, .ageing, .alc] s s.sessionResumed :=
  .trans ((OnlyChanges.foldl onlyChanges_unplaceAgain _ s).mono (by simp))
    (.trans ((onlyChanges_setSession _ _).mono (by simp)) ((onlyChanges_setAgeing _ _).mono (by simp)))

theorem sessionResumed_resumes (s : State) : SessionResumed s s.sessionResumed.triggerWalk := by
  have hunit (q : Ref) : s.sessionResumed.unit? q = _ := unit_unplaceAgain s s.shutOutRefs q
  have halc : s.sessionResumed.alc = _ := alc_unplaceAgain s s.shutOutRefs
  have hframe := onlyChanges_sessionResumed s
  have hwalk := onlyChanges_triggerWalk s.sessionResumed
  obtain ⟨hunplaced, hvisits⟩ := triggerWalk_lists s.sessionResumed
  have hasked := walkAsked_triggerWalk s.sessionResumed
  have hservice : s.sessionResumed.alc.service = s.alc.service := by rw [halc]
  unfold WalkAsked at hasked
  rw [hservice] at hasked
  exact ⟨hwalk .session (by simp), hwalk .ageing (by simp), fun q => (hwalk.unit_eq (by simp) q).trans (hunit q),
    by rw [hunplaced, halc], hasked, by rw [hvisits, halc], hframe.trans (hwalk.mono (by simp))⟩

/-! ## VESSEL_RELEASE (R168) -/

/-- The records but the BOOKED retired and the tables cleared, before the decks and the ramps. -/
def State.sessionDropped (s : State) : State :=
  ((((s.setSession .noVessel).setUnits (s.units.filter fun u => decide (u.status = .booked))).setCheckIn []).setLanes
    (Vector.replicate 96 LaneRun.reset)).setStb Stability.reset

/-- A vessel call ended, but for the answer. -/
def State.vesselReleased (s : State) : State :=
  (s.sessionDropped.forDecks State.releaseDeck).forRamps State.releaseRamp

theorem ownVesselRelease_eq (t : Ticket) (q : Unit) (s : State) : ownVesselRelease t q s =
    s.vesselReleased.fill t (.vesselReleased
      (s.units.length - (s.units.filter fun u => decide (u.status = .booked)).length)
      (s.units.filter fun u => decide (u.status = .booked)).length) := rfl

theorem shipCleared_vesselReleased (s : State) :
    ShipCleared s.sessionDropped s.vesselReleased (fun r => releasedRamp (s.ramp r)) s.plate fun _ => false :=
  (decksCleared_forDecks (W := fun _ _ => false) decksCleared_releaseDeck s.sessionDropped).ramps
    (X := fun _ x => releasedRamp x) (Y := id)
    (rampsShut_forRamps (X := fun _ x => releasedRamp x) (Y := id) rampShut_releaseRamp _)

/-- Settles O48: the fold over the SHUT_OUT units with the walk it asks for, and the cleared ship. -/
theorem vesselReopensAndIsReleased : Obligations.VesselReopensAndIsReleased := by
  unfold Obligations.VesselReopensAndIsReleased
  refine ⟨?_, ?_⟩
  · intro s f rest hh hp back
    have hx : exec .vesselReopen s = .next (ownVesselReopen f.ticket () (s.taken f rest)).startTx :=
      handle_of_handed hh hp rfl
    have h := sessionResumed_resumes (s.taken f rest)
    rw [ownVesselReopen_eq] at hx
    generalize (s.taken f rest).sessionResumed.triggerWalk = w at h hx
    obtain ⟨hreplied, hnews, -⟩ := answered_of_link (r := .vesselReopened back.length) (h.frame .link (by simp)) trivial
    exact ⟨_, hx, hreplied, hnews, h.session, h.ageing, h.unit, h.unplaced, h.asked, h.walk,
      onlyChanges_fill _ _ (by simp) (h.frame.mono (by simp))⟩
  · intro s f rest hh hp kept
    have hx : exec .vesselRelease s = .next (ownVesselRelease f.ticket () (s.taken f rest)).startTx :=
      handle_of_handed hh hp rfl
    have h := shipCleared_vesselReleased (s.taken f rest)
    rw [ownVesselRelease_eq] at hx
    generalize (s.taken f rest).vesselReleased = w at h hx
    have hpends : Pends (s.taken f rest) w _ := h.pends.of_link rfl
    have hstb : w.stb = Stability.reset := h.same .stb
    refine ⟨_, hx, (hpends.answered _).1, (hpends.answered _).2, h.same .session, h.same .units, h.same .checkIn,
      h.lane_emptied rfl, congrArg Stability.mlC hstb, congrArg Stability.mtC hstb, congrArg Stability.mlP hstb,
      congrArg Stability.mtP hstb, congrArg Stability.bl hstb, congrArg Stability.bt hstb, fun d => ⟨?_, h.deck d, ?_⟩,
      fun r => ⟨h.ramp r, h.pending_ramp r, h.pending_gate r⟩, h.pending_heel, h.same .ageing, h.same .alc,
      perRamp_ext h.plate, h.comps, h.same .hlm, h.same .pst, h.same .freeCount⟩
    · exact (congrArg (fun x => x.load[d]) hstb).trans (load_reset d)
    · refine (h.pending_deck d).trans (or_congr .rfl ?_)
      rw [ne_comm, Bool.ne_false_iff]
      rfl

end Sys2Proof.Machine

namespace Sys2Proof.Machine

open Sys2Proof

variable {s t w : State} {gone : List Ref} {ref q : Ref}

/-! ## A unit that is shut out, as one that lapses (R10, R165) -/

/-- The record of a unit that is shut out. -/
def shutOutRecord (v : UnitRecord) : UnitRecord := { v with status := .shutOut, lane := none }

/-- A state but for its records and its Allocator. -/
def Twin (t w : State) : Prop := ∃ us a, w = (t.setUnits us).setAlc a

theorem Twin.refl (s : State) : Twin s s := ⟨s.units, s.alc, rfl⟩

theorem Twin.same (h : Twin t w) (c : Block) (hc : c ∉ [Block.units, .alc] := by simp) : sameBlock t w c := by
  obtain ⟨us, a, rfl⟩ := h
  exact OnlyChanges.trans ((onlyChanges_setUnits t us).mono (by simp)) ((onlyChanges_setAlc _ a).mono (by simp)) c hc

theorem Twin.modUnit (h : Twin t w) (f : UnitRecord → UnitRecord) : Twin t (w.modUnit ref f) := by
  obtain ⟨us, a, rfl⟩ := h
  exact ⟨_, a, rfl⟩

theorem Twin.setAlc (h : Twin t w) (a : Allocator) : Twin t (w.setAlc a) := by
  obtain ⟨us, -, rfl⟩ := h
  exact ⟨us, a, rfl⟩

theorem Twin.modUnits (h : Twin t w) (f g : UnitRecord → UnitRecord) : Twin (t.modUnit ref f) (w.modUnit ref g) := by
  obtain ⟨us, a, rfl⟩ := h
  exact ⟨_, a, rfl⟩

theorem Twin.leaveQueue (h : Twin t w) (r : Ramp) (ref : Ref) : Twin (t.leaveQueue r ref) (w.leaveQueue r ref) := by
  obtain ⟨us, a, rfl⟩ := h
  refine ⟨us, a, ?_⟩
  simp only [State.leaveQueue, State.examineGate, State.setGate, apply_ite (State.setUnits us), apply_ite (State.setAlc a)]
  rfl

/-- A release reads of the records only the unit's own. -/
theorem Twin.release (h : Twin t w) (hu : w.unit? ref = t.unit? ref) : Twin (t.release ref) (w.release ref) := by
  unfold State.release
  rw [hu]
  cases t.unit? ref with
  | none => exact h
  | some v =>
    cases hl : v.lane with
    | none => simpa [hl] using h
    | some l =>
      simp only [hl]
      obtain ⟨us, a, rfl⟩ := h
      exact Twin.modUnits (Twin.leaveQueue ⟨us, a, rfl⟩ _ ref) _ _

theorem shutOut_waiting (h : s.statusOf ref = some .waiting) :
    s.shutOut ref = (s.release ref).modUnit ref shutOutRecord := by
  unfold State.shutOut
  rw [h]
  rfl

theorem shutOut_unplaced (h : s.statusOf ref = some .unplaced) :
    s.shutOut ref = (s.leaveUnplaced ref).modUnit ref shutOutRecord := by
  unfold State.shutOut
  rw [h]
  rfl

theorem shutOut_other (hw : s.statusOf ref ≠ some .waiting) (hu : s.statusOf ref ≠ some .unplaced) :
    s.shutOut ref = s.modUnit ref shutOutRecord := by
  unfold State.shutOut
  split
  · next h => exact absurd h hw
  · next h => exact absurd h hu
  · rfl

theorem Twin.shutOut_waiting (h : Twin t w) (hu : w.unit? ref = t.unit? ref) (hs : w.statusOf ref = some .waiting) :
    Twin (t.lapse ref) (w.shutOut ref) := by
  rw [Machine.shutOut_waiting hs]
  exact (h.release hu).modUnits _ _

theorem Twin.shutOut_other (h : Twin t w) (hs : w.statusOf ref ≠ some .waiting) : Twin t (w.shutOut ref) := by
  by_cases hu : w.statusOf ref = some .unplaced
  · rw [shutOut_unplaced hu]
    exact Twin.modUnit (h.setAlc _) _
  · rw [Machine.shutOut_other hs hu]
    exact h.modUnit _

theorem unit_shutOut (s : State) (ref q : Ref) :
    (s.shutOut ref).unit? q = (s.unit? q).map fun v => if q = ref then shutOutRecord v else v := by
  have hmod (t : State) := unitOf_modUnit t ref q shutOutRecord fun _ => rfl
  by_cases hw : s.statusOf ref = some .waiting
  · rw [shutOut_waiting hw, hmod, unitOf_release, Option.map_map]
    refine Option.map_congr fun v _ => ?_
    by_cases hq : q = ref <;> simp [hq, shutOutRecord]
  · by_cases hu : s.statusOf ref = some .unplaced
    · rw [shutOut_unplaced hu, hmod]
      rfl
    · rw [shutOut_other hw hu, hmod]

theorem unit_lapse (s : State) (ref q : Ref) :
    (s.lapse ref).unit? q = (s.unit? q).map fun v => if q = ref then { v with status := .lapsed, lane := none } else v := by
  have hmod := unitOf_modUnit (s.release ref) ref q (fun v => { v with status := .lapsed }) fun _ => rfl
  refine hmod.trans ?_
  rw [unitOf_release, Option.map_map]
  refine Option.map_congr fun v _ => ?_
  by_cases hq : q = ref <;> simp [hq]

theorem unit_foldl_shutOut (s : State) (refs : List Ref) (q : Ref) :
    (refs.foldl State.shutOut s).unit? q = (s.unit? q).map fun v => if q ∈ refs then shutOutRecord v else v :=
  unit_foldl (c := shutOutRecord) (fun _ => rfl) unit_shutOut refs s q

theorem unit_foldl_lapse (s : State) (refs : List Ref) (q : Ref) : (refs.foldl State.lapse s).unit? q =
    (s.unit? q).map fun v => if q ∈ refs then { v with status := .lapsed, lane := none } else v :=
  unit_foldl (c := fun v => { v with status := .lapsed, lane := none }) (fun _ => rfl) unit_lapse refs s q

theorem status_foldl_shutOut {refs : List Ref} (hq : q ∉ refs) :
    (refs.foldl State.shutOut s).statusOf q = s.statusOf q := by
  unfold State.statusOf
  rw [unit_foldl_shutOut]
  simp [hq]

/-- But for records and Allocator the WAITING units among those that are shut out lapse, and nothing else is done. -/
theorem twin_foldl_shutOut (hn : gone.Nodup) :
    Twin ((s.withStatus .waiting gone).foldl State.lapse s) (gone.foldl State.shutOut s) := by
  induction gone using List.reverseRecOn with
  | nil => exact .refl s
  | append_singleton gone ref ih =>
    obtain ⟨hgone, -, hnew⟩ := List.nodup_append.1 hn
    have href : ref ∉ gone := fun h => hnew ref h ref (by simp) rfl
    have hstatus := status_foldl_shutOut (s := s) href
    rw [withStatus_snoc]
    by_cases hs : s.statusOf ref = some .waiting
    · rw [if_pos hs, List.foldl_append, List.foldl_append]
      refine (ih hgone).shutOut_waiting ?_ (hstatus.trans hs)
      rw [unit_foldl_shutOut, unit_foldl_lapse]
      simp [href, State.withStatus]
    · rw [if_neg hs, List.append_nil, List.foldl_append]
      exact (ih hgone).shutOut_other (hstatus.trans_ne hs)

/-- The UNPLACED units that are shut out leave the unplaced list (R165). -/
theorem alc_foldl_shutOut (hn : gone.Nodup) (hu : s.alc.unplaced.Nodup)
    (hwalk : s.alc.walk = [])
    (hs : ∀ ref ∈ s.alc.unplaced, s.statusOf ref = some .unplaced) :
    (gone.foldl State.shutOut s).alc = { s.alc with unplaced := still gone s.alc.unplaced } := by
  induction gone using List.reverseRecOn with
  | nil => rw [still_nil]; rfl
  | append_singleton gone ref ih =>
    obtain ⟨hgone, -, hnew⟩ := List.nodup_append.1 hn
    have href : ref ∉ gone := fun h => hnew ref h ref (by simp) rfl
    have hstatus := status_foldl_shutOut (s := s) href
    have halc := ih hgone
    rw [List.foldl_append]
    generalize gone.foldl State.shutOut s = t at hstatus halc
    change (t.shutOut ref).alc = _
    by_cases h : s.statusOf ref = some .unplaced
    · rw [shutOut_unplaced (hstatus.trans h), still_snoc hu]
      simp [State.leaveUnplaced, halc, hwalk]
    · have hstay : (t.shutOut ref).alc = t.alc := by
        by_cases hw : t.statusOf ref = some .waiting
        · rw [shutOut_waiting hw]; simp
        · rw [shutOut_other hw (hstatus.trans_ne h)]; simp
      rw [hstay, halc, still_snoc_of_notMem fun hm => h (hs ref hm)]

/-! ## Flags that no release raises (R121) -/

theorem pending_setGate {x : Subject} (hx : ∀ r, x ≠ .gateHold r) (s : State) (r : Ramp) (g : Bool) :
    (s.setGate r g).isPending x = s.isPending x := (pends_setGate s r g).raises.pending_eq (by simp [hx])

theorem pending_release {x : Subject} (hx : ∀ r, x ≠ .gateHold r) (s : State) (ref : Ref) :
    (s.release ref).isPending x = s.isPending x := by
  unfold State.release
  split
  · rfl
  · split
    · rfl
    · next l hl =>
      unfold State.leaveQueue State.examineGate
      dsimp only
      split
      · exact pending_setGate hx (State.setRamp _ _ _) _ _
      · rfl

theorem pending_shutOut {x : Subject} (hx : ∀ r, x ≠ .gateHold r) (s : State) (ref : Ref) :
    (s.shutOut ref).isPending x = s.isPending x := by
  unfold State.shutOut
  dsimp only
  split
  · exact pending_release hx s ref
  · rfl
  · rfl

theorem pending_foldl_shutOut {x : Subject} (hx : ∀ r, x ≠ .gateHold r) (refs : List Ref) (s : State) :
    (refs.foldl State.shutOut s).isPending x = s.isPending x := by
  induction refs generalizing s with
  | nil => rfl
  | cons ref refs ih => exact (ih _).trans (pending_shutOut hx s ref)

end Sys2Proof.Machine

namespace Sys2Proof.Machine

open Sys2Proof

variable {s t u w : State} {gone : List Ref} {ref : Ref} {r : Ramp} {v : UnitRecord}

/-! ## The units that VESSEL_SECURE shuts out (R165) -/

theorem mem_toShutOut (h : ReservationLaw s) (hv : s.unit? ref = some v) :
    ref ∈ s.toShutOut ↔ v.status.shutsOut = true := by
  obtain ⟨-, -, -, -, -, -, -, -, -, -, -, hlisted, -⟩ := h
  unfold State.toShutOut State.statusOf
  rw [List.mem_filter, hv]
  refine ⟨And.right, fun hs => ⟨?_, hs⟩⟩
  have hin := hlisted v (unit_mem hv)
  rw [unit_ref hv] at hin
  exact hin (.inr fun e => by simp [e, Status.shutsOut] at hs) fun e => by simp [e, Status.shutsOut] at hs

theorem nodup_toShutOut (h : ReservationLaw s) : s.toShutOut.Nodup := by
  obtain ⟨-, -, -, -, -, -, -, -, -, hlisted, -⟩ := h
  exact hlisted.filter _

/-- Those of them that wait are ready to lapse (R26, R103). -/
theorem lapseReady_toShutOut (h : ReservationLaw s) : LapseReady s (s.withStatus .waiting s.toShutOut) where
  nodup := (nodup_toShutOut h).filter _
  waits ref hr := by
    have hw := of_decide_eq_true (List.mem_filter.1 hr).2
    obtain ⟨v, hv, hs⟩ : ∃ v, s.unit? ref = some v ∧ v.status = .waiting := by simpa [State.statusOf] using hw
    obtain ⟨l, hl, hres⟩ := h.waiting (unit_mem hv) hs
    rw [unit_ref hv] at hres
    exact ⟨v, l, hv, hl, hres⟩
  reservations := (lapseReady_of_law h).reservations
  queues := (lapseReady_of_law h).queues
  queued _ _ hq := h.queued hq
  gate := (lapseReady_of_law h).gate

/-- Those of them that hold a lane wait. -/
theorem waiting_of_toShutOut (h : ReservationLaw s) (hr : ref ∈ s.toShutOut) (hl : laneOf s ref ≠ none) :
    s.statusOf ref = some .waiting := by
  obtain ⟨-, hs⟩ := List.mem_filter.1 hr
  cases hx : s.statusOf ref with
  | none => simp [hx] at hs
  | some x =>
    by_contra hw
    refine hl (h.laneless hx ?_)
    cases x <;> simp [hx, Status.shutsOut] at hs hw ⊢

/-- Units without a lane have no reservation to release. -/
theorem LanesReleased.of_waiting (h : LanesReleased s u (s.withStatus .waiting gone))
    (hw : ∀ ref ∈ gone, laneOf s ref ≠ none → s.statusOf ref = some .waiting) : LanesReleased s u gone := by
  intro l
  have hrest : restIn s (s.withStatus .waiting gone) l = restIn s gone l := by
    refine List.filter_congr fun ref _ => ?_
    by_cases hl : laneOf s ref = some l
    · by_cases hg : ref ∈ gone
      · simp [State.withStatus, hg, hw ref hg (by simp [hl])]
      · simp [State.withStatus, hg]
    · simp [hl]
  have hlane := h l
  unfold restIn at hrest
  rwa [hrest] at hlane

theorem sum_withStatus {x : Status} {g : Ref → Int} (hg : ∀ ref ∈ gone, g ref ≠ 0 → s.statusOf ref = some x) :
    ((s.withStatus x gone).map g).sum = (gone.map g).sum := by
  induction gone with
  | nil => rfl
  | cons ref gone ih =>
    have htail := ih fun q hq => hg q (.tail _ hq)
    unfold State.withStatus at htail ⊢
    by_cases hs : s.statusOf ref = some x
    · simp [hs, htail]
    · have hzero : g ref = 0 := by_contra fun h => hs (hg ref (.head _) h)
      simp [hs, hzero, htail]

theorem SumsReleased.of_waiting (h : SumsReleased s u (s.withStatus .waiting gone))
    (hw : ∀ ref ∈ gone, laneOf s ref ≠ none → s.statusOf ref = some .waiting) : SumsReleased s u gone := by
  have hml := sum_withStatus (g := promisedMl s) fun ref hr hne => hw ref hr fun hl => hne (by simp [promisedMl, hl])
  have hmt := sum_withStatus (g := promisedMt s) fun ref hr hne => hw ref hr fun hl => hne (by simp [promisedMt, hl])
  have hload (d : Deck) :=
    sum_withStatus (g := promisedLoad s d) fun ref hr hne => hw ref hr fun hl => hne (by simp [promisedLoad, hl])
  unfold SumsReleased at h ⊢
  simpa only [hml, hmt, hload] using h

/-- What the fold over the units that are shut out leaves of a state. -/
structure AllShutOut (s w : State) : Prop where
  unit : ∀ q, w.unit? q = (s.unit? q).map fun v => if v.status.shutsOut then shutOutRecord v else v
  alc : w.alc = { s.alc with unplaced := [] }
  lanes : LanesReleased s w s.toShutOut
  sums : SumsReleased s w s.toShutOut
  queues : QueuesReleased s w (s.withStatus .waiting s.toShutOut)
  notified : Notified s w []
  news : OnlyNews s w
  pending : ∀ x, (∀ r, x ≠ .gateHold r) → w.isPending x = s.isPending x
  frame : OnlyChanges ([.link, .units, .stb, .alc, .ramp .a, .ramp .b] ++ anyLane) s w

theorem SumsReleased.of_stb (h : SumsReleased s t gone) (hs : u.stb = t.stb) : SumsReleased s u gone := by
  unfold SumsReleased at h ⊢
  rwa [hs]

theorem QueuesReleased.of_ramps (h : QueuesReleased s t gone) (hr : ∀ r, u.ramp r = t.ramp r) (hl : u.link = t.link) :
    QueuesReleased s u gone := by
  unfold QueuesReleased State.isPending at h ⊢
  simpa only [hr, hl] using h

theorem allShutOut_foldl (h : ReservationLaw s) (hwalk : s.alc.walk = []) :
    AllShutOut s (s.toShutOut.foldl State.shutOut s) := by
  have hnodup := nodup_toShutOut h
  have htwin := twin_foldl_shutOut (s := s) hnodup
  have hlapses := lapses_foldl (lapseReady_toShutOut h)
  have hwaits (ref : Ref) := waiting_of_toShutOut (ref := ref) h
  have hlink := htwin.same .link
  refine ⟨fun q => ?_, ?_, ?_, ?_, ?_, ?_, ?_, fun x hx => pending_foldl_shutOut hx _ s, ?_⟩
  · rw [unit_foldl_shutOut]
    exact Option.map_congr fun v hv => if_congr (mem_toShutOut h hv) rfl rfl
  · obtain ⟨-, -, -, -, -, -, hunplaced, hmembers, -⟩ := id h
    have hstatus (ref : Ref) (hr : ref ∈ s.alc.unplaced) : ∃ v, s.unit? ref = some v ∧ v.status = .unplaced := by
      obtain ⟨v, hv, hp⟩ := unitIs_iff.1 (hmembers ref hr)
      simp only [Bool.and_eq_true, decide_eq_true_eq] at hp
      exact ⟨v, hv, hp.1⟩
    have hgone : still s.toShutOut s.alc.unplaced = [] := still_eq_nil fun ref hr => by
      obtain ⟨v, hv, hs⟩ := hstatus ref hr
      rw [mem_toShutOut h hv, hs, Status.shutsOut]
    rw [alc_foldl_shutOut hnodup hunplaced hwalk fun ref hr => ?_, hgone]
    obtain ⟨v, hv, hs⟩ := hstatus ref hr
    simp [State.statusOf, hv, hs]
  · exact LanesReleased.of_waiting (fun l => (htwin.same (.lane l)).trans (hlapses.lanes l)) hwaits
  · exact (hlapses.sums.of_stb (htwin.same .stb)).of_waiting hwaits
  · exact hlapses.queues.of_ramps (fun r => htwin.same (.ramp r)) hlink
  · have hnotified := hlapses.notified
    unfold Notified at hnotified ⊢
    rwa [hlink]
  · exact hlapses.news.trans (onlyNews_of_link hlink)
  · exact .trans (hlapses.frame.mono (List.append_subset.2 ⟨by simp, List.subset_append_right _ _⟩))
      (OnlyChanges.mono (bs := [.units, .alc]) (fun c hc => htwin.same c hc) (by simp))

/-! ## The lanes and the ramps with nobody in flight (R164, R166) -/

/-- A unit is called or crosses: it is in flight (R164). -/
def Flying (v : UnitRecord) : Prop := v.status = .called ∨ v.status = .crossing

/-- With nobody in flight every reservation is that of a unit that is shut out. -/
theorem AllShutOut.unreserved (h : AllShutOut s w) (hlaw : ReservationLaw s) (hfly : ∀ v ∈ s.units, ¬ Flying v) (l : Lane) :
    (w.lane l).reservations = [] := by
  have hrest : restIn s s.toShutOut l = [] := List.filter_eq_nil_iff.2 fun ref hr => by
    obtain ⟨v, hv, hl, hs⟩ := hlaw.reserved hr
    have hw : v.status = .waiting := hs.resolve_right (hfly v (unit_mem hv))
    have hgone : ref ∈ s.toShutOut := (mem_toShutOut hlaw hv).2 (by rw [hw, Status.shutsOut])
    simp [hgone, laneOf, hv, hl]
  have hlane := h.lanes l
  unfold restIn at hrest
  dsimp only at hlane
  rw [hrest] at hlane
  rw [hlane]
  split
  · next e => exact e.symm
  · rfl

/-- A queued unit waits, so that it is shut out. -/
theorem still_toShutOut (hlaw : ReservationLaw s) {xs : List Ref}
    (hx : ∀ ref ∈ xs, ref ∈ (s.ramp r).prio ∨ ref ∈ (s.ramp r).ord) :
    still (s.withStatus .waiting s.toShutOut) xs = [] :=
  still_eq_nil fun ref hr => by
    obtain ⟨v, hv, hw⟩ := hlaw.queued_waits (hx ref hr)
    have hgone : ref ∈ s.toShutOut := (mem_toShutOut hlaw hv).2 (by rw [hw, Status.shutsOut])
    simp [State.withStatus, hgone, State.statusOf, hv, hw]

/-- A gate hold over empty queues was asserted before. -/
theorem gate_of_gateAfter_zero {x : RampFixed} {g : Bool} (h1 : 1 ≤ x.gateOn) (h : gateAfter x g 0 = true) : g = true := by
  cases g with
  | false => simp [gateAfter_false] at h; omega
  | true => rfl

/-- The ramp with its queues emptied, once it is secured: the hold that the empty queues gave does not matter. -/
theorem AllShutOut.secured (h : AllShutOut s w) (hlaw : ReservationLaw s) (r : Ramp) :
    securedRamp (w.ramp r) =
        { s.ramp r with
          state := .closed, intervalTimer := none, callTimer := none, gateHold := false, lineHigh := false
          prio := [], ord := [] } ∧
      (w.ramp r).state = (s.ramp r).state ∧
      ((w.isPending (.gateHold r) = true ∨ (w.ramp r).gateHold = true) ↔
        s.isPending (.gateHold r) = true ∨ (s.ramp r).gateHold = true) := by
  have hready := lapseReady_toShutOut hlaw
  obtain ⟨hprio, hord, hgate, hrest⟩ := ramp_of_queuesReleased hready h.queues r
  obtain ⟨-, -, hpend⟩ := queuesReleased_iff.1 h.queues r
  rw [still_toShutOut hlaw fun _ => .inl] at hprio
  rw [still_toShutOut hlaw fun _ => .inr] at hord
  have hsame := hrest [] [] false
  have hzero : gateWithout s (s.withStatus .waiting s.toShutOut) r = gateAfter (s.rampFixed r) (s.ramp r).gateHold 0 := by
    unfold gateWithout
    rw [still_toShutOut hlaw fun _ => .inl, still_toShutOut hlaw fun _ => .inr]
    rfl
  have hstands : GateStands s r := hready.gate r
  refine ⟨?_, (congrArg RampRun.state hsame :), ?_⟩
  · have hsettings := congrArg securedRamp hsame
    unfold securedRamp at hsettings ⊢
    rw [← hsettings]
    simp only [hprio, hord]
  · rw [hpend, hgate, or_assoc]
    refine or_congr .rfl ⟨?_, fun hg => ?_⟩
    · rintro (⟨-, hne⟩ | hw)
      · by_contra hg
        rw [Bool.not_eq_true] at hg
        have hw := Bool.ne_false_iff.1 (hg ▸ hne)
        exact absurd (gate_of_gateAfter_zero hstands.1 (hzero ▸ hw)) (by simp [hg])
      · exact gate_of_gateAfter_zero hstands.1 (hzero ▸ hw)
    · by_cases hw : gateWithout s (s.withStatus .waiting s.toShutOut) r = (s.ramp r).gateHold
      · exact .inr (hw.trans hg)
      · exact .inl ⟨by_contra fun hno => hw (gateWithout_of_stay hstands hno), hw⟩

end Sys2Proof.Machine

namespace Sys2Proof.Machine

open Sys2Proof

variable {s : State}

/-! ## VESSEL_SECURE (R164 to R166) -/

/-- The units shut out and the ramps secured, but for the answer. -/
def State.vesselSecured (s : State) : State :=
  (((s.toShutOut.foldl State.shutOut s).setSession .secured).setAgeing none).forRamps State.secureRamp

theorem ownVesselSecure_inFlight (t : Ticket) (q : Unit) (h : 0 < s.inFlight ∨ s.anyWeighing = true) :
    ownVesselSecure t q s = s.fill t (.secureInFlight s.inFlight) := if_pos h

theorem ownVesselSecure_busy (t : Ticket) (q : Unit) (h : ¬ (0 < s.inFlight ∨ s.anyWeighing = true))
    (hb : s.alc.service ≠ [] ∨ s.alc.walk ≠ []) : ownVesselSecure t q s = s.refuse t .busy :=
  (if_neg h).trans (if_pos hb)

theorem ownVesselSecure_secures (t : Ticket) (q : Unit) (h : ¬ (0 < s.inFlight ∨ s.anyWeighing = true))
    (hb : ¬ (s.alc.service ≠ [] ∨ s.alc.walk ≠ [])) :
    ownVesselSecure t q s = s.vesselSecured.fill t (.vesselSecured s.toShutOut.length) := (if_neg h).trans (if_neg hb)

theorem anyWeighing_iff : s.anyWeighing = true ↔ ∃ r, (s.plate r).state = .weighing := by
  unfold State.anyWeighing allRamps
  rw [List.any_eq_true]
  simp only [decide_eq_true_eq]
  exact ⟨fun ⟨r, _, h⟩ => ⟨r, h⟩, fun ⟨r, h⟩ => ⟨r, by cases r <;> simp, h⟩⟩

theorem not_flying (h : s.inFlight = 0) : ∀ v ∈ s.units, ¬ Flying v := fun v hv hf => by
  unfold State.inFlight State.countUnits at h
  have hnil := List.filter_eq_nil_iff.1 (List.length_eq_zero_iff.1 h) v hv
  exact hnil (by simpa [Flying] using hf)

theorem rampsShut_secured (w : State) : RampsShut ((w.setSession .secured).setAgeing none)
    (((w.setSession .secured).setAgeing none).forRamps State.secureRamp) (fun r => securedRamp (w.ramp r))
    fun r => { w.plate r with state := .disarmed } :=
  rampsShut_forRamps (X := fun _ x => securedRamp x) (Y := fun y => { y with state := .disarmed }) rampShut_secureRamp _

/-- What the event leaves, but for the answer. -/
structure VesselSecured (s u : State) : Prop where
  session : u.session = .secured
  ageing : u.ageing = none
  unit : ∀ q, u.unit? q = (s.unit? q).map fun v => if v.status.shutsOut then shutOutRecord v else v
  alc : u.alc = { s.alc with unplaced := [] }
  lanes : LanesReleased s u s.toShutOut
  unreserved : ∀ l, (u.lane l).reservations = []
  sums : SumsReleased s u s.toShutOut
  ramp : ∀ r, u.ramp r =
    { s.ramp r with
      state := .closed, intervalTimer := none, callTimer := none, gateHold := false, lineHigh := false
      prio := [], ord := [] }
  plate : ∀ r, u.plate r = { s.plate r with state := .disarmed }
  pending_ramp : ∀ r, u.isPending (.rampState r) = true ↔ s.isPending (.rampState r) = true ∨ (s.ramp r).state ≠ .closed
  pending_gate : ∀ r, u.isPending (.gateHold r) = true ↔ s.isPending (.gateHold r) = true ∨ (s.ramp r).gateHold = true
  pending_heel : u.isPending .heel = s.isPending .heel
  pending_deck : ∀ d, u.isPending (.deck d) = s.isPending (.deck d)
  notified : Notified s u []
  news : OnlyNews s u
  frame : OnlyChanges
    ([.session, .link, .units, .ageing, .stb, .alc, .ramp .a, .ramp .b, .plate .a, .plate .b] ++ anyLane) s u

theorem vesselSecured_of_law (hlaw : ReservationLaw s) (hfly : s.inFlight = 0) (hwalk : s.alc.walk = []) :
    VesselSecured s s.vesselSecured := by
  have h := allShutOut_foldl hlaw hwalk
  unfold State.vesselSecured
  generalize s.toShutOut.foldl State.shutOut s = w at h ⊢
  have hk := rampsShut_secured w
  have hsession : OnlyChanges [.session, .ageing] w ((w.setSession .secured).setAgeing none) :=
    .trans ((onlyChanges_setSession w _).mono (by simp)) ((onlyChanges_setAgeing _ _).mono (by simp))
  generalize ((w.setSession .secured).setAgeing none).forRamps State.secureRamp = u at hk ⊢
  have hlane (l : Lane) : u.lane l = w.lane l := hk.frame (.lane l) (by simp)
  have hpends : Pends w u fun z => ∃ r, shutNews w r z := hk.pends.of_link rfl
  have hpending (x : Subject) : u.isPending x = true ↔ w.isPending x = true ∨ ∃ r, shutNews w r x := hpends.pending x
  refine ⟨hk.frame .session (by simp), hk.frame .ageing (by simp), fun q => (hk.frame.unit_eq (by simp) q).trans (h.unit q),
    Eq.trans (hk.frame .alc (by simp)) h.alc, fun l => (hlane l).trans (h.lanes l),
    fun l => (congrArg LaneRun.reservations (hlane l)).trans (h.unreserved hlaw (not_flying hfly) l),
    h.sums.of_stb (hk.frame .stb (by simp)), fun r => (hk.ramp r).trans (h.secured hlaw r).1, fun r => ?_, fun r => ?_,
    fun r => ?_, ?_, fun d => ?_, h.notified.trans hpends.notified, h.news.trans hpends.raises.news, ?_⟩
  · have hplate : w.plate r = s.plate r := h.frame (.plate r) (by simp [anyLane])
    rw [← hplate]
    exact hk.plate r
  · rw [hpending, h.pending _ (by simp), ← (h.secured hlaw r).2.1]
    simp [shutNews]
  · rw [← (h.secured hlaw r).2.2, hpending]
    simp [shutNews]
  · exact (hpends.raises.pending_eq (by simp [shutNews])).trans (h.pending _ (by simp))
  · exact (hpends.raises.pending_eq (by simp [shutNews])).trans (h.pending _ (by simp))
  · exact .trans (h.frame.mono (List.append_subset.2 ⟨by simp, List.subset_append_right _ _⟩))
      (.trans (hsession.mono (by simp)) (hk.frame.mono (by simp)))

/-- Settles O47: the refusals in R164's order, and then the releases one after another with both ramps secured. -/
theorem vesselSecureShutsOut : Obligations.VesselSecureShutsOut := by
  unfold Obligations.VesselSecureShutsOut
  intro s f rest hh hp flying weighing ashore gone
  have hx : exec .vesselSecure s = .next (ownVesselSecure f.ticket () (s.taken f rest)).startTx :=
    handle_of_handed hh hp rfl
  have hashore (v : UnitRecord) : ashore v = v.status.shutsOut := by
    cases hs : v.status <;> simp [ashore, hs, Status.shutsOut]
  have hweighing : (s.taken f rest).anyWeighing = true ↔ weighing := anyWeighing_iff
  have hgone : (s.taken f rest).toShutOut = gone := List.filter_congr fun ref _ => by
    unfold State.statusOf
    cases hu : (s.taken f rest).unit? ref with
    | none =>
      have hs : s.unit? ref = none := hu
      simp [hs]
    | some v =>
      have hs : s.unit? ref = some v := hu
      simp [hs, hashore]
  refine ⟨fun hrefused => ?_, fun hfly hweigh hbusy => ?_, fun hfly hweigh hservice hwalk hlaw => ?_⟩
  · rw [ownVesselSecure_inFlight (s := s.taken f rest) _ _ (hrefused.imp_right hweighing.2)] at hx
    exact ⟨_, hx, filled_outcome s f rest (.secureInFlight flying)⟩
  · rw [ownVesselSecure_busy (s := s.taken f rest) _ _ (not_or.2 ⟨Nat.not_lt.2 hfly.le, hweigh ∘ hweighing.1⟩) hbusy] at hx
    exact ⟨_, hx, refused_outcome s f rest .busy⟩
  · rw [ownVesselSecure_secures (s := s.taken f rest) _ _ (not_or.2 ⟨Nat.not_lt.2 hfly.le, hweigh ∘ hweighing.1⟩)
      (not_or.2 ⟨not_not.2 hservice, not_not.2 hwalk⟩), hgone] at hx
    have h : VesselSecured (s.taken f rest) (s.taken f rest).vesselSecured := vesselSecured_of_law hlaw hfly hwalk
    generalize (s.taken f rest).vesselSecured = w at h hx
    obtain ⟨hreplied, hnotified⟩ : Replied s _ f rest (.vesselSecured gone.length) ∧ Notified s _ [] :=
      ⟨replied_of_fill _ h.news, h.notified⟩
    refine ⟨_, hx, hreplied, hnotified, h.session, h.ageing, h.frame .checkIn (by simp [anyLane]), ?_, ?_, hgone ▸ h.lanes,
      h.unreserved, hgone ▸ h.sums, fun r => ⟨h.ramp r, h.plate r, h.pending_ramp r, h.pending_gate r⟩, h.pending_heel,
      h.pending_deck, onlyChanges_fill _ _ (by simp) h.frame⟩
    · intro ref
      simp only [hashore]
      exact h.unit ref
    · exact Eq.trans h.alc (by simp [State.taken, hservice, hwalk])

end Sys2Proof.Machine
